-- ==== Sys2Proof/Word.lean ====
section
/-! DEFINITION. The word types of the part and their plainest forms (00 R10: every peripheral register is 32 bits wide). -/

namespace Sys2Proof

/-- One byte. -/
abbrev Byte := BitVec 8
/-- A half-word. -/
abbrev Half := BitVec 16
/-- A register, a scan core register, a parameter of a log entry: 32 bits. -/
abbrev Word := BitVec 32
/-- A 64-bit quantity: DT, RTCT, an accumulator, a register pair. -/
abbrev DWord := BitVec 64

end Sys2Proof
end

