-- ==== Sys2Proof/Syntax.lean ====
section
/-! DEFINITION. The commands of the block: one constructor per row of the opcode table, in its order, and the types of
their operands. An operand that the part does not decide (a sampled value, an outcome of the outside world) is the
environment's. -/

namespace Sys2Proof

/-- Masters of the peripheral space (00 R16, R19). The scan core's own latch follows its context. -/
inductive Master where
  | core | mover | debug
  deriving DecidableEq, Repr

/-- Width of an access. -/
inductive Width where
  | byte | half | word
  deriving DecidableEq, Repr

/-- Channels of the die bridge (01 Table ARCH-1). -/
inductive BridgeCh where
  | cmp | trip | mod | sar | rb | reg | win | safe
  deriving DecidableEq, Repr

/-- What a calibration measures (06 R177): analogue facts, which the command carries. Element 8n + RANGE + 2 GAIN of ofs and
gain is channel n's correction for that setting, in the units of AFE_CAL_OFS and AFE_CAL_GAIN; element 4m + c of cell is the
offset in uV of cell c (as CMP_CELL_FAIL numbers it) of comparator m; sarOfs is in codes, sarGain as GAIN / 2^22. The
calibration itself judges them (06 Table AFE-5). -/
structure CalIn where
  ofs : List Word
  gain : List Word
  cell : List Word
  sarOfs : Word
  sarGain : Word
  deriving DecidableEq, Repr

/-- The bits that reach a chain from its last output to its next (06 R160, R162; 07 R192, R196). -/
structure ChainIn where
  /-- bits that arrived before the last clear within the output in progress: they reach the over-range detector only -/
  pre : List Bool
  /-- the bits of the output's own period -/
  bits : List Bool
  /-- a stage register's parity error: the stage as Table FLT-1 numbers it less 1, and whether it met this output in progress
  (true) or came, with no output in progress, before these bits (false) -/
  parity : Option (Fin 7 × Bool)
  /-- the channel is being calibrated (06 R178) -/
  cal : Bool
  deriving DecidableEq, Repr

/-- What the environment decides of a cold start: the outcome of each check that the spec gives no data for. -/
structure ColdIn where
  /-- step 1: the trim CRC matches -/
  trimOk : Bool
  /-- step 1: the safety monitor's self-test passes -/
  monOk : Bool
  /-- step 4: the ESU's known-answer tests pass: [0] SHA-256, [1] CTR_DRBG -/
  kat : BitVec 2
  /-- step 2: staging slots and UMU checkpoint copies whose retained CRC fails; parts of the harvest store in which a retained bit has
  turned: bank H0, bank H1, owner map -/
  stageBad : List Nat
  umuBad : BitVec 2
  harvBad : BitVec 3
  sntCodeBad : Bool
  /-- step 3: a rail (order of Table PWR-2) not inside its window in time, or an island's PLL not locked -/
  railBad : Option (Fin 4)
  pllBad : Option (Fin 8)
  /-- step 4: the memory that fails BIST: 0 ITCM, 1 DTCM, 2 vector store, 3 recorder memory -/
  bistBad : Option (Fin 4)
  /-- step 5: lanes failing their self-test -/
  laneBad : BitVec 18
  /-- step 6: log2 of the density SFDP gives for CS0 and CS1, or none where discovery fails, at the step of R514 given -/
  sfdp0 : Option Nat
  sfdp1 : Option Nat
  sfdpStep : Word
  /-- step 7: vault slots whose word check fails; WC copies failing their CRC -/
  vaultBad : BitVec 16
  wcBad : BitVec 2
  /-- step 7: first word of the conditioned block that the ESU has ready by then, if any (19 R555) -/
  seed : Option Word
  /-- step 8: primary and shadow read back equal -/
  fabOk : Bool
  /-- step 9 -/
  cal : CalIn
  /-- the crystal gives edges (02 R65) -/
  xrtc : Bool
  /-- the duration of steps 1 to 8 in microseconds -/
  us : Word
  deriving DecidableEq, Repr

/-- How a flush ends: every line programmed; a page program failed with a flash status after n lines; or, in a
power-fail, the supply failed after n lines (05 Table PWR-10). -/
inductive FlushRes where
  | done
  | failed (n : Nat) (status : Byte)
  | cut (n : Nat)
  deriving DecidableEq, Repr

/-- How a mover job ends: all its lines moved, or after n bytes by an abort, or by an xSPI error after n bytes. -/
inductive MovEnd where
  | whole
  | atLine (n : Nat)
  | xspiErr (n : Nat) (status : Byte)
  deriving DecidableEq, Repr

/-- The fields of a scan core syllable (12 Table ISA-4): the stop bit of its last word, guard, RD, RA, RB, F (an immediate
or an offset is RB and F, or RD to F), and the 29 bits of the X syllable that follows it, if one does. ue and pushUe are no fields
of it: a load or store meets an uncorrectable error in the memory it reads or writes, another syllable in the ITCM word it is fetched
from (12 R343, 10 R289, 15 R445); the first and the second frame push of an entry that its bundle brings about meet one (13 R360). -/
structure SylEnc where
  stop : Bool
  pg : BitVec 3
  rd : BitVec 6
  ra : BitVec 6
  rb : BitVec 6
  f : BitVec 3
  ext : Option (BitVec 29)
  ue : Bool := false
  pushUe : BitVec 2 := 0
  deriving DecidableEq, Repr

/-- A command of the part: one constructor per row of the opcode table. -/
inductive Instr where
  -- 00 registers: a master's access at a scan core address of either view
  | registerWrite (m : Master) (w : Width) (addr v : Word)
  | rcFieldRead (m : Master) (w : Width) (addr : Word)
  | pairLowRead (m : Master) (w : Width) (addr : Word)
  | pairLowWrite (m : Master) (w : Width) (addr v : Word)
  | pairHighWrite (m : Master) (w : Width) (addr v : Word)
  -- 01, 02
  | bridgeTimeout (ch : BridgeCh)
  | coreLost
  | syncPairCapture
  | clockMonitorWindow (island : Fin 8) (count : Nat)
  | dtFault (island : Fin 8)
  | xing (row : Fin 12)
  | crystalStop
  -- 03
  | stageOpen (m : Master)
  | check (m : Master)
  | checkComplete
  | stageClose (m : Master)
  -- 04
  | reqDormant
  | reqSentry
  | reqReady
  | reqProtect
  | reqService
  | reqSafe
  | reqNoTransition (req : BitVec 1)
  | protectGuardSample
  | dormantEntrySequence
  | rstNReset
  | coldStart (e : ColdIn)
  | startTo
  | sysResetReq (v : Word)
  | warmStart (cal : CalIn) (laneBad : BitVec 18) (harvBad : BitVec 3) (us : Word)
  | safeEntry
  | readoutWindowEnd
  -- 05
  | powerFail (vbakOk : Bool)
  | vbatValid
  | surgeBegin
  | surgeEnd
  | chargerTarget
  | chargerRestart
  | pwrBakCtlWrite (v : Word)
  | vbakLow
  | tempWarn (sensor : Fin 3)
  | tempClear (sensor : Fin 3)
  | tempShutdown (sensor : Fin 3)
  | railFault (rail : Fin 4) (mv : Half)
  -- 06
  | afeChCtlWrite (n : Fin 16) (v : Word)
  | channelSettingApply (n : Fin 16)
  | modReset (n : Fin 16)
  | owSet (n : Fin 16) (pins : BitVec 2)
  | owClear (n : Fin 16) (pins : BitVec 2)
  | owtGo (v : Word)
  | owtDone (pos neg : BitVec 16)
  | sarConversion (slot : Fin 20) (uv : Int)
  | comparatorCrossing (m : Fin 8) (uv : Int) (stuck1 stuck0 : BitVec 4)
  | cmpCellTest (pass : BitVec 8)
  | afeCmpCtlWrite (m : Fin 8) (v : Word)
  -- 07
  | chainOutput (k : Fin 16) (i : ChainIn)
  | fltSync (v : Word)
  | coefCrc (upset : Option (Fin 16 × Fin 96 × Word))
  | rateMon
  -- 08
  | thresholdEvaluation (k : Fin 16)
  | fabricTimerExpiry (t : Fin 32)
  | bstChange (n : Fin 12) (level : Bool)
  | bstCfgWrite (n : Fin 12) (v : Word)
  | tripReset (v : Word)
  | kdrvOc (d : Fin 4) (ma : BitVec 12)
  | kdrvOpen (d : Fin 4) (ma : BitVec 12)
  | fabCmp (elem : BitVec 10)
  | readback (out : Fin 36)
  | settingsCrcCheck (upset : Option (Bool × Fin 4 × Fin 160 × Word))
  | fabGrpReq (v : Word)
  | fabSetDataWrite (v : Word)
  -- 09
  | scanEntry (pushUe : BitVec 2)
  | commitApply
  | commitComplete
  | overrun
  | discard (cause : Fin 4)
  | reexecution
  | lockstepMismatch
  -- 10
  | recorderSample (bad : Option (Fin 4))
  | recArm
  | recDisarm
  | brmCtlWrite (v : Word)
  | brmSwtrig (v : Word)
  | drained (us : Word) (fail : Option Byte) (ue : Option (BitVec 19))
  -- 11
  | stageEntry
  | logCtlFlush (v : Word)
  | flushComplete (res : FlushRes)
  | reserveErase
  | logSweCode (v : Word)
  | logCursorWrite (v : Word)
  | logFetchComplete
  | logWin7Read (m : Master)
  | logClear (v : Word)
  | logCleared
  -- 12: each command is one syllable, its X syllable with it
  | add (o : SylEnc)
  | addi (o : SylEnc)
  | sub (o : SylEnc)
  | and (o : SylEnc)
  | andi (o : SylEnc)
  | or (o : SylEnc)
  | ori (o : SylEnc)
  | xor (o : SylEnc)
  | xori (o : SylEnc)
  | shl (o : SylEnc)
  | shli (o : SylEnc)
  | shr (o : SylEnc)
  | shri (o : SylEnc)
  | sar (o : SylEnc)
  | sari (o : SylEnc)
  | addt (o : SylEnc)
  | subt (o : SylEnc)
  | cmpeq (o : SylEnc)
  | cmpeqi (o : SylEnc)
  | cmplt (o : SylEnc)
  | cmplti (o : SylEnc)
  | cmpltu (o : SylEnc)
  | cmpltui (o : SylEnc)
  | sel (o : SylEnc)
  | min (o : SylEnc)
  | max (o : SylEnc)
  | ext (o : SylEnc)
  | clz (o : SylEnc)
  | plog (o : SylEnc)
  | ldw (o : SylEnc)
  | ldh (o : SylEnc)
  | ldhu (o : SylEnc)
  | ldb (o : SylEnc)
  | ldbu (o : SylEnc)
  | ldx (o : SylEnc)
  | stw (o : SylEnc)
  | sth (o : SylEnc)
  | stb (o : SylEnc)
  | stx (o : SylEnc)
  | mul (o : SylEnc)
  | muli (o : SylEnc)
  | mulh (o : SylEnc)
  | mulhu (o : SylEnc)
  | mulq (o : SylEnc)
  | div (o : SylEnc)
  | divu (o : SylEnc)
  | rem (o : SylEnc)
  | remu (o : SylEnc)
  | br (o : SylEnc)
  | jr (o : SylEnc)
  | call (o : SylEnc)
  | callr (o : SylEnc)
  | ret (o : SylEnc)
  | scall (o : SylEnc)
  | sret (o : SylEnc)
  | eret (o : SylEnc)
  | mfsr (o : SylEnc)
  | mtsr (o : SylEnc)
  | ziss (o : SylEnc)
  | zwait (o : SylEnc)
  | commit (o : SylEnc)
  | fence (o : SylEnc)
  | sync (o : SylEnc)
  | idle (o : SylEnc)
  | brk (o : SylEnc)
  -- 13, 14
  | interruptEntry (pushUe : BitVec 2)
  | contextSwitch (bad : Option (Fin 168))
  | nextSlotLoaded (bad : Option (Fin 168))
  | contextWriteBack (bad : Option (Fin 168))
  | schCtlWrite (v : Word)
  | schCtxBaseWrite (v : Word)
  | schWait (v : Word)
  | schYield (v : Word)
  | waitTimeout (t : Fin 64)
  | schFlagsWrite (t : Fin 64) (v : Word)
  | schSlotWrite (t : Fin 64) (v : Word)
  | ringPushHdr (r : Fin 64) (port : Fin 5) (v : Word)
  | ringPushData (r : Fin 64) (port : Fin 5) (v : Word) (bad : Bool)
  | ringPop (r : Fin 64)
  | ringFlush (r : Fin 64) (v : Word)
  -- 15
  | vadd
  | vsub
  | vabs
  | vcvt
  | vmul
  | vcmulj
  | vsq
  | vdiv
  | vsqrt
  | vmag
  | vphase
  | vcis
  | vand
  | vor
  | vxor
  | vmax
  | vmin
  | vcmpgt
  | vshra
  | vcopy
  | vgather
  | vscatter
  | vsum
  | vmaxr
  | zveChainStart
  | zveChainComplete (ue : Option (Fin 499712))
  | zveAbortRun
  | zveAbortQueue
  | zveChainAborted (n : Nat)
  | laneFault (kind : Fin 4) (lane : Fin 18) (failed : BitVec 18)
  | shadowRotation
  | idleSelfTest (failed : BitVec 18)
  -- 16: Winter events and I/O writes of the sentinel
  | sentinelWake
  | sntInterruptEntry
  | rcCalibration
  | rtcSecond
  | rtcAlarm
  | timeofsWrite (v : Byte)
  | localWrite (v : Byte)
  | alarmWrite (v : Byte)
  | wtmrWrite (v : Byte)
  | wakeTimer
  | wake (n : Fin 4) (level : Bool)
  | wakecoreWrite
  | tamperCheck (loop : Fin 2) (kind : BitVec 2)
  | spwdataWrite (v : Byte)
  | spiwExchangeDone (rx : Byte)
  | winterGpioEdge (i : Fin 4) (level : Bool)
  | sntUartRx (u : Fin 2) (v : Byte) (ferr perr : Bool)
  | sntUartTx (u : Fin 2)
  | sntUartReqWrite (v : Word)
  | uartOwner (u : Fin 2)
  | c2sGo
  | mbstatAck
  | outgoMailbox
  | outgoRingPush
  | s2cAck
  | seal
  | openReq
  | sealOperationDone
  | sealUnlock
  | authExpiry
  | sentinelBoot
  | swsEntryWrite (v : Byte)
  | sntFault (cause : Fin 3)
  | swdtExpiry
  | winterPowerOn
  | winterPowerLoss
  | firstXrtcEdge
  -- 16: sentinel instructions; o the operand byte
  | sntNop
  | sntMov (o : Byte)
  | sntMovi (o : Byte) (i : Byte)
  | sntMovw (o : Byte) (w : Half)
  | sntMovq (o : Byte)
  | sntLd (o : Byte)
  | sntLdInc (o : Byte)
  | sntLdDisp (o : Byte) (i : Byte)
  | sntLda (o : Byte) (w : Half)
  | sntSt (o : Byte)
  | sntStInc (o : Byte)
  | sntStDisp (o : Byte) (i : Byte)
  | sntSta (o : Byte) (w : Half)
  | sntLdw (o : Byte)
  | sntStw (o : Byte)
  | sntXch (o : Byte)
  | sntPush (o : Byte)
  | sntPop (o : Byte)
  | sntPushq (o : Byte)
  | sntPopq (o : Byte)
  | sntPushf
  | sntPopf
  | sntGetsp (o : Byte)
  | sntSetsp (o : Byte)
  | sntAdd (o : Byte)
  | sntAdc (o : Byte)
  | sntSub (o : Byte)
  | sntSbc (o : Byte)
  | sntAnd (o : Byte)
  | sntOr (o : Byte)
  | sntXor (o : Byte)
  | sntCmp (o : Byte)
  | sntAddImm (o : Byte) (i : Byte)
  | sntAdcImm (o : Byte) (i : Byte)
  | sntSubImm (o : Byte) (i : Byte)
  | sntSbcImm (o : Byte) (i : Byte)
  | sntAndImm (o : Byte) (i : Byte)
  | sntOrImm (o : Byte) (i : Byte)
  | sntXorImm (o : Byte) (i : Byte)
  | sntCmpImm (o : Byte) (i : Byte)
  | sntInc (o : Byte)
  | sntDec (o : Byte)
  | sntNeg (o : Byte)
  | sntNot (o : Byte)
  | sntShl (o : Byte)
  | sntShr (o : Byte)
  | sntSar (o : Byte)
  | sntRlc (o : Byte)
  | sntRrc (o : Byte)
  | sntSwap (o : Byte)
  | sntAddw (o : Byte)
  | sntSubw (o : Byte)
  | sntCmpw (o : Byte)
  | sntIncw (o : Byte)
  | sntDecw (o : Byte)
  | sntAddwi (o : Byte) (w : Half)
  | sntMul (o : Byte)
  | sntBset (o : Byte)
  | sntBclr (o : Byte)
  | sntBtst (o : Byte)
  | sntJmp (w : Half)
  | sntJmpq (o : Byte)
  | sntCall (w : Half)
  | sntCallq (o : Byte)
  | sntRet
  | sntReti
  | sntBra (i : Byte)
  | sntBeq (i : Byte)
  | sntBne (i : Byte)
  | sntBcs (i : Byte)
  | sntBcc (i : Byte)
  | sntBmi (i : Byte)
  | sntBpl (i : Byte)
  | sntBvs (i : Byte)
  | sntBvc (i : Byte)
  | sntDjnz (o : Byte) (i : Byte)
  | sntEi
  | sntDi
  | sntSleep
  | sntWfi
  | sntTrap
  -- 17
  | hourMeterSecond (m : Fin 4)
  | hmCfg (core : Bool) (m : Fin 4) (sel : BitVec 3) (pin : BitVec 2) (inv : Bool) (sig : BitVec 10)
  | hmtPresetGo (v : Word)
  | hmPreset
  | umuCommitInput
  | umuBoundary
  | umuBill (v : Word)
  | umuSchedDataWrite (v : Word)
  | umuSchedApply (v : Word)
  | umuSchedRevert (v : Word)
  | hire
  | hireCtlWrite (v : Byte)
  | hmtWithdraw (v : Word)
  | usageRegisterWrite (a : Half) (v : Byte)
  | theftSet (v : Byte)
  | theftClear (v : Byte)
  | vbatCut
  | vbatRestore
  -- 18
  | moverRead (c : Fin 8) (push : Bool) (ring : Fin 64)
  | moverWrite (c : Fin 8) (push : Bool) (ring : Fin 64)
  | moverErase (c : Fin 8) (push : Bool) (ring : Fin 64)
  | moverJobEnd (c : Fin 8) (res : MovEnd)
  | movAbort (c : Fin 8) (v : Word)
  | stage (m : Master) (key role : Half) (slot : Fin 16)
  | revoke (m : Master) (key : Half) (slot : Fin 16)
  | vaultProgramDone (ok : Bool)
  | authNew
  | authGo
  | authVerifyDone
  | authValidExpiry
  -- 19
  | esuSample (bits : BitVec 5)
  | blockRelease
  | drbgGenerate
  | drbgReseed
  | drbgStop
  | esuCondRead (m : Master)
  | esuDrbgRead (m : Master)
  | retest (v : Word)
  | reseed (v : Word)
  -- 20
  | safAlarm
  | degLimit
  | scrubUe (mem : Fin 6) (addr : Word)
  | wdtKick (v : Word)
  | wdtLate
  | safWdtCfgWrite (v : Word)
  | safDegCfgWrite (v : Word)
  | injectFabCmp (key : Half)
  | injectReadback (key : Half)
  | injectWdtKey (key : Half)
  | injectRefOffset (key : Half)
  | injectMonChannel (key : Half)
  | injectClock (key : Half)
  | monMismatch (a b : Word)
  -- 21
  | canBitTimingWrite (k : Fin 2) (data : Bool) (v : Word)
  | canFrameReceived (k : Fin 2) (id ctrl stamp : Word) (data : List Word)
  | canTxRequest (k : Fin 2) (m : BitVec 64)
  | canFrameTransmitted (k : Fin 2) (b : Fin 64) (stamp : Word)
  | canTxabort (k : Fin 2) (m : BitVec 64) (onBus : Bool)
  | canPassive (k : Fin 2)
  | canBusOff (k : Fin 2)
  | canRecover (k : Fin 2)
  | uartDataWrite (u : Fin 4) (v : Word)
  | uartDataRead (m : Master) (u : Fin 4)
  | uartRxCharacter (u : Fin 4) (v : Byte) (ferr perr brk : Bool)
  | uartTxCharacter (u : Fin 4)
  | rxTimeout (u : Fin 4)
  | spiTxWrite (k : Fin 2) (v : Word)
  | spiFrameDone (k : Fin 2) (rx : Word)
  | spiRxRead (m : Master) (k : Fin 2)
  | i2cStart (k : Fin 2) (arbLost : Bool)
  | i2cWrite (k : Fin 2) (ack arbLost : Bool)
  | i2cReadAck (k : Fin 2) (v : Byte)
  | i2cReadNack (k : Fin 2) (v : Byte)
  | i2cStop (k : Fin 2)
  | i2cRxRead (m : Master) (k : Fin 2)
  | i2cStuck (k : Fin 2) (sda : Bool)
  | gpioEdge (i : Fin 12) (level : Bool)
  | gpioSet (v : Word)
  | gpioClr (v : Word)
  -- 22
  | tapReset
  | extest
  | idcode
  | samplePreload (cells : BitVec 123)
  | clamp
  | highz
  | dbgacc
  | bypass (opcode : Byte)
  | dbgaccRead (addr : Word)
  | dbgaccWrite (addr v : Word)
  | lockToLocked (key : Half) (programmed : Bool)
  | lockToSealed (key : Half) (programmed : Bool)
  | dbgAuthNew
  | dbgAuthGo
  | debugUnlock
  | unlockExpiry
  | halt (m : Master)
  | resume (m : Master)
  | step (m : Master)
  | warm (m : Master)
  | rfr (v : Word) (programmed : Bool)
  -- further events
  | pllUnlock (island : Fin 8)
  | tjfMeasurement (deg : Byte)
  | uart3CtsNChange (high : Bool)
  | canFrameError (k : Fin 2) (b : Option (Fin 64)) (lec : BitVec 3) (big : Bool)
  | canArbitrationLost (k : Fin 2) (b : Fin 64)
  | scrubCorrected (mem : Fin 6)
  | hourMeterGate (m : Fin 4) (sig : Bool)
  | authLockExpiry (debug : Bool)
  | xrtcStartTimeout
  deriving DecidableEq, Repr

end Sys2Proof
end

