-- ==== Sys2Proof/Machine/Bits.lean ====
section
/-! DEFINITION. Bit fields, sign extension, byte order and canonical maps: the helpers every block uses. -/

namespace Sys2Proof.Machine

/-- Field [lo+w-1:lo] of a word, as a w-bit value. -/
def fld (x : Word) (lo w : Nat) : BitVec w := x.extractLsb' lo w

/-- The same field as a number. -/
def fldN (x : Word) (lo w : Nat) : Nat := (x.extractLsb' lo w).toNat

/-- Bit i of a word. -/
def bit (x : Word) (i : Nat) : Bool := x.getLsbD i

/-- A Bool as bit i of a word. -/
def bitAt (b : Bool) (i : Nat) : Word := if b then (1 : Word) <<< i else 0

/-- The bits of a list, the first as bit 0. -/
def boolBits (w : Nat) (l : List Bool) : BitVec w := (BitVec.ofBoolListLE l).setWidth w

/-- Bit i of a value set to b. -/
def setBit {w : Nat} (x : BitVec w) (i : Nat) (b : Bool) : BitVec w :=
  if b then x ||| BitVec.twoPow w i else x &&& ~~~BitVec.twoPow w i

/-- A number placed at bit lo of a word. -/
def at_ (n : Nat) (lo : Nat) : Word := (BitVec.ofNat 32 n) <<< lo

/-- Low and high word of a 64-bit value. -/
def lo32 (x : DWord) : Word := x.setWidth 32
def hi32 (x : DWord) : Word := (x >>> 32).setWidth 32

/-- A 64-bit value from its two words. -/
def pair (hi lo : Word) : DWord := (hi.setWidth 64 <<< 32) ||| lo.setWidth 64

/-- Saturating increment of a w-bit counter. -/
def satInc {w : Nat} (x : BitVec w) : BitVec w := if x = BitVec.allOnes w then x else x + 1

/-- Little-endian bytes of a word. -/
def bytesLE (x : Word) : List Byte :=
  [x.extractLsb' 0 8, x.extractLsb' 8 8, x.extractLsb' 16 8, x.extractLsb' 24 8]

/-- Big-endian bytes of a word. -/
def bytesBE (x : Word) : List Byte := (bytesLE x).reverse

/-- Little-endian number of a byte list. -/
def natLE : List Byte → Nat
  | [] => 0
  | b :: t => b.toNat + 256 * natLE t

/-- Big-endian number of a byte list. -/
def natBE (l : List Byte) : Nat := natLE l.reverse

/-- The n little-endian bytes of a number. -/
def toLE : Nat → Nat → List Byte
  | 0, _ => []
  | n + 1, x => BitVec.ofNat 8 x :: toLE n (x / 256)

/-- The n big-endian bytes of a number. -/
def toBE (n x : Nat) : List Byte := (toLE n x).reverse

/-- The word of the first four bytes, little-endian. -/
def wordLE (l : List Byte) : Word := BitVec.ofNat 32 (natLE (l.take 4))

/-- The word of the first four bytes, big-endian. -/
def wordBE (l : List Byte) : Word := BitVec.ofNat 32 (natBE (l.take 4))

/-- Words of a byte list, little-endian, n of them. -/
def wordsLE : Nat → List Byte → List Word
  | 0, _ => []
  | n + 1, l => wordLE l :: wordsLE n (l.drop 4)

/-- Pieces of n elements of a list, k of them. -/
def chunks {α : Type} (n : Nat) : Nat → List α → List (List α)
  | 0, _ => []
  | k + 1, l => l.take n :: chunks n k (l.drop n)

/-- Lookup in a canonical map: keys strictly rising, no entry equal to the value d of an unlisted key. -/
def mget {α : Type} (d : α) : List (Nat × α) → Nat → α
  | [], _ => d
  | (a, v) :: t, k => if k = a then v else mget d t k

/-- Update of a canonical map; storing the unlisted value removes the entry. -/
def mset {α : Type} [DecidableEq α] (d : α) : List (Nat × α) → Nat → α → List (Nat × α)
  | [], k, v => if v = d then [] else [(k, v)]
  | (a, x) :: t, k, v =>
    if k < a then (if v = d then (a, x) :: t else (k, v) :: (a, x) :: t)
    else if k = a then (if v = d then t else (k, v) :: t)
    else (a, x) :: mset d t k v

/-- The keys of a map rise strictly and start at or above n, and no entry equals d. -/
def mwfFrom {α : Type} [DecidableEq α] (d : α) : Nat → List (Nat × α) → Bool
  | _, [] => true
  | n, (a, x) :: t => decide (n ≤ a) && decide (x ≠ d) && mwfFrom d (a + 1) t

/-- The canonical form of a map. -/
def mwf {α : Type} [DecidableEq α] (d : α) (m : List (Nat × α)) : Bool := mwfFrom d 0 m

/-- n consecutive bytes of a memory. -/
def mread (d : Byte) (m : List Host.Cell) : Nat → Nat → List Byte
  | _, 0 => []
  | a, n + 1 => mget d m a :: mread d m (a + 1) n

/-- Consecutive bytes stored to a memory. -/
def mwrite (d : Byte) : List Host.Cell → Nat → List Byte → List Host.Cell
  | m, _, [] => m
  | m, a, b :: t => mwrite d (mset d m a b) (a + 1) t

/-- The canonical memory that holds a list of bytes from address a on, and nothing else. -/
def mlist (d : Byte) : Nat → List Byte → List Host.Cell
  | _, [] => []
  | a, b :: t => if b = d then mlist d (a + 1) t else (a, b) :: mlist d (a + 1) t

/-- The bytes of a range removed: the range reads as unlisted. -/
def mclear {α : Type} (m : List (Nat × α)) (a n : Nat) : List (Nat × α) :=
  m.filter (fun c => decide (c.1 < a ∨ a + n ≤ c.1))

/-- Element i of a vector changed. -/
def vmod {α : Type} {n : Nat} (v : Vector α n) (i : Fin n) (f : α → α) : Vector α n :=
  v.set i.val (f (v[i.val]'i.isLt)) i.isLt

/-- Element i of a vector set. -/
def vput {α : Type} {n : Nat} (v : Vector α n) (i : Fin n) (x : α) : Vector α n := v.set i.val x i.isLt

/-- A number as an index below n + 1, by wrapping (used where the number is already in range). -/
def fin (n : Nat) (i : Nat) : Fin (n + 1) := ⟨i % (n + 1), Nat.mod_lt _ (Nat.succ_pos n)⟩

/-- Two's complement value. -/
def sint (x : Word) : Int := x.toInt

/-- An integer narrowed to a word. -/
def ofInt32 (i : Int) : Word := BitVec.ofInt 32 i

end Sys2Proof.Machine
end

