-- ==== Sys2Proof/Machine/Crypto.lean ====
section
/-! DEFINITION. The standard algorithms the spec names: CRC-32C, SHA-256 (FIPS 180-4), AES-128 and AES-256 (FIPS 197),
GCM (SP 800-38D), CCM (SP 800-38C), ECDSA verification over P-256 (FIPS 186-4). Written from the standards. -/

namespace Sys2Proof.Machine

/-- One bit of CRC-32C (reflected polynomial 0x82F63B78). -/
def crcBit (c : Word) : Word := if c.getLsbD 0 then (c >>> 1) ^^^ 0x82F63B78#32 else c >>> 1

/-- One byte of CRC-32C. -/
def crcByte (c : Word) (b : Byte) : Word :=
  Nat.repeat crcBit 8 (c ^^^ b.setWidth 32)

/-- CRC-32C: initial value and final inversion all ones. -/
def crc32c (l : List Byte) : Word := ~~~ (l.foldl crcByte 0xFFFFFFFF#32)

/-! SHA-256. -/

/-- The first n primes from k, in order (n of them, at most f candidates tried). -/
def isPrime (n : Nat) : Bool := decide (2 ≤ n) && (List.range n).all (fun d => d < 2 || n % d != 0)

/-- Largest r with r^k ≤ x, bit by bit from bit b. -/
def iroot (k x : Nat) : Nat → Nat → Nat
  | 0, r => r
  | b + 1, r => iroot k x b (if (r + 2 ^ b) ^ k ≤ x then r + 2 ^ b else r)

/-- The first 64 primes. -/
def primes64 : List Nat := (List.range 312).filter isPrime

/-- The first 32 bits of the fractional parts of the square roots of the first 8 primes. -/
def shaInit : List Word := (primes64.take 8).map (fun p => BitVec.ofNat 32 (iroot 2 (p * 2 ^ 64) 40 0))

/-- The first 32 bits of the fractional parts of the cube roots of the first 64 primes. -/
def shaK : List Word := primes64.map (fun p => BitVec.ofNat 32 (iroot 3 (p * 2 ^ 96) 40 0))

/-- The message schedule: words so far, newest first, extended n times. -/
def shaSched : Nat → List Word → List Word
  | 0, w => w
  | n + 1, w =>
    let w2 := w.getD 1 0
    let w7 := w.getD 6 0
    let w15 := w.getD 14 0
    let w16 := w.getD 15 0
    let s0 := w15.rotateRight 7 ^^^ w15.rotateRight 18 ^^^ (w15 >>> 3)
    let s1 := w2.rotateRight 17 ^^^ w2.rotateRight 19 ^^^ (w2 >>> 10)
    shaSched n ((w16 + s0 + w7 + s1) :: w)

/-- One round: the eight working variables and the round's constant plus word. -/
def shaRound (v : List Word) (kw : Word) : List Word :=
  match v with
  | [a, b, c, d, e, f, g, h] =>
    let s1 := e.rotateRight 6 ^^^ e.rotateRight 11 ^^^ e.rotateRight 25
    let ch := (e &&& f) ^^^ (~~~e &&& g)
    let t1 := h + s1 + ch + kw
    let s0 := a.rotateRight 2 ^^^ a.rotateRight 13 ^^^ a.rotateRight 22
    let mj := (a &&& b) ^^^ (a &&& c) ^^^ (b &&& c)
    [t1 + (s0 + mj), a, b, c, d + t1, e, f, g]
  | _ => v

/-- One 64-byte block. -/
def shaBlock (h : List Word) (b : List Byte) : List Word :=
  let w0 := ((chunks 4 16 b).map wordBE).reverse
  let w := (shaSched 48 w0).reverse
  let v := (List.zipWith (· + ·) shaK w).foldl shaRound h
  List.zipWith (· + ·) h v

/-- The padded message. -/
def shaPad (m : List Byte) : List Byte :=
  let n := m.length
  m ++ [0x80#8] ++ List.replicate ((119 - n % 64) % 64) 0 ++ toBE 8 (8 * n)

/-- SHA-256. -/
def sha256 (m : List Byte) : List Byte :=
  let p := shaPad m
  ((chunks 64 (p.length / 64) p).foldl shaBlock shaInit).flatMap bytesBE

/-! AES. -/

/-- Multiplication by x in GF(2^8). -/
def xtime (b : Byte) : Byte := if b.getLsbD 7 then (b <<< 1) ^^^ 0x1B#8 else b <<< 1

/-- Multiplication in GF(2^8), n bits of the second factor. -/
def gmulN : Nat → Byte → Byte → Byte
  | 0, _, _ => 0
  | n + 1, a, b => (if b.getLsbD 0 then a else 0) ^^^ gmulN n (xtime a) (b >>> 1)

/-- Multiplication in GF(2^8). -/
def gmul (a b : Byte) : Byte := gmulN 8 a b

/-- The inverse in GF(2^8) (the 254th power), 0 for 0. -/
def ginv (a : Byte) : Byte :=
  let a2 := gmul a a
  let a4 := gmul a2 a2
  let a8 := gmul a4 a4
  let a16 := gmul a8 a8
  let a32 := gmul a16 a16
  let a64 := gmul a32 a32
  let a128 := gmul a64 a64
  gmul a2 (gmul a4 (gmul a8 (gmul a16 (gmul a32 (gmul a64 a128)))))

/-- The AES substitution. -/
def sbox (a : Byte) : Byte :=
  let b := ginv a
  b ^^^ b.rotateLeft 1 ^^^ b.rotateLeft 2 ^^^ b.rotateLeft 3 ^^^ b.rotateLeft 4 ^^^ 0x63#8

/-- Exclusive or of two byte lists. -/
def xorB (a b : List Byte) : List Byte := List.zipWith (· ^^^ ·) a b

/-- Key expansion: 4-byte words so far, newest first; nk the key's words, i the next index, n words to make. -/
def aesExpand (nk : Nat) : Nat → Nat → Byte → List (List Byte) → List (List Byte)
  | 0, _, _, w => w
  | n + 1, i, rc, w =>
    let t := w.getD 0 []
    let old := w.getD (nk - 1) []
    if i % nk = 0 then
      let r := (t.drop 1 ++ t.take 1).map sbox
      aesExpand nk n (i + 1) (xtime rc) (xorB old (xorB r [rc, 0, 0, 0]) :: w)
    else if nk > 6 ∧ i % nk = 4 then aesExpand nk n (i + 1) rc (xorB old (t.map sbox) :: w)
    else aesExpand nk n (i + 1) rc (xorB old t :: w)

/-- The round keys of a 16- or 32-byte key, as 16-byte lists. -/
def aesKeys (key : List Byte) : List (List Byte) :=
  let nk := key.length / 4
  let n := 4 * (nk + 7)
  let w := aesExpand nk (n - nk) nk 1 (chunks 4 nk key).reverse
  chunks 16 (nk + 7) (w.reverse.flatten)

/-- ShiftRows on the column-ordered state. -/
def aesShift (s : List Byte) : List Byte :=
  (List.range 16).map (fun i => s.getD ((i + 4 * (i % 4)) % 16) 0)

/-- MixColumns on one column. -/
def aesMix (c : List Byte) : List Byte :=
  let a := c.getD 0 0
  let b := c.getD 1 0
  let d := c.getD 2 0
  let e := c.getD 3 0
  let x := a ^^^ b ^^^ d ^^^ e
  [a ^^^ x ^^^ xtime (a ^^^ b), b ^^^ x ^^^ xtime (b ^^^ d), d ^^^ x ^^^ xtime (d ^^^ e), e ^^^ x ^^^ xtime (e ^^^ a)]

/-- The rounds after the first key addition. -/
def aesRounds (s : List Byte) : List (List Byte) → List Byte
  | [] => s
  | [k] => xorB (aesShift (s.map sbox)) k
  | k :: ks => aesRounds (xorB ((chunks 4 4 (aesShift (s.map sbox))).flatMap aesMix) k) ks

/-- AES encryption of one block. -/
def aesEnc (key blk : List Byte) : List Byte :=
  match aesKeys key with
  | [] => blk
  | k :: ks => aesRounds (xorB blk k) ks

/-! GCM. -/

/-- Multiplication in GF(2^128) with GCM's bit order (bit 127 of the number is the first bit). -/
def ghMul (x y : Nat) : Nat :=
  ((List.range 128).foldl
    (fun (p : Nat × Nat) i =>
      (if x.testBit (127 - i) then p.1 ^^^ p.2 else p.1,
       if p.2.testBit 0 then (p.2 / 2) ^^^ (0xE1 <<< 120) else p.2 / 2)) (0, y)).1

/-- Sixteen-byte blocks of a list, the last one padded with zeros. -/
def blocks16 (l : List Byte) : List (List Byte) :=
  (chunks 16 ((l.length + 15) / 16) l).map (fun b => b ++ List.replicate (16 - b.length) 0)

/-- GHASH over whole blocks. -/
def ghash (h : Nat) (bs : List (List Byte)) : Nat := bs.foldl (fun y b => ghMul (y ^^^ natBE b) h) 0

/-- Counter mode from a 12-byte IV and a first counter. -/
def gctr (key iv : List Byte) (c : Nat) (l : List Byte) : List Byte :=
  (List.zipWith (fun i b => xorB b (aesEnc key (iv ++ toBE 4 (c + i)))) (List.range ((l.length + 15) / 16))
    (chunks 16 ((l.length + 15) / 16) l)).flatten

/-- The GCM tag of a ciphertext with no additional data. -/
def gcmTag (key iv ct : List Byte) : List Byte :=
  let h := natBE (aesEnc key (List.replicate 16 0))
  let s := ghash h (blocks16 ct ++ [toBE 8 0 ++ toBE 8 (8 * ct.length)])
  xorB (toBE 16 s) (aesEnc key (iv ++ toBE 4 1))

/-- GCM ciphertext, which is also its own inverse on the ciphertext. -/
def gcmCrypt (key iv pt : List Byte) : List Byte := gctr key iv 2 pt

/-! CCM. -/

/-- The CBC-MAC of SP 800-38C over formatted blocks. -/
def cbcMac (key : List Byte) (bs : List (List Byte)) : List Byte :=
  bs.foldl (fun y b => aesEnc key (xorB y b)) (List.replicate 16 0)

/-- Block B0: flags for adata present, tag length t, and a 13-byte nonce (q = 2). -/
def ccmB0 (adata : Bool) (t : Nat) (nonce : List Byte) (n : Nat) : List Byte :=
  BitVec.ofNat 8 ((if adata then 64 else 0) + 8 * ((t - 2) / 2) + (15 - nonce.length - 1)) ::
    nonce ++ toBE (15 - nonce.length) n

/-- The encoded additional data, padded to blocks (below 65,280 bytes). -/
def ccmA (a : List Byte) : List (List Byte) :=
  if a.isEmpty then [] else blocks16 (toBE 2 a.length ++ a)

/-- A counter block of CCM. -/
def ccmCtr (nonce : List Byte) (i : Nat) : List Byte :=
  BitVec.ofNat 8 (15 - nonce.length - 1) :: nonce ++ toBE (15 - nonce.length) i

/-- CCM encryption or decryption of the payload. -/
def ccmCrypt (key nonce p : List Byte) : List Byte :=
  (List.zipWith (fun i b => xorB b (aesEnc key (ccmCtr nonce (i + 1)))) (List.range ((p.length + 15) / 16))
    (chunks 16 ((p.length + 15) / 16) p)).flatten

/-- The CCM tag of t bytes of a plaintext payload. -/
def ccmTag (key nonce a p : List Byte) (t : Nat) : List Byte :=
  xorB ((cbcMac key (ccmB0 (!a.isEmpty) t nonce p.length :: ccmA a ++ blocks16 p)).take t)
    (aesEnc key (ccmCtr nonce 0))

/-! P-256. -/

/-- The prime, the order and the constant b of P-256. -/
def p256 : Nat := 2 ^ 256 - 2 ^ 224 + 2 ^ 192 + 2 ^ 96 - 1
def n256 : Nat := 0xFFFFFFFF00000000FFFFFFFFFFFFFFFFBCE6FAADA7179E84F3B9CAC2FC632551
def b256 : Nat := 0x5AC635D8AA3A93E7B3EBBD55769886BC651D06B0CC53B0F63BCE3C3E27D2604B
def gx256 : Nat := 0x6B17D1F2E12C4247F8BCE6E563A440F277037D812DEB33A0F4A13945D898C296
def gy256 : Nat := 0x4FE342E2FE1A7F9B8EE7EB4A7C0F9E162BCE33576B315ECECBB6406837BF51F5

/-- a^e mod m, f bits of e from the lowest. -/
def powMod (m : Nat) : Nat → Nat → Nat → Nat
  | 0, _, _ => 1 % m
  | f + 1, a, e => (if e % 2 = 1 then a * powMod m f (a * a % m) (e / 2) else powMod m f (a * a % m) (e / 2)) % m

/-- Inverse modulo a 256-bit prime. -/
def invMod (m a : Nat) : Nat := powMod m 256 (a % m) (m - 2)

/-- Addition of affine points; none is the point at infinity. -/
def ecAdd (p q : Option (Nat × Nat)) : Option (Nat × Nat) :=
  match p, q with
  | none, q => q
  | p, none => p
  | some (x1, y1), some (x2, y2) =>
    if x1 = x2 ∧ (y1 + y2) % p256 = 0 then none
    else
      let l := if x1 = x2 then ((3 * x1 * x1 + (p256 - 3)) * invMod p256 (2 * y1)) % p256
        else ((y2 + p256 - y1) * invMod p256 (x2 + p256 - x1)) % p256
      let x3 := (l * l + 2 * p256 - x1 - x2) % p256
      some (x3, (l * (x1 + p256 - x3) + p256 - y1) % p256)

/-- Scalar multiplication, f bits. -/
def ecMul : Nat → Nat → Option (Nat × Nat) → Option (Nat × Nat)
  | 0, _, _ => none
  | f + 1, k, p =>
    let r := ecMul f (k / 2) (ecAdd p p)
    if k % 2 = 1 then ecAdd p r else r

/-- (x, y) is a point of P-256 other than the point at infinity. -/
def onCurve (x y : Nat) : Bool :=
  decide (x < p256) && decide (y < p256) && decide (y * y % p256 = (x * x * x + (p256 - 3) * x + b256) % p256)

/-- ECDSA verification with SHA-256 on a message (03 R85, 18 R532). -/
def ecdsaVerify (x y r s : Nat) (msg : List Byte) : Bool :=
  onCurve x y && decide (1 ≤ r) && decide (r < n256) && decide (1 ≤ s) && decide (s < n256) &&
    let z := natBE (sha256 msg)
    let w := invMod n256 s
    match ecAdd (ecMul 256 (z * w % n256) (some (gx256, gy256))) (ecMul 256 (r * w % n256) (some (x, y))) with
    | none => false
    | some (px, _) => decide (px % n256 = r)

end Sys2Proof.Machine
end

