-- ==== Sys2Proof/Config.lean ====
section
/-! DEFINITION. What the spec leaves open and the model leaves open with it: uninterpreted constants. -/

namespace Sys2Proof

/-- Values the spec leaves undefined or does not state, as a stream: the step reads the next one and
advances State.freeCtr (log entry 2). -/
opaque Config.freeWord : Nat → Word

/-- The single-precision result the spec does not state bit for bit (15 R420, R421: the rounding of
division, square root, magnitude, phase and CIS for the types whose rule does not fix it), as a function of the
operation's code and its operand bits (log entry 3). -/
opaque Config.zinikApprox : Nat → Word → Word → Word

/-- The level that the board's pull resistor holds on a trip output at high impedance (08 R219, R220): TRPA n at n, TRPB n at
12 + n (log entry 82). -/
opaque Config.floatPin : Nat → Bool

end Sys2Proof
end

