-- ==== Sys2Proof/Machine/State.lean ====
section
/-! DEFINITION. The state of the part as plain data, its faults and refusals, and the state right after a Winter
power-on. -/

namespace Sys2Proof.Machine

/-- The part variant (00 R3); it never changes. -/
inductive Part where
  | tsj5140 | tsj5120
  deriving DecidableEq, Repr

/-- The six modes (04 Table MODE-1), in the order of their codes. -/
inductive Mode where
  | dormant | sentry | ready | protect | service | safe
  deriving DecidableEq, Repr

/-- Reasons for which a command ends in a fault. -/
inductive Fault where
  /-- The command names a channel, chain or comparator that the part does not have (00 R3, R7: Instr.wf refuses it); raised
  by the meanings of the events of that unit. Safe: the machine stops. -/
  | illFormed
  deriving DecidableEq, Repr

/-- Reasons for which a command is refused. -/
inductive Refusal where
  /-- An arm of exec whose meaning is not written; raised by exec. Safe. -/
  | notModelled (mnemonic : String)
  deriving DecidableEq, Repr

/-- What a register or memory access answered (00 Table SCOPE-9). -/
inductive BusStatus where
  | ok | busError | privilege | misaligned
  deriving DecidableEq, Repr

/-- The answer to the last access: its status and, for a read, its data. -/
structure Resp where
  status : BusStatus
  data : Word
  deriving DecidableEq, Repr

/-- One 64-bit pair's latched high word, per master (00 R16). The key is the offset of the latched word. -/
structure Latch where
  master : Nat
  offset : Nat
  value : Word
  deriving DecidableEq, Repr

/-- A log entry without its CRC, which is a function of it (11 Table LOG-1). -/
structure Entry where
  code : Half
  source : Byte
  td : Bool
  coarse : Bool
  pf : Bool
  hw : Bool
  stamp : DWord
  p0 : Word
  p1 : Word
  p2 : Word
  p3 : Word
  deriving DecidableEq, Repr

/-- Islands, device time and the RTC (02). -/
structure TimeSt where
  /-- TIME runs (the core die is powered past cold start step 3) -/
  run : Bool
  dt : DWord
  rtct : DWord
  /-- phase of the RTC period in units of 10 ns * 32768 / 10^8 (log entry 4) -/
  phase : Nat
  syncRtc : DWord
  syncDt : DWord
  /-- a sync pair has been captured since the last cold start (R69) -/
  synced : Bool
  /-- DT at the last RTC tick edge that fell while TIME ran, which a sync pair takes (R48) -/
  edgeDt : Option DWord
  /-- ISL_STAT.RTC_COARSE (R65, R66), and the RTC tick in which it rose: an event of that tick is not coarse (R62) -/
  coarse : Bool
  coarseAt : DWord
  /-- the RTC runs from the RC fallback (R65) -/
  rcFallback : Bool
  /-- the first XRTC edge since Winter power-on has been seen (24 R650) -/
  xrtcSeen : Bool
  /-- island n's last window within the warning limit -/
  clkOk : BitVec 8
  /-- island n's last window outside the fault limit (R61) -/
  clkOver : BitVec 8
  /-- powered islands -/
  pwr : BitVec 8
  deriving DecidableEq, Repr

/-- A start between its step 8 (a cold start) or its reset (a warm start) and its step 11 or 12: what its later steps still
need of its command. -/
structure StartRun where
  cold : Bool
  /-- what the calibration of step 9 measures, and DT at the beginning of step 9 while it runs -/
  cal : CalIn
  step9 : Option DWord
  /-- checkpoint copies whose retained CRC fails; parts of the harvest store in which a retained bit has turned -/
  umuBad : BitVec 2
  harvBad : BitVec 3
  deriving DecidableEq, Repr

/-- Modes, starts and Safe (04). -/
structure ModeSt where
  mode : Mode
  prev : Mode
  /-- transition Id of the last start (04 Table MODE-2), for its MODE entry -/
  startId : Nat
  /-- a start runs: the scan program has been started and its first scan has not begun (R99, R111) -/
  starting : Bool
  /-- the core die is powered -/
  coreOn : Bool
  /-- core-die wake request pending -/
  wake : Bool
  /-- RST_N released: a cold start follows (R106) -/
  rstStart : Bool
  /-- SYS_MODE_RES -/
  seq : Byte
  failed : BitVec 4
  result : BitVec 3
  /-- an M5 request awaits its guard sample (R104) -/
  m5 : Bool
  /-- an M9 request runs its sequence; true: ends in Sentry (R108) -/
  m9 : Option Bool
  /-- a warm start cause is latched (R113) -/
  warmReq : Option (Fin 6)
  /-- SYS_START -/
  wcount : Byte
  harv : BitVec 2
  cal : Bool
  wcause : BitVec 4
  clsWarm : Bool
  kindWarm : Bool
  startDt : DWord
  startTime : Word
  /-- the start in its steps 9 and 10; microseconds that its start had taken when DT stood at startMark (R130) -/
  run : Option StartRun
  startUs : Word
  startMark : DWord
  /-- DT of the last warm starts, newest first (R118) -/
  warmDts : List DWord
  /-- DT and TJF reading of the last calibration (R116) -/
  calDt : DWord
  calTjf : Byte
  /-- Safe causes latched and not yet acted on, first latched first: code, parameter, DT (R124) -/
  safePend : List (Nat × Word × DWord)
  safePri : Byte
  safeMask : Word
  safeDt : DWord
  /-- the Safe readout window runs (R125) -/
  window : Bool
  /-- power-fail has latched and its sequence has not ended -/
  pf : Bool
  /-- steps that the start in progress, or the last one, has ended (00 R24) -/
  done : Nat
  /-- the cold start of this power period has passed step 8, step 11 (R298), step 13 -/
  past8 : Bool
  /-- step 10 of the cold start has ended -/
  past10 : Bool
  past11 : Bool
  past13 : Bool
  /-- the cold start has run step 7 in provisioning (22 R611) -/
  past7 : Bool
  deriving DecidableEq, Repr

/-- Supply, backup and temperature (05). -/
structure PwrSt where
  winter : Bool
  vbatValid : Bool
  surge : Bool
  surgeDt : DWord
  bakSrc : Bool
  vbakOk : Bool
  chgActive : Bool
  chgDone : Bool
  rails : BitVec 4
  twarn : BitVec 3
  vbatMv : Half
  vbakMv : Half
  tjf : Byte
  tjc0 : Byte
  tjc1 : Byte
  lastFlush : BitVec 2
  pfCount : Half
  /-- consecutive TJF readings at or below 130 degrees while the Safe cause is THERMAL (R150) -/
  tjfOk : Nat
  /-- per sensor, consecutive frame means above 135, at or below 130, above 150 degrees, and outside the range of the sensor
  (R147, R149, R153), counted up to 8 -/
  tHigh : Vector Nat 3
  tLow : Vector Nat 3
  tShut : Vector Nat 3
  tOut : Vector Nat 3
  /-- the largest VBAT figure of the surge in progress -/
  surgePeak : Half
  /-- a core-die wake request is held for temperature (R150) -/
  thermHold : Bool
  /-- VBAK_LOW has been written in this start (R151) -/
  vbakLowSaid : Bool
  deriving DecidableEq, Repr

/-- State of the log read window (11 Table LOG-8). -/
inductive WinState where
  | ended | fetching | valid | err
  deriving DecidableEq, Repr

/-- The event log (11). -/
structure LogSt where
  /-- entries offered to the staging port, oldest first -/
  offered : List Entry
  /-- for each offered entry: its WINTER cycle, its port's place in it (WIN, WNT, SWS), its place in its source's arbiter
  (11 R296, 02 R52) -/
  ports : List (Nat × Nat × Nat)
  staged : List Entry
  lost : Word
  wptr : Nat
  full : Bool
  flushErr : Bool
  /-- the running flush: how many of the staged entries it takes -/
  flush : Option Nat
  /-- a trigger arrived while a flush ran (R298) -/
  again : Bool
  /-- the failed attempt of the running flush has been retried (R311) -/
  retried : Bool
  /-- lines below this index are written or erased: the end of the erased reserve (R300) -/
  reserve : Nat
  clearing : Bool
  /-- a clear waits for the running flush (R309) -/
  clearWait : Bool
  cursor : BitVec 20
  win : WinState
  words : List Word
  crcBad : Bool
  inStage : Bool
  deriving DecidableEq, Repr

/-- A chain record of the image (03 Table IMG-7). -/
structure ChainCfg where
  cicDec : Nat
  shift0 : Nat
  hbCount : Nat
  hbShift1 : Nat
  hbShift2 : Nat
  taps : Nat
  firDec : Nat
  finalShift : Nat
  coef : List Word
  deriving DecidableEq, Repr

/-- A threshold unit record (03 Table IMG-9). -/
structure TuCfg where
  chain : Fin 16
  abs : Bool
  below : Bool
  en : Bool
  deriving DecidableEq, Repr

/-- An integrator record. -/
structure IntegCfg where
  chain : Fin 16
  en : Bool
  deriving DecidableEq, Repr

/-- A timer record: signals, mode (0 on-delay, 1 off-delay, 2 pulse). -/
structure TimerCfg where
  start : BitVec 10
  reset : BitVec 10
  mode : BitVec 2
  en : Bool
  deriving DecidableEq, Repr

/-- A logic cell record: inputs, truth table, mode (0 clockless, 1 on the tick, 2 set-reset latch, 3 unused). -/
structure CellCfg where
  in0 : BitVec 10
  in1 : BitVec 10
  in2 : BitVec 10
  in3 : BitVec 10
  lut : Half
  mode : BitVec 2
  deriving DecidableEq, Repr

/-- A trip record. -/
structure TripCfg where
  trip : BitVec 10
  latch : Bool
  safeHigh : Bool
  en : Bool
  close : BitVec 10
  reset : BitVec 10
  deriving DecidableEq, Repr

/-- A contactor driver record. -/
structure KdrvCfg where
  on : BitVec 10
  en : Bool
  deriving DecidableEq, Repr

/-- The fabric netlist of the image (03 Table IMG-9). -/
structure FabCfg where
  prech : BitVec 10
  tu : Vector TuCfg 64
  integ : Vector IntegCfg 12
  timer : Vector TimerCfg 32
  cell : Vector CellCfg 256
  trip : Vector TripCfg 12
  kdrv : Vector KdrvCfg 4
  deriving DecidableEq, Repr

/-- The RECORDER section (03 Table IMG-10). -/
structure RecCfg where
  nslot : Nat
  rate : Nat
  prePct : Nat
  post : Nat
  ch : List Nat
  deriving DecidableEq, Repr

/-- An exit of a sequencer state. -/
structure ExitCfg where
  target : Fin 8
  en : Bool
  src : BitVec 3
  index : BitVec 10
  invert : Bool
  deriving DecidableEq, Repr

/-- A sequencer state. -/
structure SeqStateCfg where
  exits : Vector ExitCfg 4
  minDwell : Nat
  maxDwell : Nat
  fallback : Fin 8
  count : Nat
  trigger : Bool
  deriving DecidableEq, Repr

/-- A sequencer of the BRAMBLE section. -/
structure SeqCfg where
  en : Bool
  initial : Fin 8
  /-- filter thresholds: chain, direction (true below), level -/
  thr : Vector (Fin 16 × Bool × Word) 4
  states : Vector SeqStateCfg 8
  deriving DecidableEq, Repr

/-- A ring record: role (0 unused, 1 message, 2 feed), spill area, flag link. -/
structure RingCfg where
  role : Nat
  spill : Nat
  words : Nat
  thread : Fin 64
  bit : Fin 32
  flagEn : Bool
  deriving DecidableEq, Repr

/-- A thread slot default. -/
structure ThreadCfg where
  prio : BitVec 4
  state : BitVec 2
  all : Bool
  mask : Word
  deriving DecidableEq, Repr

/-- A DATA area (03 Table IMG-11); limit 0 is unused. -/
structure DataArea where
  base : Nat
  limit : Nat
  key : Nat
  deriving DecidableEq, Repr

/-- A range region 1 to 3 of KEYPOL; all four words 0 is unused. -/
structure Region where
  base : Nat
  limit : Nat
  tag : Nat
  ctr : Nat
  deriving DecidableEq, Repr

/-- MEMMAP and KEYPOL. -/
structure MemCfg where
  cs0 : Nat
  cs1 : Nat
  logBase : Nat
  logLimit : Nat
  entries : Nat
  recBase : Nat
  recLimit : Nat
  data : Vector DataArea 8
  halt : BitVec 4
  tagEn : BitVec 8
  region : Vector Region 3
  deriving DecidableEq, Repr

/-- The SCANPROG section but for its code and data bytes, which are in ITCM and DTCM. -/
structure ScanCfg where
  period : BitVec 2
  wcet : Nat
  entry : Word
  codeLen : Nat
  codeCrc : Word
  kernel : Word
  deriving DecidableEq, Repr

/-- A demand and tariff schedule: 98 words as UMU_SCHED_DATA addresses them (03 Table IMG-11, 17). -/
abbrev Schedule := List Word

/-- The UMU section. -/
structure UmuCfg where
  group : Vector Half 4
  demandMin : Nat
  sched : Schedule
  deriving DecidableEq, Repr

/-- The loaded image: the structure of the part from cold start step 6 on (03 R70), and the copy that a warm start
takes its image entries from (00 R23). -/
structure Image where
  slot : Bool
  seq : Word
  build : List Byte
  hash : List Byte
  pwren : Byte
  periphHalf : Bool
  afe : Vector Word 16
  cmp : Vector Word 8
  chain : Vector ChainCfg 16
  fab : FabCfg
  defGroup : Fin 4
  settings : Vector (List Word) 4
  recd : Option RecCfg
  brm : Vector SeqCfg 4
  rings : Vector RingCfg 64
  threads : Vector ThreadCfg 64
  mem : MemCfg
  scan : ScanCfg
  harvest : List Byte
  umu : Option UmuCfg
  /-- PROOF.REC_DEAD_US and REC_DRAIN_RATE, carried unchecked -/
  recDrain : Word
  recDead : Word
  deriving DecidableEq, Repr

/-- State of image staging (03 Table IMG-19). -/
inductive StageState where
  | closed | opened | checking | checked
  deriving DecidableEq, Repr

/-- The boot ROM's state (03). -/
structure CfgSt where
  img : Option Image
  refuseA : Byte
  refuseB : Byte
  fallback : Bool
  stage : StageState
  result : Byte
  denied : Bool
  /-- CLOSE waits for a running mover job (R93) -/
  closing : Bool
  /-- IMG_REFUSED entries written since the last cold start began (Table LOG-4: at most two) -/
  refusals : Nat
  deriving DecidableEq, Repr

/-- The external flash of two chip selects: bytes that differ from the erased value 0xFF. -/
structure FlashSt where
  cs0 : List Host.Cell
  cs1 : List Host.Cell
  /-- log2 of the densities found by discovery; 0 none -/
  size0 : Nat
  size1 : Nat
  ok0 : Bool
  ok1 : Bool
  /-- log2 of the density found on CS1 by the last discovery there, used or not; 0 none -/
  found1 : Nat
  discErr : Bool
  status : Byte
  deriving DecidableEq, Repr

/-- States of a vault slot (18 R529), in the order of their codes. -/
inductive SlotState where
  | empty | staged | active | revoked
  deriving DecidableEq, Repr

/-- A vault slot: state, 32 bytes, and for slots 14 and 15 the ROLE (0xF none). -/
structure VaultSlot where
  state : SlotState
  key : List Byte
  role : BitVec 4
  deriving DecidableEq, Repr

/-- A vault programming in progress (R530). -/
structure VaultOp where
  slot : Fin 16
  revoke : Bool
  role : BitVec 4
  key : List Byte
  deriving DecidableEq, Repr

/-- A mover channel (Table KEY-4): its job and what MOV_STAT shows. Addresses and length are in the registers. -/
structure MovSt where
  busy : Bool
  /-- 1 READ, 2 WRITE, 3 ERASE -/
  op : BitVec 2
  src : Word
  dst : Word
  len : Nat
  push : Bool
  ring : Fin 64
  result : BitVec 3
  erased : Bool
  abortLate : Bool
  abort : Bool
  done : Nat
  deriving DecidableEq, Repr

/-- Keys, IEU, mover and Service authentication (18). -/
structure KeySt where
  flash : FlashSt
  vault : Vector VaultSlot 16
  vop : Option VaultOp
  vres : BitVec 3
  /-- keys loaded at step 7: K0 to K3, T1 to T7 as the bytes, none where not loaded (R531) -/
  loaded : Vector (Option (List Byte)) 11
  wc : Vector Word 12
  /-- write-counter copies have been kept since Winter power-on (R521) -/
  wcKept : Bool
  rebuilt : Bool
  mov : Vector MovSt 8
  /-- Service authentication (R532) -/
  chal : List Word
  fresh : Bool
  token : List Word
  authValid : Bool
  authBusy : Bool
  authLock : Bool
  authRes : BitVec 3
  /-- DT by which M7 must follow -/
  authEnd : DWord
  /-- DT at which the lock after a failure ends -/
  lockEnd : DWord
  alarms : Word
  alarmAddr : Word
  deriving DecidableEq, Repr

/-- The analogue front end (06). -/
structure AfeSt where
  /-- AFE_CH_CTL as in force, and accepted changes that wait for their output boundary (R163) -/
  ctl : Vector Word 16
  pend : Vector (Option Word) 16
  /-- pins that count as open under continuous detection (R164) -/
  owPos : BitVec 16
  owNeg : BitVec 16
  owLatch : BitVec 16
  modrst : Vector Byte 16
  /-- the running test burst's channels (R166) -/
  burst : Option (BitVec 16)
  owOpen : BitVec 16
  owDone : Bool
  owDenied : Bool
  owAband : Bool
  /-- AFE_CMP_CTL -/
  cmpCtl : Vector Word 8
  /-- what each comparator cell switches to: bit 4m + c, c as CMP_CELL_FAIL numbers it. Their ORs are the fabric signals
  0x008 + 2m and 0x009 + 2m (R174) -/
  cells : BitVec 32
  /-- comparator cells taken out of their OR: bit 4m + c, c as CMP_CELL_FAIL numbers it (R174) -/
  cellOut : BitVec 32
  nextCell : Fin 4
  /-- SAR results with their stamps, the next slot of the fixed order, the sums of the frame in progress and the whole cycles
  it holds (R169, R170) -/
  sar : Vector (BitVec 12) 20
  sarDt : Vector DWord 20
  sarNext : Fin 20
  sum : Vector Nat 20
  cycles : Nat
  /-- the frame in progress began after step 9 (R169) -/
  calFrame : Bool
  /-- offset and gain corrections, 8 settings per channel (index 8n + RANGE + 2 GAIN) -/
  ofs : List Word
  gain : List Word
  calPass : Bool
  /-- SAR offset in codes and gain as GAIN / 2^22, in force since step 9 (R177) -/
  sarOfs : Word
  sarGain : Word
  /-- the last checked frame's reference cross-check failed on slot 13, on slot 14 (R176) -/
  refBad : BitVec 2
  deriving DecidableEq, Repr

/-- One filter chain (07). -/
structure ChainSt where
  /-- CIC integrators and comb delays, 36 bits with wrap-around (Table FLT-1) -/
  int0 : BitVec 36
  int1 : BitVec 36
  int2 : BitVec 36
  int3 : BitVec 36
  comb0 : BitVec 36
  comb1 : BitVec 36
  comb2 : BitVec 36
  comb3 : BitVec 36
  /-- decimation counters of stages 1, 4, 5, 6 -/
  cicN : Nat
  hb1N : Nat
  hb2N : Nat
  firN : Nat
  /-- delay lines, newest first -/
  hb1 : List Int
  hb2 : List Int
  fir : List Int
  /-- over-range runs (06 R160): clocks and ones of the run in progress -/
  runN : Nat
  runOnes : Nat
  /-- unsettled outputs still to come, clears, alignment, the next output unsettled by a parity error -/
  remain : Nat
  clears : Byte
  aligned : Bool
  parityNext : Bool
  /-- modulator edge of the last clear (clears of one edge are one clear, R195); a modulator reset has cleared the chain and no
  output has come since (06 R179) -/
  clearedAt : Option Nat
  modClear : Bool
  /-- outputs that step 10 still awaits (R200) -/
  prime : Nat
  /-- coefficient memory, and the CRC-32C of the CHAIN record taken at step 10 (R197) -/
  coef : List Word
  crc : Word
  /-- the last result word and its stamp; the last 33 with their stamps, newest first -/
  out : Word
  stamp : DWord
  hist : List (Word × DWord)
  /-- the last output awaits its evaluation by the fabric (02 R41) -/
  due : Bool
  /-- consecutive clear outputs (up to 64) and flagged outputs of the current OVR and SAT episodes (R656) -/
  ovrClear : Nat
  ovrCount : Nat
  satClear : Nat
  satCount : Nat
  /-- rate monitor: outputs in the window, last window bad, reported; coefficient fault reported -/
  winCount : Nat
  rateBad : Bool
  rateSaid : Bool
  coefSaid : Bool
  deriving DecidableEq, Repr

/-- One inverse-time integrator (08). -/
structure IntegSt where
  started : Bool
  operate : Bool
  /-- S or H -/
  acc : Nat
  /-- |DATA| of the last outputs evaluated, newest first, at most 64 -/
  hist : List Nat
  /-- stamp of the first output of the current not-started run -/
  fell : Option DWord
  deriving DecidableEq, Repr

/-- One fabric timer: its count and output. -/
structure TimerSt where
  cnt : Word
  out : Bool
  deriving DecidableEq, Repr

/-- The shadow fabric while it departs from the primary (R223): one element output is forced to the primary's value. Every value is
written as the primary would hold it, the complement of what the shadow holds. -/
structure ShadowSt where
  /-- signal number of the forced output -/
  force : BitVec 10
  q : BitVec 256
  m1 : BitVec 256
  timer : Vector TimerSt 32
  startPrev : BitVec 32
  trip : BitVec 12
  close : BitVec 12
  closePrev : BitVec 12
  /-- elements that differed at the last tick edge: bit n for signal n -/
  differ : BitVec 512
  deriving DecidableEq, Repr

/-- Fabric signals as they stood when a DT tick ended: signals 0x000 to 0x0FF, cells, trip and close states (R41). -/
structure FabSnap where
  dt : DWord
  low : BitVec 256
  q : BitVec 256
  trip : BitVec 12
  close : BitVec 12
  /-- active settings group; mode gate open -/
  group : Fin 4
  gate : Bool
  deriving DecidableEq, Repr

/-- The protection fabric (08). -/
structure FabSt where
  /-- settings groups of 160 words, and their baseline CRCs -/
  set : Vector (List Word) 4
  crc : Vector Word 4
  group : Fin 4
  /-- a register group request waits for a commit (R227) -/
  grpReq : Option (Fin 4)
  tu : BitVec 64
  integ : Vector IntegSt 12
  timer : Vector TimerSt 32
  /-- BST pin levels, the ticks each has been held (up to 256), the signals -/
  bstRaw : BitVec 12
  bstRun : Vector Nat 12
  bst : BitVec 12
  req : BitVec 32
  hire : Bool
  /-- logic cells' Q, and the values that MODE 1 cells take at the coming tick edge (R658) -/
  q : BitVec 256
  m1 : BitVec 256
  trip : BitVec 12
  close : BitVec 12
  /-- CLOSE_SIG, RESET_SIG, START_SIG at the previous tick -/
  closePrev : BitVec 12
  resetPrev : BitVec 12
  startPrev : BitVec 32
  /-- DT of the last rise of each trip state -/
  tripDt : Vector DWord 12
  /-- contactor drivers: on, overcurrent latch, open load, mA -/
  kdrv : BitVec 4
  kdrvOc : BitVec 4
  kdrvOpen : BitVec 4
  kdrvMa : Vector (BitVec 12) 4
  /-- the shadow fabric where it departs from the primary; none: it is the primary's complement -/
  shadow : Option ShadowSt
  /-- records whose trip-reset pulse lasts until the next tick, and those that FAB_TRIP_RST has named since the last tick
  (R215) -/
  pulse : BitVec 12
  rstReq : BitVec 12
  /-- feeders that the last rise of their trip state has opened (R230) -/
  tripOpened : BitVec 12
  /-- the FABRIC edge of the present instant has run -/
  edgeDone : Bool
  /-- signals 0x000 to 0x0FF when the cells last settled -/
  low : BitVec 256
  /-- place in the FAB event arbiter of the event that is being evaluated (02 Table TIME-5) -/
  arb : Nat
  /-- read-back (R224): outputs TRPB n at 12 + n, KDRV d at 24 + d. Levels commanded at the last tick, ticks since each began
  its last change (up to 20), consecutive ticks of mismatch, and outputs whose pin does not follow -/
  rbCmd : BitVec 28
  rbAge : Vector Nat 28
  rbRun : Vector Nat 28
  rbBad : BitVec 28
  /-- the signals at past tick ends, newest first, as far back as a recorder sample looks (R41) -/
  past : List FabSnap
  /-- FAB_SAFE_LVL, retained in the Winter domain -/
  safeLvl : BitVec 12
  safeValid : Bool
  deriving DecidableEq, Repr
/-- Phase of a scan (09 Table SCAN-7), in the order of its codes. -/
inductive ScanPhase where
  | idle | latch | execute | commit
  deriving DecidableEq, Repr

/-- A store held in scan context (09 R250): its width in bytes, address, value. -/
structure DeferredStore where
  size : Nat
  addr : Word
  value : Word
  deriving DecidableEq, Repr

/-- A commit between its issue and its completion. -/
structure CommitSt where
  /-- DT of the apply tick, CYC of the issue -/
  dt : DWord
  issue : DWord
  applied : Bool
  deriving DecidableEq, Repr

/-- The scan cycle and the harvest store (09). -/
structure ScanSt where
  run : Bool
  phase : ScanPhase
  /-- CYC and DT at the latch instant -/
  start : DWord
  latchDt : DWord
  /-- the input image sampled at the latch instant of a scan whose entry is still to come (R237, 13 R364) -/
  latch : Option (List Word)
  /-- the next scan is the first after a start -/
  first : Bool
  reexec : Bool
  /-- the previous scan did not commit; it ended by R253 -/
  missed : Bool
  ovrPrev : Bool
  /-- a discard awaits re-execution -/
  redo : Bool
  /-- discards of the last 16 scans, newest first -/
  hist : List Nat
  commit : Option CommitSt
  deferred : List DeferredStore
  deferSaid : Bool
  rangeSaid : Bool
  faultSaid : Bool
  /-- EFP and frame address of the interrupted context (R364, R365) -/
  efp : Word
  frame : Word
  /-- registers as the scan entry set them, for a re-execution: EFP, k28, PSR.PRECISE, CWP -/
  cwp : BitVec 3
  precise : Bool
  /-- banks H0, H1, owner map, dirty map -/
  h0 : List Host.Cell
  h1 : List Host.Cell
  owner : BitVec 512
  dirty : BitVec 512
  /-- CRC-32C of each line of each bank, by line; unlisted: that of a line of zeros. Parity of the owner map (R249) -/
  crc0 : List (Nat × Word)
  crc1 : List (Nat × Word)
  par : Bool
  /-- the harvest store CRC was good at the last step 12; the store has been written since Winter power-on; the hash of
  the image it belongs to -/
  good : Bool
  kept : Bool
  hash : List Byte
  deriving DecidableEq, Repr

/-- States of a recorder slot. -/
inductive SlotRec where
  | free | capture | post | sealed
  deriving DecidableEq, Repr

/-- A recorder slot (10). -/
structure RecSlot where
  st : SlotRec
  /-- samples written since the slot armed -/
  written : Nat
  /-- post-trigger samples still to come -/
  left : Nat
  recNo : Word
  flags : Byte
  seqMask : BitVec 4
  trigDt : DWord
  cause : Word
  preAct : Nat
  dead : Word
  missed : Word
  retrig : Word
  first : Nat
  /-- an uncorrectable error has been met in it (R289) -/
  ecc : Bool
  deriving DecidableEq, Repr

/-- A Bramble sequencer. -/
structure SeqSt where
  en : Bool
  q : Fin 8
  dwell : Half
  occ : Byte
  thr : BitVec 4
  /-- a parity error has stopped it (R290) -/
  stopped : Bool
  deriving DecidableEq, Repr

/-- The disturbance recorder and the Bramble sequencers (10). -/
structure RecSt where
  /-- recorder memory -/
  mem : List Host.Cell
  arm : Bool
  slot : Vector RecSlot 8
  active : Option (Fin 8)
  /-- sealed slots in seal order; the first is drained -/
  order : List (Fin 8)
  retried : Bool
  /-- counts accumulating for the next record -/
  dead : Word
  missed : Word
  /-- a slot has armed since the cold start; the recorder was disarmed; a record has been triggered since the cold
  start -/
  armedOnce : Bool
  disarmed : Bool
  recorded : Bool
  /-- next REC_NO and next cell, retained in the Winter domain; known once the cells have been scanned (R279) -/
  recNo : Word
  wptr : Nat
  known : Bool
  /-- BRM_CTL.EN as written -/
  brmCtl : BitVec 4
  seqs : Vector SeqSt 4
  swtrig : Byte
  /-- DT of the last sample -/
  sampleDt : DWord
  deriving DecidableEq, Repr
/-- Memories the scan core addresses, by offset; an unlisted byte reads 0 (01 Table ARCH-3). -/
structure MemSt where
  itcm : List Host.Cell
  dtcm : List Host.Cell
  /-- vector store -/
  vs : List Host.Cell
  /-- sentinel shared window, code RAM, data RAM -/
  shared : List Host.Cell
  scode : List Host.Cell
  sdata : List Host.Cell
  deriving DecidableEq, Repr

/-- A load in its delay (12 R325): physical register, value, bundles left. -/
structure LoadSt where
  reg : Nat
  value : Word
  left : Nat
  deriving DecidableEq, Repr

/-- Unit classes of a syllable (12 R316). -/
inductive UnitCls where
  | a | m | b
  deriving DecidableEq, Repr

/-- What a syllable does beyond writing registers: kept until its bundle ends. -/
inductive SylAct where
  | none
  /-- load of size bytes, signed; destination field -/
  | load (size : Nat) (signed : Bool) (rd : BitVec 6) (addr : Word)
  | store (size : Nat) (addr v : Word)
  | jump (target : Word)
  | call (target : Word)
  | ret
  | scall (code : BitVec 9)
  | sret
  | eret
  | mfsr (rd : BitVec 6) (sr : BitVec 9)
  | mtsr (sr : BitVec 9) (v : Word)
  | ziss (rd : BitVec 6) (p : BitVec 3) (addr : Word)
  | zwait (tag : Byte)
  | commit
  | fence
  | sync
  | idle
  | brk
  deriving DecidableEq, Repr

/-- A syllable as its command decodes it, evaluated on the registers at the start of the bundle (12 R318). -/
structure Syl where
  cls : UnitCls
  /-- words it takes: 2 with an X syllable -/
  words : Nat
  /-- its guard is true -/
  guard : Bool
  /-- its encoding is illegal (R321, R334) -/
  illegal : Bool
  /-- it carries an X syllable that it takes not, or whose bits [28:23] are not 0 (R317) -/
  badX : Bool
  /-- it names an h register -/
  hreg : Bool
  /-- register and predicate fields it writes -/
  dst : Option (BitVec 6)
  pdst : List (BitVec 3)
  /-- values for them -/
  value : Word
  pvalue : List Bool
  cycles : Nat
  /-- imprecise exception it raises: 1 DZ, 2 OV (R336) -/
  arith : Nat
  /-- its access, or its fetch, meets an uncorrectable error (R343) -/
  ue : Bool
  /-- the frame pushes of its bundle's entry that meet one (13 R360) -/
  pushUe : BitVec 2
  act : SylAct
  deriving DecidableEq, Repr

/-- The imprecise-exception record of a context (13 R368). -/
structure AexcSt where
  pc : Word
  info : Word
  deriving DecidableEq, Repr

/-- The scan core (12, 13). -/
structure CoreSt where
  /-- registers: k0 to k31 at 0, L[w] at 32 + 16w, O[w] at 40 + 16w, shadow k28 to k31 at 160 -/
  r : Vector Word 164
  /-- predicates; p0 is read as 1 -/
  p : Byte
  pc : Word
  mask : BitVec 4
  precise : Bool
  scan : Bool
  ie : Bool
  priv : Bool
  rw : BitVec 3
  cwp : BitVec 3
  xpc : Word
  xpsr : Word
  sceSp : Word
  sceEntry : Word
  xcode : BitVec 9
  cyc : DWord
  /-- DT of step 13, from which CYC counts (log entry 4) -/
  cycDt : DWord
  loads : List LoadSt
  /-- CYC at which each outstanding far store ends -/
  stores : List DWord
  /-- syllables of the open bundle, in order -/
  bundle : List Syl
  /-- the bundle whose IDLE waits (R339) -/
  idle : List Syl
  /-- interrupt request lines as the last tick left them; those that have also stood a tick before (02 R41) -/
  lines1 : BitVec 128
  lines2 : BitVec 128
  edtb : Word
  /-- a valid EDTB has been written since step 13 (R376) -/
  edtbSet : Bool
  efp : Word
  desc : Byte
  uentry : Bool
  wtrap : Bool
  df : Bool
  xnext : Word
  xaddr : Word
  xinfo : Word
  /-- kernel and scan banks -/
  aexc0 : AexcSt
  aexc1 : AexcSt
  scanSp : Word
  wsel : BitVec 3
  dfPc : Word
  dfPsr : Word
  dfPred : Word
  dfWp : Word
  /-- ICU_ACT -/
  act : BitVec 128
  locked : Bool
  /-- held by a debug halt (22); one bundle may still run: STEP -/
  halt : Bool
  step : Bool
  deriving DecidableEq, Repr

/-- A thread slot (14). -/
structure ThreadSt where
  prio : BitVec 4
  /-- 0 FREE, 1 READY, 2 WAITING, 3 RUNNING -/
  state : BitVec 2
  all : Bool
  mask : Word
  /-- scheduler tick at which the wait times out -/
  tmo : Option Nat
  flags : Word
  res : BitVec 2
  matched : Word
  deriving DecidableEq, Repr

/-- Why a switch is requested (14 R386). -/
inductive SwitchReq where
  | wait | yield | free
  deriving DecidableEq, Repr

/-- An open item of a producer port (14 R401). -/
structure OpenItem where
  len : Nat
  words : List Word
  deriving DecidableEq, Repr

/-- A torn item whose continuation words are dropped: how many, and the cause (14 R409). -/
structure TornItem where
  dropped : Word
  cause : Word
  deriving DecidableEq, Repr

/-- A ring (14). -/
structure RingSt where
  /-- words on chip, oldest first; word counts of the existing items -/
  chip : List Word
  lens : List Nat
  /-- spill circle in DTCM: first word and number of words -/
  head : Nat
  cnt : Nat
  opened : Vector (Option OpenItem) 5
  torn : Vector (Option TornItem) 5
  ien : Bool
  flagEn : Bool
  /-- RING_ITEM words -/
  item : List Word
  stat : BitVec 5
  refused : Half
  dropped : Half
  deriving DecidableEq, Repr

/-- Thread scheduler and rings (14). -/
structure SchSt where
  en : Bool
  thread : Vector ThreadSt 64
  run : Option (Fin 64)
  /-- the selected slot, and whether the next slot holds it, with its context words 0 to 167 -/
  sel : Option (Fin 64)
  valid : Bool
  ctx : List Word
  /-- write-back in progress -/
  wb : Option (Fin 64)
  wbCtx : List Word
  req : Option SwitchReq
  /-- scheduler tick (DT / 100) of step 13 -/
  tick0 : Nat
  ringEvt : DWord
  ring : Vector RingSt 64
  deriving DecidableEq, Repr
/-- A queued Zinik descriptor (15 R419) with its tag and the address of its ZISS bundle. -/
structure ZLink where
  w0 : Word
  w1 : Word
  w2 : Word
  w3 : Word
  tag : Byte
  pc : Word
  deriving DecidableEq, Repr

/-- A chain: its links in order, whether its last link is queued, its issue context. -/
structure ZChain where
  links : List ZLink
  closed : Bool
  scan : Bool
  precise : Bool
  slot : Option (Fin 64)
  /-- it has been suspended (R429) -/
  susp : Bool
  deriving DecidableEq, Repr

/-- The running chain: links executed, forwarded elements (real and imaginary parts); for each link executed its elements that raised
flags, with them (bits as ZVE_FPX); whether it runs again after a lane fault, is being aborted, and has had its LANE_FAULT
written; the DT from which it runs, or runs again (R440). -/
structure ZRun where
  chain : ZChain
  done : Nat
  fwd : List (Word × Word)
  exc : List (List (Nat × BitVec 6))
  replayed : Bool
  abort : Bool
  said : Bool
  start : DWord
  deriving DecidableEq, Repr

/-- A completion flag on its way to CORE (02 Table TIME-3): its tag, the DT of its arrival, and the thread flags it sets. -/
structure ZNote where
  tag : Byte
  due : DWord
  slot : Option (Fin 64)
  bits : Word
  deriving DecidableEq, Repr

/-- Zinik (15). -/
structure ZveSt where
  /-- queued chains: scan and other chains in issue order, an open chain last of its context -/
  queue : List ZChain
  run : Option ZRun
  tag : Byte
  /-- state of each physical lane: 0 ACTIVE, 1 SHADOW, 2 SPARE, 3 RETIRED; physical lane of each logical lane -/
  lane : Vector (BitVec 2) 18
  map : Vector (Fin 18) 16
  step : Nat
  /-- lanes the Winter domain retains as retired -/
  retired : BitVec 18
  /-- a lane fault has occurred in the current scan context (R441) -/
  scanFault : Bool
  busy : DWord
  /-- completion flags that have not reached CORE -/
  notes : List ZNote
  deriving DecidableEq, Repr
/-- States of the sentinel (16 R448). -/
inductive SntMode where
  | asleep | awake | halted
  deriving DecidableEq, Repr

/-- A sentinel UART (R466, R467). -/
structure SntUart where
  tx : List Byte
  rx : List Byte
  /-- RXOVR, FERR, PERR -/
  flags : BitVec 3
  /-- owned by the core die -/
  core : Bool
  /-- the sentinel has granted it to the core die (R467) -/
  grant : Bool
  deriving DecidableEq, Repr

/-- A tamper loop (R462): broken, kind, consecutive checks that contradict the state, RTCT of the break. -/
structure TampSt where
  broken : Bool
  kind : BitVec 2
  run : Nat
  since : DWord
  deriving DecidableEq, Repr

/-- A seal operation in progress: SEAL or OPEN, and the result that stops it, if any (R473 to R477). -/
structure SealOp where
  isOpen : Bool
  stop : Option (BitVec 4)
  deriving DecidableEq, Repr

/-- The sentinel and the Winter blocks it drives (16). -/
structure WntSt where
  st : SntMode
  b : Vector Byte 8
  pc : Half
  sp : Half
  /-- [0] C, [1] Z, [2] N, [3] V, [4] I -/
  flags : BitVec 5
  /-- the boot ROM check of a sentinel reset is to come (R479) -/
  boot : Bool
  /-- WFI waits -/
  wfi : Bool
  /-- SLEEP waits for a busy block (R456) -/
  sleep : Bool
  /-- I/O bytes that hold what was written, by address -/
  io : List Host.Cell
  ip : Half
  rstCause : BitVec 3
  /-- RTCT of the last four faults, newest first (R484) -/
  faults : List DWord
  codeLen : Nat
  codeCrc : Word
  hash : List Byte
  winValid : Bool
  winErr : Bool
  tdeny : Bool
  calOk : Bool
  timeofs : BitVec 48
  loc : Byte
  alarm : BitVec 48
  fired : Bool
  /-- wake timer: remaining count, written value -/
  wtCnt : Word
  wtVal : Word
  rtctLatch : DWord
  calLatch : List Byte
  /-- debounced WAKE levels; RTCT of the WAKE entries of the last second per pin, newest first -/
  wake : BitVec 4
  wakeSaid : Vector (List DWord) 4
  loops : Vector TampSt 2
  /-- the LFSR of each tamper loop (R462) -/
  lfsr : Vector Half 2
  /-- levels driven from outside on GPIO8 to GPIO11 -/
  gin : BitVec 4
  spwBusy : Bool
  spwOvr : Bool
  spwData : Byte
  /-- the byte that SPIW sends -/
  spwTx : Byte
  uart : Vector SntUart 2
  infull : Bool
  mbin : List Word
  /-- OUTSTAT: BUSY, DONE, REFUSED, NOCORE -/
  out : BitVec 4
  sealKey : Option (List Byte)
  sealing : Option SealOp
  sealRes : BitVec 4
  auth : Bool
  sealLock : Bool
  seqOut : DWord
  seqIn : DWord
  logStat : BitVec 2
  deriving DecidableEq, Repr

/-- An hour meter (17 R488, R489). -/
structure MeterSt where
  sec : Word
  ticks : BitVec 15
  sel : BitVec 3
  pin : BitVec 2
  inv : Bool
  sig : BitVec 10
  /-- consecutive RTC ticks at which SIG was 1 (SEL 2) -/
  qual : Nat
  /-- seconds latched by a read of byte 0 -/
  latch : Word
  deriving DecidableEq, Repr

/-- A preset that waits for the next RTC tick: meter, value, written by the core die (R490). -/
structure PresetReq where
  meter : Fin 4
  value : Word
  core : Bool
  deriving DecidableEq, Repr

/-- Hour meters, hire permit, IMMOB and theft inputs (17). -/
structure UseSt where
  meter : Vector MeterSt 4
  presets : List PresetReq
  hmctl : BitVec 4
  lost : Bool
  en : Bool
  hold : Bool
  start : BitVec 48
  till : BitVec 48
  permit : Bool
  /-- an evaluation is due, with the reason of HIRE (none: TIMEOFS was written) -/
  due : Option (Option (BitVec 3))
  immobCtl : BitVec 3
  immob : Bool
  thStat : Byte
  thCnt : Vector Byte 8
  uevt : BitVec 6
  cut : Bool
  cutAt : DWord
  deriving DecidableEq, Repr

/-- A commit held in the UMU sorter: its stamp and POWER[0] to POWER[11]; or a billing close: its stamp, and the RTCT at its write
(R494, R496). -/
inductive UmuIn where
  | commit (c : DWord) (power : List Word)
  | bill (b : DWord) (rtct : DWord)
  deriving DecidableEq, Repr

/-- A boundary that awaits the UMU (17 R496): its RTCT, and the UTC and local seconds at it. -/
structure UmuBound where
  rtct : DWord
  utc : Int
  sec : Int
  deriving DecidableEq, Repr

/-- What the UMU accumulates (17 R491 to R498). ACC[g][t] is element 8g + t. -/
structure UmuData where
  acc : Vector DWord 32
  res : Vector Int 4
  eint : DWord
  /-- UTC[31:0] of the interval start -/
  start : Word
  md : Vector (Option (Word × Word)) 8
  mdp : Vector (Option (Word × Word)) 8
  bill : Half
  sched : Schedule
  hash : List Byte
  deriving DecidableEq, Repr

/-- A checkpoint copy (R498). Its CRC fails when COLD_START says so. -/
structure Checkpoint where
  seq : Word
  clean : Bool
  data : UmuData
  deriving DecidableEq, Repr

/-- The UMU (17). -/
structure UmuSt where
  /-- step 13 has restored it; the interval is open; it is PARTIAL -/
  live : Bool
  opened : Bool
  part : Bool
  data : UmuData
  tariff : Fin 8
  staged : Schedule
  /-- an APPLY awaits its boundary: the earliest stamp, the copy -/
  pend : Option (DWord × Schedule)
  held : List UmuIn
  bounds : List UmuBound
  /-- the input processed last was a boundary that closed the interval -/
  closed : Bool
  stale : Bool
  lost : Bool
  ck0 : Option Checkpoint
  ck1 : Option Checkpoint
  ckNext : Bool
  ckSeq : Word
  /-- its state has met an uncorrectable error: no further checkpoint is written (R509) -/
  ue : Bool
  deriving DecidableEq, Repr
/-- A noise source (19 R540 to R542): state 0 STARTUP, 1 HEALTHY, 2 ISOLATED; failing test, failures; the two tests'
counters; samples passed in STARTUP; whether SRC_HEALTHY is to be written, and as after a retest. -/
structure EsuSrc where
  st : BitVec 2
  test : BitVec 2
  fails : Byte
  last : Bool
  rep : Nat
  first : Bool
  winN : Nat
  same : Nat
  passed : Nat
  say : Bool
  retest : Bool
  deriving DecidableEq, Repr

/-- A completed block in its hold (R543): conditioned output, contributing sources, instants held. -/
structure EsuBlock where
  out : List Byte
  mask : BitVec 5
  age : Nat
  deriving DecidableEq, Repr

/-- The entropy source unit (19). -/
structure EsuSt where
  src : Vector EsuSrc 5
  condRun : Bool
  katSha : Bool
  katDrbg : Bool
  /-- bits of the block being gathered, in order, and the sources they came from -/
  bits : List Bool
  mask : BitVec 5
  held : List EsuBlock
  /-- released blocks as words; the first may be partly read -/
  fifo : List (List Word)
  drbgRun : Bool
  key : List Byte
  v : List Byte
  gens : Nat
  seedDt : DWord
  /-- a reseed is due since -/
  due : Option DWord
  /-- blocks the DRBG has taken for its next seed -/
  seed : List (List Byte)
  reseeds : Half
  dfifo : List Word
  /-- a Service, a debug challenge waits for a block -/
  wantSec : Bool
  wantDbg : Bool
  /-- DT of the last sample instant -/
  last : Option DWord
  deriving DecidableEq, Repr

/-- A CAN controller (21): STATE (0 active, 1 passive, 2 bus-off, 3 INIT), counters, buffer bits; buffers and settings are
in the registers. -/
structure CanSt where
  st : BitVec 2
  lec : BitVec 3
  tec : Nat
  recv : Nat
  lost : Half
  rxpend : DWord
  txreq : DWord
  txabort : DWord
  txdone : DWord
  /-- software asked for the recovery from bus-off -/
  recSw : Bool
  deriving DecidableEq, Repr

/-- A core-die UART: FIFOs (a received byte with FERR, PERR, BREAK). -/
structure UartSt where
  tx : List Byte
  rx : List (Byte × BitVec 3)
  lost : Half
  deriving DecidableEq, Repr

/-- An SPI master. -/
structure SpiSt where
  tx : List Word
  rx : List Word
  deriving DecidableEq, Repr

/-- An I2C controller: commands (OP, DATA), received bytes, bus held, NACK, ARB_LOST, STUCK. -/
structure I2cSt where
  cmd : List (BitVec 3 × Byte)
  rx : List Byte
  busy : Bool
  nack : Bool
  arb : Bool
  stuck : Bool
  deriving DecidableEq, Repr

/-- The external interfaces (21). -/
structure IfcSt where
  can : Vector CanSt 2
  uart : Vector UartSt 4
  spi : Vector SpiSt 2
  i2c : Vector I2cSt 2
  /-- levels driven from outside on GPIO0 to GPIO7 -/
  gin : Byte
  /-- UART3_CTS_N is high -/
  cts3 : Bool
  deriving DecidableEq, Repr

/-- Instructions of the TAP (22 Table TEST-1). -/
inductive TapIr where
  | extest | idcode | sample | clamp | highz | dbgacc | bypass
  deriving DecidableEq, Repr

/-- Test, debug and returns (22). -/
structure DbgSt where
  /-- 0 OPEN, 1 LOCKED, 2 SEALED, 3 RETURNED -/
  lock : BitVec 2
  ir : TapIr
  bsref : Bool
  /-- DT of the last EXTEST, CLAMP or HIGHZ that took effect (R616) -/
  scanDt : Option DWord
  /-- the boundary register's update stage -/
  cells : BitVec 123
  /-- last debug access: ADDR, data, status -/
  addr : Word
  data : Word
  status : BitVec 2
  chal : List Word
  fresh : Bool
  token : List Word
  authBusy : Bool
  authLock : Bool
  authRes : BitVec 3
  unlocked : Bool
  /-- DT at which UNLOCKED ends -/
  unlockEnd : DWord
  /-- DT at which the lock after a failure ends -/
  lockEnd : DWord
  deriving DecidableEq, Repr
/-- The safety monitor, watchdog and scrubber (20). -/
structure SafSt where
  /-- alarms raised and not yet acted on, oldest first: number of Table SAF-2, channel or comparator -/
  raised : List (Nat × Nat)
  monOk : Bool
  /-- DT of the FLT_PARITY errors of each chain within the last second, newest first (Table SAF-2) -/
  parity : Vector (List DWord) 16
  /-- degraded-operation timer: DT of its start and its length in hours (R560) -/
  deg : Option (DWord × Nat)
  /-- watchdog: held, DT of the last restart of E, in the first window, next KEY is 0xA55A -/
  held : Bool
  /-- DT since which a debug halt holds it (R566) -/
  pause : Option DWord
  kickDt : DWord
  first : Bool
  next : Bool
  good : Byte
  viol : Byte
  last : BitVec 3
  lock : Bool
  cfgOpen : Byte
  cfgClosed : Byte
  /-- injected faults in force: bit t for TARGET t (R567) -/
  inj : BitVec 7
  ecc0 : Half
  ecc1 : Half
  ecc2 : Half
  ecc3 : Half
  deriving DecidableEq, Repr

/-- The state of the part. -/
structure State where
  /-- the commands that wait, first in, first out -/
  pending : List Instr
  /-- which part (00 R3) -/
  part : Part
  /-- how many free values have been taken (the model's own field) -/
  freeCtr : Nat
  /-- the answer to the last access (the model's own field) -/
  resp : Resp
  /-- stored register words by offset from the view base; unlisted reads 0 -/
  regs : List (Nat × Word)
  /-- latched high words of 64-bit pairs (00 R16) -/
  latches : List Latch
  /-- staged low words of writable pairs (00 R17), by offset of the low word -/
  lows : List (Nat × Word)
  /-- DT at which a rate-limited entry was last offered, by code * 256 + index -/
  said : List (Nat × DWord)
  time : TimeSt
  mode : ModeSt
  pwr : PwrSt
  log : LogSt
  cfg : CfgSt
  key : KeySt
  afe : AfeSt
  chain : Vector ChainSt 16
  fab : FabSt
  scan : ScanSt
  recd : RecSt
  mem : MemSt
  core : CoreSt
  sch : SchSt
  zve : ZveSt
  /-- the unique identifier in the trim memory -/
  uid : BitVec 64
  wnt : WntSt
  use : UseSt
  umu : UmuSt
  esu : EsuSt
  ifc : IfcSt
  dbg : DbgSt
  saf : SafSt
  deriving DecidableEq, Repr

/-- Time after Winter power-on: TIME stopped, RTCT 0 until the first crystal edge (24 R650). -/
def TimeSt.reset : TimeSt :=
  { run := false, dt := 0, rtct := 0, phase := 0, syncRtc := 0, syncDt := 0, synced := false, edgeDt := none, coarse := false,
    coarseAt := 0,
    rcFallback := false, xrtcSeen := false, clkOk := 0, clkOver := 0, pwr := 0x80 }

/-- Mode after Winter power-on: Dormant with a core-die wake request pending (04 M1). -/
def ModeSt.reset : ModeSt :=
  { mode := .dormant, prev := .dormant, startId := 0, starting := false, coreOn := false, wake := true, rstStart := false, seq := 0,
    failed := 0, result := 0, m5 := false, m9 := none, warmReq := none, wcount := 0, harv := 0, cal := false,
    wcause := 0, clsWarm := false, kindWarm := false, startDt := 0, startTime := 0, run := none, startUs := 0, startMark := 0,
      warmDts := [], calDt := 0,
    calTjf := 0, safePend := [], safePri := 0, safeMask := 0, safeDt := 0, window := false, pf := false,
    done := 0, past8 := false, past10 := false, past11 := false, past13 := false, past7 := false }

/-- Supply state after Winter power-on: the rails are down and VBAT is not yet valid. -/
def PwrSt.reset : PwrSt :=
  { winter := true, vbatValid := false, surge := false, surgeDt := 0, bakSrc := false, vbakOk := false,
    chgActive := false, chgDone := false, rails := 0, twarn := 0, vbatMv := 0, vbakMv := 0, tjf := 0, tjc0 := 0,
    tjc1 := 0, lastFlush := 0, pfCount := 0, tjfOk := 0, tHigh := Vector.replicate 3 0, tLow := Vector.replicate 3 0,
    tShut := Vector.replicate 3 0, tOut := Vector.replicate 3 0, surgePeak := 0, thermHold := false, vbakLowSaid := false }

/-- The log after Winter power-on: CORE_WAKE and WINTER_ON offered, nothing staged, write point and lost count 0 (11 R313,
16 R463, 17 R509). -/
def LogSt.reset : LogSt :=
  { offered := [
      { code := 0x710B, source := 0x71, td := true, coarse := false, pf := false, hw := true, stamp := 0, p0 := 0x200,
        p1 := 0, p2 := 0, p3 := 0 },
      { code := 0x7148, source := 0x71, td := true, coarse := false, pf := false, hw := true, stamp := 0, p0 := 0,
        p1 := 0, p2 := 0, p3 := 0 }], ports := [(1, 1, 9), (1, 1, 9)], staged := [], lost := 0, wptr := 0, full := false,
          flushErr := false, flush := none, again := false,
    retried := false, reserve := 0, clearing := false, clearWait := false, cursor := 0, win := .ended,
    words := List.replicate 8 0, crcBad := false, inStage := false }

/-- No image loaded, staging closed. -/
def CfgSt.reset : CfgSt :=
  { img := none, refuseA := 0, refuseB := 0, fallback := false, stage := .closed, result := 0, denied := false,
    closing := false, refusals := 0 }

/-- An idle mover channel. -/
def MovSt.reset : MovSt :=
  { busy := false, op := 0, src := 0, dst := 0, len := 0, push := false, ring := 0, result := 0, erased := false,
    abortLate := false, abort := false, done := 0 }

/-- A new part: erased flash, empty vault, no key loaded (log entry 6). -/
def KeySt.reset : KeySt :=
  { flash := { cs0 := [], cs1 := [], size0 := 0, size1 := 0, ok0 := false, ok1 := false, found1 := 0, discErr := false,
               status := 0 },
    vault := Vector.replicate 16 { state := .empty, key := List.replicate 32 0, role := 0xF }, vop := none, vres := 0,
    loaded := Vector.replicate 11 none, wc := Vector.replicate 12 0, wcKept := false, rebuilt := false,
    mov := Vector.replicate 8 MovSt.reset, chal := List.replicate 8 0, fresh := false, token := List.replicate 33 0,
    authValid := false, authBusy := false, authLock := false, authRes := 0, authEnd := 0, lockEnd := 0, alarms := 0,
    alarmAddr := 0 }


/-- The front end without power. -/
def AfeSt.reset : AfeSt :=
  { ctl := Vector.replicate 16 0, pend := Vector.replicate 16 none, owPos := 0, owNeg := 0, owLatch := 0,
    modrst := Vector.replicate 16 0, burst := none, owOpen := 0, owDone := false, owDenied := false, owAband := false,
    cmpCtl := Vector.replicate 8 0, cells := 0, cellOut := 0, nextCell := 0, sar := Vector.replicate 20 0,
    sarDt := Vector.replicate 20 0, sarNext := 0, sum := Vector.replicate 20 0, cycles := 0, calFrame := false, ofs := [],
    gain := [], sarOfs := 0, sarGain := 0x400000, calPass := false, refBad := 0 }

/-- A cleared chain (07: every integrator, comb, delay line and counter zero), its counts as before step 10. -/
def ChainSt.reset : ChainSt :=
  { int0 := 0, int1 := 0, int2 := 0, int3 := 0, comb0 := 0, comb1 := 0, comb2 := 0, comb3 := 0, cicN := 0, hb1N := 0,
    hb2N := 0, firN := 0, hb1 := [], hb2 := [], fir := [], runN := 0, runOnes := 0, remain := 0, clears := 0,
    aligned := false, parityNext := false, clearedAt := none, modClear := false, prime := 0, coef := [], crc := 0, out := 0,
      stamp := 0, hist := [], due := false, ovrClear := 64, ovrCount := 0, satClear := 64,
    satCount := 0, winCount := 0, rateBad := false, rateSaid := false, coefSaid := false }

/-- An integrator at fabric configuration. -/
def IntegSt.reset : IntegSt := { started := false, operate := false, acc := 0, hist := [], fell := none }

/-- A timer at fabric configuration. -/
def TimerSt.reset : TimerSt := { cnt := 0, out := false }

/-- The fabric without power; FAB_SAFE_LVL not valid (08 R219). -/
def FabSt.reset : FabSt :=
  { set := Vector.replicate 4 [], crc := Vector.replicate 4 0, group := 0, grpReq := none, tu := 0,
    integ := Vector.replicate 12 IntegSt.reset, timer := Vector.replicate 32 TimerSt.reset, bstRaw := 0,
    bstRun := Vector.replicate 12 0, bst := 0, req := 0, hire := false, q := 0, m1 := 0, trip := 0, close := 0,
    closePrev := 0, resetPrev := 0, startPrev := 0, tripDt := Vector.replicate 12 0, kdrv := 0, kdrvOc := 0,
    kdrvOpen := 0, kdrvMa := Vector.replicate 4 0, shadow := none, pulse := 0, rstReq := 0, tripOpened := 0, edgeDone := false,
      low := 0, arb := 0,
    rbCmd := 0, rbAge := Vector.replicate 28 20, rbRun := Vector.replicate 28 0, rbBad := 0, past := [], safeLvl := 0,
      safeValid := false }

/-- No scan runs; the harvest store is not valid after Winter power-on. -/
def ScanSt.reset : ScanSt :=
  { run := false, phase := .idle, start := 0, latchDt := 0, latch := none, first := true, reexec := false, missed := false,
    ovrPrev := false,
    redo := false, hist := [], commit := none, deferred := [], deferSaid := false, rangeSaid := false, faultSaid := false, efp := 0,
    frame := 0, cwp := 0, precise := false, h0 := [], h1 := [], owner := 0, dirty := 0, crc0 := [], crc1 := [], par := false,
      good := false, kept := false,
    hash := List.replicate 32 0 }

/-- A free recorder slot. -/
def RecSlot.reset : RecSlot :=
  { st := .free, written := 0, left := 0, recNo := 0, flags := 0, seqMask := 0, trigDt := 0, cause := 0, preAct := 0,
    dead := 0, missed := 0, retrig := 0, first := 0, ecc := false }

/-- A sequencer that no image has enabled. -/
def SeqSt.reset : SeqSt := { en := false, q := 0, dwell := 0, occ := 0, thr := 0, stopped := false }

/-- All slots free; the write pointer not known (10 R279). -/
def RecSt.reset : RecSt :=
  { mem := [], arm := false, slot := Vector.replicate 8 RecSlot.reset, active := none, order := [], retried := false,
    dead := 0, missed := 0, armedOnce := false, disarmed := false, recorded := false, recNo := 1, wptr := 0,
    known := false, brmCtl := 0, seqs := Vector.replicate 4 SeqSt.reset, swtrig := 0, sampleDt := 0 }

/-- Memories before any image is loaded. -/
def MemSt.reset : MemSt := { itcm := [], dtcm := [], vs := [], shared := [], scode := [], sdata := [] }

/-- The scan core as step 13 begins it (12 R346, 13 R377), KERNEL_ENTRY apart. -/
def CoreSt.reset : CoreSt :=
  { r := Vector.replicate 164 0, p := 0, pc := 0, mask := 0, precise := false, scan := false, ie := false,
    priv := true, rw := 7, cwp := 0, xpc := 0, xpsr := 0, sceSp := 0, sceEntry := 0, xcode := 0, cyc := 0, cycDt := 0, loads := [],
    stores := [], bundle := [], idle := [], lines1 := 0, lines2 := 0, edtb := 0, edtbSet := false, efp := 0, desc := 0,
      uentry := false, wtrap := false, df := false,
    xnext := 0, xaddr := 0, xinfo := 0, aexc0 := ⟨0, 0⟩, aexc1 := ⟨0, 0⟩, scanSp := 0, wsel := 0, dfPc := 0,
    dfPsr := 0, dfPred := 0, dfWp := 0, act := 0, locked := false, halt := false, step := false }

/-- A free thread slot. -/
def ThreadSt.reset : ThreadSt :=
  { prio := 0, state := 0, all := false, mask := 0, tmo := none, flags := 0, res := 0, matched := 0 }

/-- An empty ring. -/
def RingSt.reset : RingSt :=
  { chip := [], lens := [], head := 0, cnt := 0, opened := Vector.replicate 5 none, torn := Vector.replicate 5 none,
    ien := false, flagEn := false, item := List.replicate 7 0, stat := 0, refused := 0, dropped := 0 }

/-- The scheduler with every slot free and every ring empty. -/
def SchSt.reset : SchSt :=
  { en := false, thread := Vector.replicate 64 ThreadSt.reset, run := none, sel := none, valid := false, ctx := [],
    wb := none, wbCtx := [], req := none, tick0 := 0, ringEvt := 0, ring := Vector.replicate 64 RingSt.reset }

/-- Zinik without power; lanes as step 5 assigns them on a part with no retired lane. -/
def ZveSt.reset : ZveSt :=
  { queue := [], run := none, tag := 0,
    lane := Vector.ofFn (fun p => if p.val < 16 then 0 else if p.val = 16 then 1 else 2),
    map := Vector.ofFn (fun l => ⟨l.val, Nat.lt_trans l.isLt (by decide)⟩), step := 0, retired := 0,
    scanFault := false, busy := 0, notes := [] }

/-- The Winter blocks after a Winter power-on (16 R485): the sentinel HALTED, every I/O register at its Power-on entry. -/
def WntSt.reset : WntSt :=
  { st := .halted, b := Vector.replicate 8 0, pc := 0, sp := 0, flags := 0, boot := false, wfi := false, sleep := false,
    io := [(0xF074, 1), (0xF07C, 1)], ip := 0, rstCause := 0, faults := [], codeLen := 0, codeCrc := 0,
    hash := List.replicate 32 0, winValid := false, winErr := false, tdeny := false, calOk := false, timeofs := 0,
    loc := 0, alarm := 0, fired := false, wtCnt := 0, wtVal := 0, rtctLatch := 0, calLatch := List.replicate 7 0,
    wake := 0, wakeSaid := Vector.replicate 4 [],
    loops := Vector.replicate 2 { broken := false, kind := 0, run := 0, since := 0 }, lfsr := Vector.replicate 2 0, gin := 0,
    spwBusy := false, spwOvr := false, spwData := 0, spwTx := 0,
    uart := Vector.replicate 2 { tx := [], rx := [], flags := 0, core := false, grant := false }, infull := false,
    mbin := List.replicate 8 0, out := 0, sealKey := none, sealing := none, sealRes := 0, auth := false, sealLock := false,
    seqOut := 0, seqIn := 0, logStat := 0 }

/-- Usage after a Winter power-on (17 R509): all 0, permit 0, LOST set. -/
def UseSt.reset : UseSt :=
  { meter := Vector.replicate 4 { sec := 0, ticks := 0, sel := 0, pin := 0, inv := false, sig := 0, qual := 0, latch := 0 },
    presets := [], hmctl := 0, lost := true, en := false, hold := false, start := 0, till := 0, permit := false,
    due := none, immobCtl := 0, immob := false, thStat := 0, thCnt := Vector.replicate 8 0, uevt := 0, cut := false,
    cutAt := 0 }

/-- An empty UMU with an empty schedule. -/
def UmuData.reset : UmuData :=
  { acc := Vector.replicate 32 0, res := Vector.replicate 4 0, eint := 0, start := 0, md := Vector.replicate 8 none,
    mdp := Vector.replicate 8 none, bill := 0, sched := List.replicate 98 0, hash := List.replicate 32 0 }

/-- The UMU without power, no checkpoint written since Winter power-on. -/
def UmuSt.reset : UmuSt :=
  { live := false, opened := false, part := false, data := UmuData.reset, tariff := 0, staged := List.replicate 98 0,
    pend := none, held := [], bounds := [], closed := false, stale := false, lost := false, ck0 := none, ck1 := none,
    ckNext := false, ckSeq := 0, ue := false }

/-- A source in STARTUP. -/
def EsuSrc.reset : EsuSrc :=
  { st := 0, test := 0, fails := 0, last := false, rep := 0, first := false, winN := 0, same := 0, passed := 0,
    say := false, retest := false }

/-- The ESU without power. -/
def EsuSt.reset : EsuSt :=
  { src := Vector.replicate 5 EsuSrc.reset, condRun := false, katSha := false, katDrbg := false, bits := [], mask := 0,
    held := [], fifo := [], drbgRun := false, key := List.replicate 32 0, v := List.replicate 16 0, gens := 0,
    seedDt := 0, due := none, seed := [], reseeds := 0, dfifo := [], wantSec := false, wantDbg := false, last := none }

/-- A CAN controller in INIT. -/
def CanSt.reset : CanSt :=
  { st := 3, lec := 0, tec := 0, recv := 0, lost := 0, rxpend := 0, txreq := 0, txabort := 0, txdone := 0,
    recSw := false }

/-- An idle I2C controller. -/
def I2cSt.reset : I2cSt := { cmd := [], rx := [], busy := false, nack := false, arb := false, stuck := false }

/-- The interfaces idle. -/
def IfcSt.reset : IfcSt :=
  { can := Vector.replicate 2 CanSt.reset, uart := Vector.replicate 4 { tx := [], rx := [], lost := 0 },
    spi := Vector.replicate 2 { tx := [], rx := [] }, i2c := Vector.replicate 2 I2cSt.reset, gin := 0, cts3 := false }

/-- A new part's debug port: lock state OPEN (log entry 6), TAP in Test-Logic-Reset. -/
def DbgSt.reset : DbgSt :=
  { lock := 0, ir := .idcode, bsref := false, scanDt := none, cells := 0, addr := 0, data := 0, status := 0, chal := List.replicate 8 0,
    fresh := false, token := List.replicate 33 0, authBusy := false, authLock := false, authRes := 0, unlocked := false,
    unlockEnd := 0, lockEnd := 0 }

/-- The safety monitor before the first cold start; its registers at their Cold entries. -/
def SafSt.reset : SafSt :=
  { raised := [], monOk := true, parity := Vector.replicate 16 [], deg := none, held := true, pause := none, kickDt := 0,
    first := false, next := false, good := 16, viol := 0, last := 0, lock := false, cfgOpen := 200, cfgClosed := 0,
    inj := 0, ecc0 := 0, ecc1 := 0, ecc2 := 0, ecc3 := 0 }

/-- The part right after a Winter power-on (04 M1), before its first cold start (log entry 6). -/
def State.reset : State where
  pending := []
  part := .tsj5140
  freeCtr := 0
  resp := ⟨.ok, 0⟩
  regs := []
  latches := []
  lows := []
  said := []
  time := TimeSt.reset
  mode := ModeSt.reset
  pwr := PwrSt.reset
  log := LogSt.reset
  cfg := CfgSt.reset
  key := KeySt.reset
  afe := AfeSt.reset
  chain := Vector.replicate 16 ChainSt.reset
  fab := FabSt.reset
  scan := ScanSt.reset
  recd := RecSt.reset
  mem := MemSt.reset
  core := CoreSt.reset
  sch := SchSt.reset
  zve := ZveSt.reset
  uid := 0
  wnt := WntSt.reset
  use := UseSt.reset
  umu := UmuSt.reset
  esu := EsuSt.reset
  ifc := IfcSt.reset
  dbg := DbgSt.reset
  saf := SafSt.reset

end Sys2Proof.Machine
end

