-- ==== Sys2Proof/Machine/Ops.lean ====
section
/-! DEFINITION. The shared operations: stored registers, log entries and their sources, event bits, Safe causes, free
values, modes. -/

namespace Sys2Proof.Machine

/-- Stored word of the register at an offset. -/
def State.reg (s : State) (o : Nat) : Word := mget 0 s.regs o

/-- The register at an offset takes a value. -/
def State.setReg (s : State) (o : Nat) (v : Word) : State := { s with regs := mset 0 s.regs o v }

/-- Bits of a register set by hardware (00 Table SCOPE-7: the new event is kept). -/
def State.orReg (s : State) (o : Nat) (v : Word) : State := s.setReg o (s.reg o ||| v)

/-- Event bit i of the event register at o set. -/
def State.evt (s : State) (o i : Nat) : State := s.orReg o (bitAt true i)

/-- A counter register incremented, saturating at max. -/
def State.countReg (s : State) (o : Nat) (max : Word) : State :=
  s.setReg o (if s.reg o = max then max else s.reg o + 1)

/-- Codes of the modes (04 Table MODE-1). -/
def Mode.code : Mode → Nat
  | .dormant => 0 | .sentry => 1 | .ready => 2 | .protect => 3 | .service => 4 | .safe => 5

/-- The core die runs: Ready, Protect or Service (02 R40), the start included. -/
def State.running (s : State) : Bool :=
  s.mode.coreOn && (s.mode.mode == .ready || s.mode.mode == .protect || s.mode.mode == .service)

/-- An event whose condition cannot hold leaves everything as it is (log entry 5). -/
def State.when (s : State) (c : Bool) (t : State) : State := if c then t else s

/-- Sources of entries (02 Table TIME-4). -/
inductive Src where
  | mode | boot | clkmon | pwr | therm | safmon | logu | afe | flt | fab | recd | scan | exc | sch | zve | sec | esu
  | umu | wnt | ifc | mov | swc | sws
  deriving DecidableEq, Repr

/-- Identity of a source (02 Table TIME-4). -/
def Src.id : Src → Byte
  | .mode => 0x01 | .boot => 0x02 | .clkmon => 0x03 | .pwr => 0x04 | .therm => 0x05 | .safmon => 0x06 | .logu => 0x07
  | .afe => 0x10 | .flt => 0x11 | .fab => 0x20 | .recd => 0x30 | .scan => 0x40 | .exc => 0x41 | .sch => 0x42
  | .zve => 0x50 | .sec => 0x60 | .esu => 0x61 | .umu => 0x70 | .wnt => 0x71 | .ifc => 0x90 | .mov => 0x91
  | .swc => 0xE0 | .sws => 0xE1

/-- The cycle of the 4 MHz WINTER clock in which an instant lies (11 R296): counted on DT while TIME runs, else on the RTC; the two
counts are kept apart (log entry 79). -/
def State.winCycle (s : State) : Nat :=
  if s.time.run then 2 * (s.time.dt.toNat / 25) else 2 * (123 * s.time.rtct.toNat + s.time.phase / 819200) + 1

/-- Place of an entry's port among those of one WINTER cycle: WIN, WNT, SWS (11 R296). -/
def Entry.port (e : Entry) : Nat := if e.source = Src.wnt.id then 1 else if e.source = Src.sws.id then 2 else 0

/-- Place of an event of WNT in its arbiter (02 Table TIME-5): tamper loops, WAKE0 to WAKE3, hour meters, hire permit; an entry
of any other kind follows, and the crystal's comes last (Table TIME-8). -/
def wntRank (e : Entry) : Nat :=
  match e.code.toNat with
  | 0x7102 => e.p0.toNat
  | 0x7103 => e.p0.toNat
  | 0x7101 => 2 + e.p0.toNat
  | 0x7146 => 6
  | 0x7147 => 6
  | 0x7142 => 7
  | 0x7104 => 9
  | _ => 8

/-- Place of an event in its source's arbiter: for a trip state of the fabric that of the element that moved it, for the fabric's
other events after them (log entry 79). -/
def State.arbRank (s : State) (e : Entry) : Nat :=
  if e.source = Src.wnt.id then wntRank e
  else if e.source = Src.fab.id then (if e.code = 0x2301 ∨ e.code = 0x2302 then s.fab.arb else 1000)
  else 0

/-- An entry offered to the staging port (11 R296). -/
def State.offer (s : State) (e : Entry) : State :=
  { s with log := { s.log with offered := s.log.offered ++ [e], ports := s.log.ports ++ [(s.winCycle, e.port, s.arbRank e)] } }

/-- An entry of a DT source, written by hardware. -/
def State.entry (s : State) (src : Src) (code : Half) (p0 p1 p2 p3 : Word) : Entry :=
  { code, source := src.id, td := false, coarse := false, pf := false, hw := true, stamp := s.time.dt, p0, p1, p2, p3 }

/-- A hardware entry of a DT source offered. -/
def State.say (s : State) (src : Src) (code : Half) (p0 p1 p2 p3 : Word) : State :=
  s.offer (s.entry src code p0 p1 p2 p3)

/-- A hardware entry of source WNT offered: stamp in RTCT, coarse once the RTC is, but for the tick in which it became so
(02 R51, R62, R65). -/
def State.sayWnt (s : State) (code : Half) (p0 p1 p2 p3 : Word) : State :=
  s.offer { code, source := Src.wnt.id, td := true, coarse := s.time.coarse && s.time.rtct != s.time.coarseAt, pf := false, hw := true,
            stamp := s.time.rtct, p0, p1, p2, p3 }

/-- A DT entry offered unless one of the same key was offered less than gap ticks before (the maximum-rate columns of the
entry tables). -/
def State.sayKey (s : State) (gap k : Nat) (src : Src) (code : Half) (p0 p1 p2 p3 : Word) : State :=
  let last := mget 0 s.said k
  if last ≠ 0 ∧ (s.time.dt - last).toNat < gap then s
  else { s.say src code p0 p1 p2 p3 with said := mset 0 s.said k s.time.dt }

/-- The same with one limit per code and index. -/
def State.sayRate (s : State) (gap : Nat) (idx : Nat) (src : Src) (code : Half) (p0 p1 p2 p3 : Word) : State :=
  s.sayKey gap (code.toNat * 256 + idx) src code p0 p1 p2 p3

/-- A Safe cause latched with its parameter (04 R124); SAFE_ENTRY acts on it. -/
def State.latchSafe (s : State) (cause : Nat) (param : Word) : State :=
  { s with mode := { s.mode with safePend := s.mode.safePend ++ [(cause, param, s.time.dt)] } }

/-- The next free value: nothing constrains it (log entry 2). -/
def State.free (s : State) : Word × State := (Config.freeWord s.freeCtr, { s with freeCtr := s.freeCtr + 1 })

/-- A Safe cause is latched already, or the part is in Safe: an event of rate "1, then Safe" has been reported (11 Table LOG-4, 05
Table PWR-7). -/
def State.safeDue (s : State) (cause : Nat) : Bool :=
  s.mode.mode == .safe || s.mode.safePend.any (fun x => x.1 == cause)

/-- A Safe cause whose parameter the spec does not state: a free value (log entry 37). -/
def State.latchOpen (s : State) (cause : Nat) : State := s.free.2.latchSafe cause s.free.1

/-- A safety alarm raised to the safety monitor: its number in Table SAF-2 and its channel (20 R559). -/
def State.raiseSaf (s : State) (a ch : Nat) : State := { s with saf := { s.saf with raised := s.saf.raised ++ [(a, ch)] } }

/-- Number of sigma-delta channels and chains, of feeders, of comparators (00 Table SCOPE-1). -/
def Part.channels : Part → Nat
  | .tsj5140 => 16 | .tsj5120 => 8
def Part.feeders : Part → Nat
  | .tsj5140 => 12 | .tsj5120 => 6
def Part.comparators : Part → Nat
  | .tsj5140 => 8 | .tsj5120 => 4
def Part.number : Part → Nat
  | .tsj5140 => 0x5140 | .tsj5120 => 0x5120

/-- The mode changed, the old one kept as SYS_MODE.PREV. -/
def State.toMode (s : State) (m : Mode) : State := { s with mode := { s.mode with prev := s.mode.mode, mode := m } }

/-- EXTEST, CLAMP or HIGHZ is in effect (22 R601): no transaction on the xSPI pins completes. -/
def State.bscan (s : State) : Bool := s.dbg.ir == .extest || s.dbg.ir == .clamp || s.dbg.ir == .highz

/-- The 64-bit time DT advanced by n ticks after a start stamp. -/
def State.since (s : State) (t : DWord) : Nat := (s.time.dt - t).toNat

/-- SAFE_N (04 R102): high in Ready, Protect and Service once step 8 of the cold start has ended, low in every other mode, until then,
and from the latch of a power-fail. -/
def State.safeN (s : State) : Bool := s.running && s.mode.past8 && !s.mode.pf

/-- The loaded image's external memory map, if an image is loaded. -/
def State.memCfg (s : State) : Option MemCfg := s.cfg.img.map Image.mem

end Sys2Proof.Machine
end

