-- ==== Sys2Proof/Machine/Filter.lean ====
section
/-! DEFINITION. Sigma-delta channels, filter chains and the open-wire detector (06, 07). -/

namespace Sys2Proof.Machine

/-- Registers of AFE and FLT. -/
def R.afeEvt : Nat := 0x00040280
def R.afeOwtCtl : Nat := 0x00040110
def R.fltEvt : Nat := 0x00050160
def R.fltSyncStat : Nat := 0x00050144

/-- Chain records of the loaded image. -/
def State.chainCfg (s : State) (k : Fin 16) : Option ChainCfg := s.cfg.img.map (fun i => i.chain[k])

/-- Channel n exists on the part and is enabled. -/
def State.chanEn (s : State) (n : Fin 16) : Bool := decide (n.val < s.part.channels) && bit s.afe.ctl[n] 0

/-- Channels convert: in Ready, Protect and Service, a start included from its step 9 on (06 R156). -/
def State.converts (s : State) : Bool := s.running && s.mode.past8 && !s.mode.pf

/-- The chain fed by channel n. -/
def State.chanChain (s : State) (n : Fin 16) : Fin 16 := fin 15 (fldN s.afe.ctl[n] 8 4)

/-- The enabled channel that feeds chain k. -/
def State.feeder (s : State) (k : Fin 16) : Option (Fin 16) :=
  (List.finRange 16).find? (fun n => s.chanEn n && s.chanChain n == k)

/-- Output period in modulator clocks (07 "Output rate and scaling"). -/
def ChainCfg.period (c : ChainCfg) : Nat := c.cicDec * 2 ^ c.hbCount * c.firDec

/-- Output rate in outputs per second. -/
def ChainCfg.rate (c : ChainCfg) : Nat := 10240000 / c.period

/-- Span and unsettled count (R190). -/
def ChainCfg.span (c : ChainCfg) : Nat :=
  4 * (c.cicDec - 1) + 10 * c.cicDec * (2 ^ c.hbCount - 1) + c.cicDec * 2 ^ c.hbCount * (c.taps - 1)
def ChainCfg.unsettled (c : ChainCfg) : Nat := (c.span + 1 + c.period - 1) / c.period - 1

/-- Arithmetic shift right by n with rounding (R184). -/
def rshift (v : Int) (n : Nat) : Int := if n = 0 then v else (v + 2 ^ (n - 1)) / 2 ^ n

/-- Half-band coefficients (Table FLT-2). -/
def hbCoef : List Int := [256, 0, -2048, 0, 18176, 32768, 18176, 0, -2048, 0, 256]

/-- Inner product of coefficients and a delay line, newest sample first. -/
def dot : List Int → List Int → Int
  | c :: cs, x :: xs => c * x + dot cs xs
  | _, _ => 0

/-- A half-band stage: one output for every second input (R185). -/
def hbStep (d : List Int) (n sh : Nat) (x : Int) : List Int × Nat × Option Int :=
  let d' := (x :: d).take 11
  if n + 1 = 2 then (d', 0, some (rshift (dot hbCoef d') sh)) else (d', n + 1, none)

/-- Stages 6 on: the FIR, one output for every D inputs (R186). -/
def ChainSt.firStep (c : ChainCfg) (st : ChainSt) (x : Int) : ChainSt × Option Int :=
  let d := (x :: st.fir).take c.taps
  if st.firN + 1 = c.firDec then
    ({ st with fir := d, firN := 0 }, some (dot ((st.coef.take c.taps).map (fun w => (w.setWidth 24).toInt)) d))
  else ({ st with fir := d, firN := st.firN + 1 }, none)

/-- Stages 5 and 6. -/
def ChainSt.hb2Step (c : ChainCfg) (st : ChainSt) (x : Int) : ChainSt × Option Int :=
  if c.hbCount < 2 then st.firStep c x
  else
    match hbStep st.hb2 st.hb2N c.hbShift2 x with
    | (d, n, none) => ({ st with hb2 := d, hb2N := n }, none)
    | (d, n, some y) => ChainSt.firStep c { st with hb2 := d, hb2N := n } y

/-- Stages 4 to 6. -/
def ChainSt.hb1Step (c : ChainCfg) (st : ChainSt) (x : Int) : ChainSt × Option Int :=
  if c.hbCount < 1 then st.firStep c x
  else
    match hbStep st.hb1 st.hb1N c.hbShift1 x with
    | (d, n, none) => ({ st with hb1 := d, hb1N := n }, none)
    | (d, n, some y) => ChainSt.hb2Step c { st with hb1 := d, hb1N := n } y

/-- One modulator clock through every stage before the final shift: CIC, correction, SHIFT0, half-bands, FIR
(R183, Table FLT-1). -/
def ChainSt.clock (c : ChainCfg) (ofs gain : Int) (st : ChainSt) (b : Bool) : ChainSt × Option Int :=
  let i0 := st.int0 + (if b then 1 else -1)
  let i1 := st.int1 + i0
  let i2 := st.int2 + i1
  let i3 := st.int3 + i2
  let st1 := { st with int0 := i0, int1 := i1, int2 := i2, int3 := i3 }
  if st.cicN + 1 = c.cicDec then
    let d0 := i3 - st.comb0
    let d1 := d0 - st.comb1
    let d2 := d1 - st.comb2
    let d3 := d2 - st.comb3
    let y := rshift (((d3.setWidth 34).toInt - ofs) * gain) 22
    ChainSt.hb1Step c { st1 with cicN := 0, comb0 := i3, comb1 := d0, comb2 := d1, comb3 := d2 } (rshift y c.shift0)
  else ({ st1 with cicN := st.cicN + 1 }, none)

/-- A run of n clocks with o ones lies beyond full scale: its sign, true negative (06 R160). -/
def beyond (n o : Nat) : Option Bool := if 7 * n < 8 * o then some false else if 8 * o < n then some true else none

/-- One modulator clock at the over-range detector: the run in progress, and the sign of a run that ends beyond full scale
(06 R160). -/
def ChainSt.detect (st : ChainSt) (b : Bool) : ChainSt × Option Bool :=
  let o := st.runOnes + (if b then 1 else 0)
  if st.runN + 1 = 32 then ({ st with runN := 0, runOnes := 0 }, beyond 32 o)
  else ({ st with runN := st.runN + 1, runOnes := o }, none)

/-- Bits that only the detector sees: a clear does not move its runs. -/
def ChainSt.watch : List Bool → ChainSt → Option Bool → ChainSt × Option Bool
  | [], st, ex => (st, ex)
  | b :: t, st, ex => ChainSt.watch t (st.detect b).1 ((st.detect b).2.or ex)

/-- The bits of one output period through the chain: the FIR sum of the last output and the sign of the last run beyond
full scale. -/
def ChainSt.feed (c : ChainCfg) (ofs gain : Int) : List Bool → ChainSt → Option Int → Option Bool →
    ChainSt × Option Int × Option Bool
  | [], st, y, ex => (st, y, if st.runN = 0 then ex else (beyond st.runN st.runOnes).or ex)
  | b :: t, st, _, ex =>
    match st.clock c ofs gain b with
    | (st1, y) => ChainSt.feed c ofs gain t (st1.detect b).1 y ((st1.detect b).2.or ex)

/-- A clear of a chain at a modulator edge (07 "Clearing"): all stages zero, the count of unsettled outputs reloaded, CLEARS
counted. A second cause on the same edge is the same clear, and ALIGNED is 1 if either is a synchronising reset (R193,
R195). -/
def ChainSt.clear (st : ChainSt) (n edge : Nat) (aligned : Bool) : ChainSt :=
  let again := st.clearedAt == some edge
  { st with int0 := 0, int1 := 0, int2 := 0, int3 := 0, comb0 := 0, comb1 := 0, comb2 := 0, comb3 := 0, cicN := 0,
            hb1N := 0, hb2N := 0, firN := 0, hb1 := [], hb2 := [], fir := [], remain := n,
            clears := if again then st.clears else satInc st.clears, clearedAt := some edge,
            aligned := aligned || (again && st.aligned) }

/-- The 10.24 MHz modulator edge of this instant, counted from DT 0 (log entry 80). -/
def State.modEdge (s : State) : Nat := s.time.dt.toNat * 1024 / 10000

/-- Chain k cleared; it keeps its alignment where keep says so (R193). -/
def State.clearChain (s : State) (k : Fin 16) (aligned : Bool) : State :=
  match s.chainCfg k with
  | none => s
  | some c => { s with chain := vmod s.chain k (fun st => st.clear c.unsettled s.modEdge aligned) }

/-- The chain of channel n cleared, by a cause that ends alignment or (keep) leaves it. -/
def State.clearChannel (s : State) (n : Fin 16) (keep : Bool) : State :=
  let k := s.chanChain n
  s.clearChain k (keep && s.chain[k].aligned)

/-- Every channel of a mask, in order, through an operation. -/
def State.forChans (s : State) (mask : BitVec 16) (f : State → Fin 16 → State) : State :=
  (List.finRange 16).foldl (fun t n => if mask.getLsbD n.val then f t n else t) s

/-- Corrections of channel n for its current setting: the spec gives them to the calibration (06 R177). -/
def State.corr (s : State) (n : Fin 16) : Int × Int :=
  let i := 8 * n.val + (fldN s.afe.ctl[n] 1 1) + 2 * (fldN s.afe.ctl[n] 2 2)
  (((s.afe.ofs.getD i 0).setWidth 24).toInt, ((s.afe.gain.getD i 0x400000).setWidth 24).toNat)

/-- Ready or Service, where channel settings may be changed and bursts run (06 R163, R167). -/
def State.readyOrService (s : State) : Bool :=
  s.mode.coreOn && (s.mode.mode == .ready || s.mode.mode == .service)

/-- The write of AFE_CH_CTL (06 R163, Table AFE-8). A write with GAIN code 4 to 7 is denied whole, and a change accepted on a disabled
channel, which has no output boundary, applies at once and clears nothing (log entry 81). -/
def State.chCtlWrite (s : State) (n : Fin 16) (v : Word) : State :=
  let old := (s.afe.pend[n]).getD s.afe.ctl[n]
  let new := (old &&& ~~~0x3E#32) ||| (v &&& 0x3E#32)
  if new = old then s
  else if !s.readyOrService || bit v 4 then s.evt R.afeEvt 7
  else if s.chanEn n then { s with afe := { s.afe with pend := vput s.afe.pend n (some new) } }
  else { s with afe := { s.afe with ctl := vput s.afe.ctl n new } }

/-- An accepted change applies at the output boundary (06 R163, R164, R166): the chain is cleared, continuous detection
turned off ends the open state, the burst latch clears. -/
def State.settingApply (s : State) (n : Fin 16) : State :=
  match s.afe.pend[n] with
  | none => s
  | some v =>
    let pins : Word := bitAt (s.afe.owPos.getLsbD n.val) 0 ||| bitAt (s.afe.owNeg.getLsbD n.val) 1
    let off := !bit v 5 && decide (pins ≠ 0)
    let m : BitVec 16 := ~~~((1 : BitVec 16) <<< n.val)
    let a := { s.afe with ctl := vput s.afe.ctl n v, pend := vput s.afe.pend n none, owLatch := s.afe.owLatch &&& m,
                          owPos := if off then s.afe.owPos &&& m else s.afe.owPos,
                          owNeg := if off then s.afe.owNeg &&& m else s.afe.owNeg }
    let s1 := ({ s with afe := a }).clearChannel n true
    if off then (s1.evt R.afeEvt 1).sayRate 10000 n.val .afe 0x2102 (BitVec.ofNat 32 n.val) pins 0 0 else s1

/-- A modulator reset (06 R162). The chain's next output carries the OVR of the output that the reset cuts short (R179). -/
def State.modReset (s : State) (n : Fin 16) : State :=
  let s0 := ({ s with afe := { s.afe with modrst := vmod s.afe.modrst n satInc } }).clearChannel n false
  let s1 := { s0 with chain := vmod s0.chain (s.chanChain n) (fun st => { st with modClear := true }) }
  (s1.evt R.afeEvt 3).sayRate 100000 n.val .afe 0x2105 (BitVec.ofNat 32 n.val) ((s1.afe.modrst[n]).setWidth 32) 0 0

/-- Pins of channel n change their open state under continuous detection (06 R164); pins already there do not change. -/
def State.owChange (s : State) (n : Fin 16) (pins : BitVec 2) (set : Bool) : State :=
  let one : BitVec 16 := (1 : BitVec 16) <<< n.val
  let cur : BitVec 2 := boolBits 2 [s.afe.owPos.getLsbD n.val, s.afe.owNeg.getLsbD n.val]
  let chg := if set then pins &&& ~~~cur else pins &&& cur
  let f (x : BitVec 16) (p : Bool) : BitVec 16 := if p then (if set then x ||| one else x &&& ~~~one) else x
  let s1 := { s with afe := { s.afe with owPos := f s.afe.owPos (chg.getLsbD 0), owNeg := f s.afe.owNeg (chg.getLsbD 1) } }
  if chg = 0 then s
  else
    (s1.evt R.afeEvt (if set then 0 else 1)).sayRate 10000 n.val .afe (if set then 0x2101 else 0x2102)
      (BitVec.ofNat 32 n.val) (chg.setWidth 32) 0 0

/-- AFE_OWT_CTL written with GO (06 R166, R167); the other fields are stored. -/
def State.owtGo (s : State) (v : Word) : State :=
  let s0 := s.setReg R.afeOwtCtl (v &&& 0x0003FFFF#32)
  if !bit v 31 then s0
  else if !s.readyOrService || s.afe.burst.isSome then { s0 with afe := { s0.afe with owDenied := true } }
  else
    let en : BitVec 16 := boolBits _ ((List.finRange 16).map s.chanEn)
    { s0 with afe := { s0.afe with burst := some (fld v 0 16 &&& en) } }

/-- The end of a burst: pins sampled, chains cleared (06 R166). -/
def State.owtDone (s : State) (pos neg : BitVec 16) : State :=
  match s.afe.burst with
  | none => s
  | some mask =>
    let opn := (pos ||| neg) &&& mask
    let a := { s.afe with burst := none, owOpen := opn, owDone := true, owAband := false,
                          owLatch := (s.afe.owLatch &&& ~~~mask) ||| opn }
    let s1 := ({ s with afe := a }).forChans mask (fun t n => t.clearChannel n false)
    let s2 := s1.forChans opn (fun t n => (t.evt R.afeEvt 0).sayRate 10000 n.val .afe 0x2101 (BitVec.ofNat 32 n.val)
      (bitAt (pos.getLsbD n.val) 0 ||| bitAt (neg.getLsbD n.val) 1) 1 0)
    (s2.evt R.afeEvt 4).say .afe 0x2106 (mask.setWidth 32) (opn.setWidth 32) 0 0

/-- A burst abandoned as the part leaves Ready or Service (06 R655). -/
def State.abandonBurst (s : State) : State :=
  match s.afe.burst with
  | none => s
  | some mask =>
    let s1 := ({ s with afe := { s.afe with burst := none, owDone := true, owAband := true } }).forChans mask
      (fun t n => t.clearChannel n false)
    (s1.evt R.afeEvt 4).say .afe 0x2106 (mask.setWidth 32) 0 1 0

/-- Result word (06 Table AFE-2). -/
def resultWord (unsettled ovr ow sat : Bool) (k : Fin 16) (data : Int) : Word :=
  bitAt unsettled 31 ||| bitAt ovr 30 ||| bitAt ow 29 ||| bitAt sat 28 ||| at_ k.val 24 |||
    ((BitVec.ofInt 24 data).setWidth 32)

/-- Begin and end entries of a flag's episode (06 Table AFE-7, 07 Table FLT-5, R656): the new count of clear outputs, the
new count of flagged outputs, and what is written: none, begin, or end with its count. -/
def episode (clear count : Nat) (flag : Bool) : Nat × Nat × Option (Option Nat) :=
  if flag then (0, count + 1, if 64 ≤ clear then some none else none)
  else if clear + 1 = 64 ∧ count ≠ 0 then (64, 0, some (some count))
  else (min 64 (clear + 1), count, none)

/-- A flag's entry. -/
def State.sayEpisode (s : State) (src : Src) (beginCode endCode : Half) (evtReg : Nat) (b e : Option Nat)
    (i : Nat) (sign : Bool) : Option (Option Nat) → State
  | none => s
  | some none => (match b with
      | none => s
      | some x => s.evt evtReg x).say src beginCode (BitVec.ofNat 32 i) (bitAt sign 0) 0 0
  | some (some c) => (match e with
      | none => s
      | some x => s.evt evtReg x).say src endCode (BitVec.ofNat 32 i) (BitVec.ofNat 32 c) 0 0

/-- Step 9 of a start runs (06 R178). -/
def State.inStep9 (s : State) : Bool :=
  match s.mode.run with
  | none => false
  | some r => r.step9.isSome

/-- A chain completes a result word (06 R159, R160, R164, R168, R178; 07 R183 to R192, R199), from the modulator bits of its
output period; cal: its channel is being calibrated. -/
def State.chainOut (s : State) (k n : Fin 16) (c : ChainCfg) (st : ChainSt) (y : Int)
    (ex0 : Option Bool) (par cal : Bool) : State :=
  let v := rshift y c.finalShift
  let ex := if cal then none else ex0
  let sat := !cal && (decide (v < -8388608) || decide (8388607 < v))
  let ovr := ex.isSome
  let clamped : Int := max (-8388608) (min 8388607 v)
  let data : Int := match ex with
    | none => if cal then 0 else clamped
    | some neg => if neg then -8388608 else 8388607
  let burst := match s.afe.burst with
    | none => false
    | some m => m.getLsbD n.val
  let ow := s.afe.owPos.getLsbD n.val || s.afe.owNeg.getLsbD n.val || s.afe.owLatch.getLsbD n.val
  let uns := decide (0 < st.remain) || burst || par || st.parityNext || s.inStep9
  let e1 := episode st.ovrClear st.ovrCount ovr
  let e2 := episode st.satClear st.satCount sat
  let w := resultWord uns ovr ow sat k data
  let st' := { st with out := w, stamp := s.time.dt, hist := ((w, s.time.dt) :: st.hist).take 33, due := true,
                       remain := st.remain - 1, prime := st.prime - 1, parityNext := false, modClear := false, ovrClear := e1.1,
                       ovrCount := e1.2.1, satClear := e2.1, satCount := e2.2.1, winCount := st.winCount + 1 }
  let s1 := { s with chain := vput s.chain k st' }
  let s2 := s1.sayEpisode .afe 0x2103 0x2104 R.afeEvt (some 2) none n.val (decide (data < 0)) e1.2.2
  s2.sayEpisode .flt 0x2202 0x2203 R.fltEvt (some 1) (some 2) k.val (decide (clamped < 0)) e2.2.2

/-- A parity error in a stage register of chain k (07 R196, Table FLT-5): the chain cleared, the FLT alarm, STATE_PARITY. -/
def State.stageParity (s : State) (k : Fin 16) (g : Fin 7) : State :=
  (((s.clearChain k false).raiseSaf 3 k.val).evt R.fltEvt 3).sayRate 100000 k.val .flt 0x8201
    (BitVec.ofNat 32 k.val) (BitVec.ofNat 32 (g.val + 1)) 0 0

/-- The chain with the bits of its output period in: what came before the last clear reaches the detector alone, and sets OVR
only where that clear was a modulator reset (06 R160, R179). -/
def State.chainFeed (s : State) (k n : Fin 16) (c : ChainCfg) (i : ChainIn) : ChainSt × Option Int × Option Bool :=
  let p := (s.chain[k]).watch i.pre none
  let ex := if p.1.modClear then p.2 else none
  let r := p.1.feed c (s.corr n).1 (s.corr n).2 i.bits none none
  (r.1, r.2.1, r.2.2.or ex)

/-- CHAIN_OUTPUT: exactly the bits of the output in progress arrive. A parity error that meets the output in progress leaves it
delivered, unsettled, and the chain is then cleared; with no output in progress the chain is cleared first and its next output
is unsettled (R196). -/
def State.chainOutput (s : State) (k : Fin 16) (i : ChainIn) : State :=
  match s.feeder k, s.chainCfg k with
  | some n, some c =>
    if i.bits.length ≠ c.period ∨ !s.converts then s
    else
      let s0 := match i.parity with
        | some (g, false) =>
          let t := s.stageParity k g
          { t with chain := vmod t.chain k (fun st => { st with parityNext := true }) }
        | _ => s
      match s0.chainFeed k n c i with
      | (st, some y, ex) =>
        let s1 := s0.chainOut k n c st y ex (i.parity.any Prod.snd) (i.cal && s.inStep9)
        (match i.parity with
        | some (g, true) => s1.stageParity k g
        | _ => s1)
      | (_, none, _) => s
  | _, _ => s

/-- A synchronising reset of the enabled chains of a mask (07 R189, R193). -/
def State.syncReset (s : State) (mask : BitVec 16) : State :=
  (List.finRange 16).foldl (fun t k => if mask.getLsbD k.val && (t.feeder k).isSome then t.clearChain k true else t) s

/-- The enabled chains: those that an enabled channel feeds (07). -/
def State.chainsOn (s : State) : BitVec 16 := boolBits _ ((List.finRange 16).map (fun k => (s.feeder k).isSome))

/-- A synchronising reset that is reported: SYNC_DONE with its mask and cause (07 R193, R199). -/
def State.syncDone (s : State) (mask : BitVec 16) (cause : Word) : State :=
  ((s.syncReset mask).evt R.fltEvt 0).say .flt 0x2201 (mask.setWidth 32) cause 0 0

/-- FLT_SYNC written (07 R194). -/
def State.fltSync (s : State) (v : Word) : State :=
  let mask := fld v 0 16 &&& s.chainsOn
  if fld v 0 16 = 0 then s
  else if !s.readyOrService then s.setReg R.fltSyncStat 1
  else if mask = 0 then s
  else s.syncDone mask 1

end Sys2Proof.Machine
end

