-- ==== Sys2Proof/Machine/Afe.lean ====
section
/-! DEFINITION. SAR converter, references, comparator cells, chain monitors (06, 07). -/

namespace Sys2Proof.Machine

/-- AFE_SAF_INJ target 4: an offset of +2 % on slot 13 (20 Table SAF-4), on the sum of a frame. -/
def State.refSum (s : State) (sum : Nat) : Nat := if s.saf.inj.getLsbD 4 then sum + sum / 50 else sum

/-- A frame's mean in units of 0.1 mV, from the sum of its 50 codes (R170; rounding: log entry 7). -/
def mean10 (sum : Nat) : Nat := sum * 15000 / (50 * 4096)

/-- The sum of 50 codes lies more than 0.5 % from a nominal value in mV (R176). -/
def refOff (sum nominal : Nat) : Bool :=
  let x := 1500 * sum
  let n := nominal * 50 * 4096
  decide (200 * n + n < 200 * x) || decide (200 * x < 200 * n - n)

/-- Temperature of a sensor slot plus 64, in whole degrees rounded down, from the sum of its 50 codes (Table AFE-4; log entry 7). -/
def sensorTemp (sum : Nat) : Byte :=
  BitVec.ofInt 8 (max 0 (min 255 (64 + 25 + (10000 - (mean10 sum : Int)) / 20)))

/-- Consecutive frame means for which a condition holds, up to 8 (05 R147). -/
def runOf (n : Nat) (c : Bool) : Nat := if c then min 8 (n + 1) else 0

/-- The temperature figures of a frame, and what they count towards (05 R147 to R149, R153). -/
def PwrSt.temps (p : PwrSt) (t0 t1 t2 : Byte) : PwrSt :=
  let t (n : Fin 3) : Nat := match n.val with
    | 0 => t0.toNat
    | 1 => t1.toNat
    | _ => t2.toNat
  { p with tjf := t0, tjc0 := t1, tjc1 := t2,
           tHigh := Vector.ofFn (fun n => runOf p.tHigh[n] (decide (199 < t n))),
           tLow := Vector.ofFn (fun n => runOf p.tLow[n] (decide (t n ≤ 194))),
           tShut := Vector.ofFn (fun n => runOf p.tShut[n] (decide (214 < t n))),
           tOut := Vector.ofFn (fun n => runOf p.tOut[n] (decide (t n < 14 ∨ 244 < t n))) }

/-- The VBAT and VBAK figures of a frame, in whole mV rounded down (R170; VBAK_OK rises with a figure of 2.5 V: log entries 7 and 60).
VBAT below 3.8 V is no longer valid (05 R137). -/
def PwrSt.volts (p : PwrSt) (vbat vbak : Nat) : PwrSt :=
  { p with vbatMv := BitVec.ofNat 16 vbat, vbakMv := BitVec.ofNat 16 vbak, vbakOk := p.vbakOk || decide (2500 ≤ vbak),
           vbatValid := p.vbatValid && decide (3800 ≤ vbat),
           surgePeak := if p.surge ∧ p.surgePeak.toNat < vbat then BitVec.ofNat 16 vbat else p.surgePeak }

/-- One slot's reference cross-check: bad, with its mean in mV; the entry on the rise of that slot's deviation (R176, R180). -/
def State.refCheck (s : State) (i : Fin 2) (slot sum nominal : Nat) : State :=
  let bad := s.afe.calFrame && refOff sum nominal
  let s1 := { s with afe := { s.afe with refBad := setBit s.afe.refBad i.val bad } }
  if !bad then s1
  else
    let s2 := (s1.raiseSaf 1 0).evt R.afeEvt 5
    if s.afe.refBad.getLsbD i.val then s2
    else s2.sayRate 200000 i.val .afe 0x8101 (BitVec.ofNat 32 slot) (BitVec.ofNat 32 (mean10 sum / 10)) 0 0

/-- The means of an ended frame: the figures of 05, the reference cross-check of a frame begun after step 9 (R169, R170,
R176). -/
def State.frameEnd (s : State) : State :=
  let a := s.afe.sum
  let p := (s.pwr.temps (sensorTemp a[10]) (sensorTemp a[11]) (sensorTemp a[12])).volts (mean10 a[8] * 4) (mean10 a[9] * 4 / 10)
  let s1 := ({ s with pwr := p }.refCheck 0 13 (s.refSum a[13]) 1200).refCheck 1 14 a[14] 900
  { s1 with afe := { s1.afe with sum := Vector.replicate 20 0, cycles := 0, calFrame := s.afe.calPass } }

/-- The SAR runs (R169): in Ready, Protect, Service, during a start from step 3 on, and in Safe while the core die is powered. -/
def State.sarRuns (s : State) : Bool := s.mode.coreOn && !s.mode.pf && (s.running || s.mode.mode == .safe)

/-- The code of an input at the converter in microvolts (R170). -/
def sarCode (uv : Int) : BitVec 12 := BitVec.ofInt 12 (max 0 (min 4095 (uv * 4096 / 1500000)))

/-- The conversion of the slot whose turn it is: the result, its stamp, and at the end of the 50th cycle the frame's means (R169,
R170). -/
def State.sarConv (s : State) (slot : Fin 20) (uv : Int) : State :=
  if slot ≠ s.afe.sarNext then s
  else
    let code := sarCode uv
    let last := slot == 19
    let n := if last then s.afe.cycles + 1 else s.afe.cycles
    let s1 := { s with afe := { s.afe with sar := vput s.afe.sar slot code, sarDt := vput s.afe.sarDt slot s.time.dt,
                                           sum := vmod s.afe.sum slot (fun x => x + code.toNat), sarNext := slot + 1, cycles := n } }
    if last && decide (50 ≤ n) then s1.frameEnd else s1

/-- The corrections of channel n that a calibration finds lie outside their limits: the setting and the value (Table AFE-5: offset
2 % of full scale, which is 0.75 R^4 at the CIC output; gain 0.97 to 1.03). -/
def chanFault (c : CalIn) (n dec : Nat) : Option (Word × Word) :=
  (List.range 8).findSome? (fun j =>
    let o := c.ofs.getD (8 * n + j) 0
    let g := c.gain.getD (8 * n + j) 0x400000
    if 3 * dec ^ 4 < 200 * (o.setWidth 24).toInt.natAbs then some (BitVec.ofNat 32 j, o)
    else if 100 * (g.setWidth 24).toNat < 97 * 2 ^ 22 ∨ 103 * 2 ^ 22 < 100 * (g.setWidth 24).toNat then some (BitVec.ofNat 32 j, g)
    else none)

/-- Comparator m is on the part and enabled. -/
def State.cmpEn (s : State) (m : Fin 8) : Bool := decide (m.val < s.part.comparators) && bit s.afe.cmpCtl[m] 8

/-- The first item of a calibration outside its limit: item, setting, value (Tables AFE-5, AFE-7). A warm start's calibration is that of
the channels alone (R178). -/
def State.calFault (s : State) (c : CalIn) (cold : Bool) : Option (Word × Word × Word) :=
  let ch := (List.finRange 16).findSome? (fun n =>
    if s.chanEn n then
      match s.chainCfg (s.chanChain n) with
      | none => none
      | some k => (chanFault c n.val k.cicDec).map (fun x => (BitVec.ofNat 32 n.val, x.1, x.2))
    else none)
  let cmp := (List.finRange 8).findSome? (fun m =>
    if s.cmpEn m then
      (List.range 4).findSome? (fun i =>
        let v := c.cell.getD (4 * m.val + i) 0
        if 15000 < v.toInt.natAbs then some (BitVec.ofNat 32 (0x100 + m.val), BitVec.ofNat 32 i, v) else none)
    else none)
  let sar : Option (Word × Word × Word) :=
    if 8 < c.sarOfs.toInt.natAbs then some (0x200, 0, c.sarOfs)
    else if 100 * c.sarGain.toNat < 98 * 2 ^ 22 ∨ 102 * 2 ^ 22 < 100 * c.sarGain.toNat then some (0x200, 0, c.sarGain)
    else none
  ch.or (if cold then cmp.or sar else none)

/-- AFE_CMP_CTL written (R173). -/
def State.cmpCtlWrite (s : State) (m : Fin 8) (v : Word) : State :=
  let old := s.afe.cmpCtl[m]
  let new := (old &&& ~~~0xF#32) ||| (v &&& 0xF#32)
  if new = old then s
  else if !s.readyOrService then s.evt R.afeEvt 7
  else { s with afe := { s.afe with cmpCtl := vput s.afe.cmpCtl m new } }

/-- The signals above the high and below the low threshold: ORs of the cells that are not taken out (R174). -/
def AfeSt.above (a : AfeSt) : BitVec 8 :=
  boolBits 8 ((List.range 8).map (fun m => (a.cells &&& ~~~a.cellOut).extractLsb' (4 * m) 2 != 0))
def AfeSt.below (a : AfeSt) : BitVec 8 :=
  boolBits 8 ((List.range 8).map (fun m => (a.cells &&& ~~~a.cellOut).extractLsb' (4 * m + 2) 2 != 0))

/-- Comparator m fails the test of its cell: the cell leaves its OR (R174, R180). -/
def State.cellFail (s : State) (c : Fin 4) (m : Fin 8) : State :=
  let i := 4 * m.val + c.val
  if s.afe.cellOut.getLsbD i then s
  else
    let s1 := { s with afe := { s.afe with cellOut := s.afe.cellOut ||| ((1 : BitVec 32) <<< i) } }
    ((s1.raiseSaf 2 m.val).evt R.afeEvt 6).say .afe 0x8102 (BitVec.ofNat 32 m.val) (BitVec.ofNat 32 c.val) 0 0

/-- Every comparator tests its next cell; pass bit m is the result (R174). -/
def State.cellTest (s : State) (pass : BitVec 8) : State :=
  let c := s.afe.nextCell
  let s1 := (List.finRange 8).foldl (fun t m => if s.cmpEn m && !pass.getLsbD m.val then t.cellFail c m else t) s
  { s1 with afe := { s1.afe with nextCell := c + 1 } }

/-- The bytes of a CHAIN record (03 Table IMG-7), its coefficients as the coefficient memory holds them. -/
def ChainCfg.bytes (c : ChainCfg) (coef : List Word) : List Byte :=
  toLE 2 c.cicDec ++ ([c.shift0, c.hbCount, c.hbShift1, c.hbShift2, c.taps, c.firDec, c.finalShift].map (BitVec.ofNat 8)) ++
    List.replicate 7 0 ++ ((coef ++ List.replicate 96 0).take 96).flatMap bytesLE

/-- CRC-32C of the CHAIN record as chain k's coefficient memory holds it (07 R197). -/
def State.coefCrcOf (s : State) (k : Fin 16) : Word :=
  match s.chainCfg k with
  | none => 0
  | some c => crc32c (c.bytes s.chain[k].coef)

/-- A bit upset in a coefficient memory: chain, tap, the bits it turns. -/
def State.coefUpset (s : State) : Option (Fin 16 × Fin 96 × Word) → State
  | none => s
  | some (k, j, x) => { s with chain := vmod s.chain k (fun st => { st with coef := st.coef.set j.val (st.coef.getD j.val 0 ^^^ x) }) }

/-- The 1 ms check of the coefficient memories against their baselines (07 R197). -/
def State.coefCheck (s : State) : State :=
  (List.finRange 16).foldl (fun t k =>
    if (t.feeder k).isSome && !t.chain[k].coefSaid && t.coefCrcOf k != t.chain[k].crc then
      let t1 := { t with chain := vmod t.chain k (fun st => { st with coefSaid := true }) }
      ((t1.raiseSaf 4 k.val).evt R.fltEvt 4).say .flt 0x8202 (BitVec.ofNat 32 k.val) 0 0 0
    else t) s

/-- A window of 100,000 ticks ends: each enabled chain's outputs are judged (07 R198). -/
def State.rateCheck (s : State) : State :=
  (List.finRange 16).foldl (fun t k =>
    match t.feeder k, t.chainCfg k with
    | some _, some c =>
      let st := t.chain[k]
      let want := c.rate / 1000
      let bad := decide (want + 1 < st.winCount) || decide (st.winCount + 1 < want)
      let t1 := { t with chain := vput t.chain k { st with winCount := 0, rateBad := bad,
                                                           rateSaid := st.rateSaid || (bad && st.rateBad) } }
      if bad && st.rateBad && !st.rateSaid then
        ((t1.raiseSaf 5 k.val).evt R.fltEvt 5).say .flt 0x8203 (BitVec.ofNat 32 k.val) (BitVec.ofNat 32 st.winCount) 0 0
      else t1
    | _, _ => t) s

end Sys2Proof.Machine
end

