-- ==== Sys2Proof/Machine/Fabric.lean ====
section
/-! DEFINITION. Protection fabric, settings groups, trip and close states, contactor drivers (08). -/

namespace Sys2Proof.Machine

/-- Registers of FAB. -/
def R.fabSetSel : Nat := 0x00060010
def R.fabGrpReq : Nat := 0x00060004
def R.fabTripCnt (n : Nat) : Nat := 0x00060080 + 4 * n
def R.fabTripCause (n : Nat) : Nat := 0x000600C0 + 4 * n
def R.fabBstCfg (n : Nat) : Nat := 0x00060300 + 4 * n
def R.fabEvt : Nat := 0x00060380

/-- The loaded netlist. -/
def State.fabCfg (s : State) : Option FabCfg := s.cfg.img.map Image.fab

/-- Comparator signals 0x008 to 0x017, as bits 0 to 15. -/
def State.cmpSignals (s : State) : BitVec 16 :=
  boolBits _ ((List.finRange 16).map (fun i =>
    if i.val % 2 = 0 then s.afe.above.getLsbD (i.val / 2) else s.afe.below.getLsbD (i.val / 2)))

/-- Operate and started signals of the integrators. -/
def FabSt.operate (f : FabSt) : BitVec 12 := boolBits _ (f.integ.toList.map IntegSt.operate)
def FabSt.started (f : FabSt) : BitVec 12 := boolBits _ (f.integ.toList.map IntegSt.started)
/-- Outputs of the timers. -/
def FabSt.timers (f : FabSt) : BitVec 32 := boolBits _ (f.timer.toList.map TimerSt.out)

/-- Fabric signals 0x000 to 0x0FF, as bits (03 Table IMG-8), with these timer outputs. -/
def State.sigsOf (s : State) (timers : BitVec 32) : BitVec 256 :=
  (2 : BitVec 256) ||| (s.cmpSignals.setWidth 256 <<< 8) ||| (s.fab.tu.setWidth 256 <<< 32) |||
    (s.fab.operate.setWidth 256 <<< 0x60) ||| (s.fab.started.setWidth 256 <<< 0x70) |||
    (timers.setWidth 256 <<< 0x80) ||| (s.fab.bst.setWidth 256 <<< 0xA0) ||| (s.fab.req.setWidth 256 <<< 0xB0) |||
    (if s.fab.hire then (1 : BitVec 256) <<< 0xD0 else 0)
def State.sigs (s : State) : BitVec 256 := s.sigsOf s.fab.timers

/-- Value of a signal number, given signals 0x000 to 0x0FF and the cells. -/
def sigOf (low q : BitVec 256) (n : BitVec 10) : Bool :=
  if n.toNat < 256 then low.getLsbD n.toNat else if n.toNat < 512 then q.getLsbD (n.toNat - 256) else false

/-- Value of a fabric signal now. -/
def State.sig (s : State) (n : BitVec 10) : Bool := sigOf s.sigs s.fab.q n

/-- The LUT bit that four inputs select. -/
def CellCfg.look (c : CellCfg) (a b d e : Bool) : Bool :=
  c.lut.getLsbD ((if a then 1 else 0) + (if b then 2 else 0) + (if d then 4 else 0) + (if e then 8 else 0))

/-- LUT bit of the cell's inputs. -/
def CellCfg.lutOut (c : CellCfg) (low q : BitVec 256) : Bool :=
  c.look (sigOf low q c.in0) (sigOf low q c.in1) (sigOf low q c.in2) (sigOf low q c.in3)

/-- Q of a MODE 2 cell (R202): the set-dominant latch. -/
def CellCfg.latch (c : CellCfg) (low q : BitVec 256) (old pulse : Bool) : Bool :=
  c.look (sigOf low q c.in0) (sigOf low q c.in1) (sigOf low q c.in2) false ||
    (old && !(sigOf low q c.in3 || pulse))

/-- One pass over the MODE 0 cells in order. -/
def sweep (cells : List (Fin 256 × CellCfg)) (low q : BitVec 256) : BitVec 256 :=
  cells.foldl (fun q c => if c.2.mode = 0 then setBit q c.1.val (c.2.lutOut low q) else q) q

/-- Passes until nothing changes, n at most; none where the MODE 0 cells do not settle. -/
def settle0 (cells : List (Fin 256 × CellCfg)) (low : BitVec 256) : Nat → BitVec 256 → Option (BitVec 256)
  | 0, _ => none
  | n + 1, q => if sweep cells low q = q then some q else settle0 cells low n (sweep cells low q)

/-- The MODE 2 cells together, each on the settled values. -/
def latches (cells : List (Fin 256 × CellCfg)) (low pulse q : BitVec 256) : BitVec 256 :=
  cells.foldl (fun r c =>
    if c.2.mode = 2 then setBit r c.1.val (c.2.latch low q (q.getLsbD c.1.val) (pulse.getLsbD c.1.val)) else r) q

/-- MODE 0 cells settle with the latches held, then the latches act on what has settled, until nothing changes, n times at most:
no latch sees a value on the way (R202). None where the netlist does not settle. -/
def settleCells (cells : List (Fin 256 × CellCfg)) (low pulse : BitVec 256) : Nat → BitVec 256 → Option (BitVec 256)
  | 0, _ => none
  | n + 1, q =>
    match settle0 cells low 260 q with
    | none => none
    | some q0 => if latches cells low pulse q0 = q0 then some q0 else settleCells cells low pulse n (latches cells low pulse q0)

/-- Cells of the netlist that can change their Q: every cell but those whose MODE 0 table is 0 (constant 0). -/
def FabCfg.cells (c : FabCfg) : List (Fin 256 × CellCfg) :=
  (List.finRange 256).filterMap (fun i => if c.cell[i].mode = 0 ∧ c.cell[i].lut = 0 then none else some (i, c.cell[i]))

/-- 256 free bits (log entry 2). -/
def State.freeBits : Nat → State → BitVec 256 × State
  | 0, s => (0, s)
  | n + 1, s =>
    let r := s.free
    let t := State.freeBits n r.2
    ((t.1 <<< 32) ||| r.1.setWidth 256, t.2)

/-- Trip states as a fabric with these signals computes them: TRIP_SIG, or 1 where the record is not enabled. -/
def FabCfg.trips (c : FabCfg) (low q : BitVec 256) : BitVec 12 :=
  boolBits _ ((List.finRange 12).map (fun n => !c.trip[n].en || sigOf low q c.trip[n].trip))
def State.tripNow (s : State) (c : FabCfg) : BitVec 12 := c.trips s.sigs s.fab.q

/-- Word FAB_TRIP_CAUSE and parameter 1 of TRIP. -/
def State.tripCause (s : State) : Word := (s.cmpSignals.setWidth 32) ||| (s.fab.operate.setWidth 32 <<< 16)

/-- Place of a signal's event in the FAB event arbiter (02 Table TIME-5): comparators, threshold units, integrators, timers, logic
cells, each by index; what the table does not name follows the timers (log entry 79). -/
def sigRank (n : Nat) : Nat :=
  if n < 0x20 then (n - 8) / 2
  else if n < 0x60 then 100 + (n - 0x20)
  else if n < 0x80 then 200 + n % 16
  else if n < 0xA0 then 300 + (n - 0x80)
  else if n < 0x100 then 340
  else 400 + (n - 0x100)

/-- Place of the event that reaches each signal: its own where it has changed, else the first of those that reach a clockless
cell's inputs. One pass over the cells. -/
def rankPass (cells : List (Fin 256 × CellCfg)) (ranks : Vector Nat 512) : Vector Nat 512 :=
  cells.foldl (fun v c =>
    if c.2.mode = 0 ∨ c.2.mode = 2 then
      let f (n : BitVec 10) : Nat := v.getD n.toNat 1000
      v.setIfInBounds (256 + c.1.val)
        (min (v.getD (256 + c.1.val) 1000) (min (min (f c.2.in0) (f c.2.in1)) (min (f c.2.in2) (f c.2.in3))))
    else v) ranks
def rankAll (cells : List (Fin 256 × CellCfg)) : Nat → Vector Nat 512 → Vector Nat 512
  | 0, v => v
  | n + 1, v => if rankPass cells v = v then v else rankAll cells n (rankPass cells v)

/-- Place of the event that moves each trip record's TRIP_SIG, given which signals and which cells have changed of themselves. -/
def FabCfg.tripRanks (c : FabCfg) (low cells : BitVec 256) : List Nat :=
  let v : Vector Nat 512 := Vector.ofFn (fun n =>
    if (if n.val < 256 then low.getLsbD n.val else cells.getLsbD (n.val - 256)) then sigRank n.val else 1000)
  let w := rankAll c.cells 256 v
  (List.finRange 12).map (fun n => w.getD (c.trip[n].trip).toNat 1000)

/-- T of record n has risen (R216, R229): counted, cause kept, the close state cleared, TRIP. -/
def State.tripRise (s : State) (c : FabCfg) (n : Fin 12) : State :=
  let s1 := { s with fab := { s.fab with trip := setBit s.fab.trip n.val true, close := setBit s.fab.close n.val false,
                                         tripOpened := setBit s.fab.tripOpened n.val (s.fab.close.getLsbD n.val),
                                         tripDt := vput s.fab.tripDt n s.time.dt } }
  let s2 := ((s1.countReg (R.fabTripCnt n.val) 0xFFFFFFFF).setReg (R.fabTripCause n.val) s1.tripCause).evt R.fabEvt 0
  let b := match s.fab.shadow with
    | none => true
    | some x => x.trip.getLsbD n.val
  s2.sayRate 10000 n.val .fab 0x2301
    (BitVec.ofNat 32 n.val ||| bitAt c.trip[n].latch 8 ||| bitAt true 9 ||| bitAt b 10) s1.tripCause
    (lo32 s.fab.tu) (hi32 s.fab.tu)

/-- T of record n has fallen: TRIP_CLEAR with the duration in microseconds. -/
def State.tripFall (s : State) (n : Fin 12) : State :=
  let d := s.since s.fab.tripDt[n] / 100
  let s1 := { s with fab := { s.fab with trip := setBit s.fab.trip n.val false } }
  (s1.evt R.fabEvt 1).sayRate 10000 n.val .fab 0x2302 (BitVec.ofNat 32 n.val)
    (BitVec.ofNat 32 (min d 0xFFFFFFFF)) 0 0

/-- Changed trip states take effect, each with its event's place in the arbiter. -/
def State.tripStage (s : State) (c : FabCfg) (low cells : BitVec 256) : State :=
  let now := s.tripNow c
  if now = s.fab.trip then s
  else
    let ranks := c.tripRanks low cells
    let s1 := (List.finRange 12).foldl (fun t n =>
      if now.getLsbD n.val = s.fab.trip.getLsbD n.val then t
      else
        let u := { t with fab := { t.fab with arb := ranks.getD n.val 1000 } }
        if now.getLsbD n.val then u.tripRise c n else u.tripFall n) s
    { s1 with fab := { s1.fab with arb := 1000 } }

/-- The pulse on the cells of the records of a mask (R215). -/
def FabCfg.pulseOf (c : FabCfg) (mask : BitVec 12) : BitVec 256 :=
  (List.finRange 12).foldl (fun p n =>
    if mask.getLsbD n.val ∧ 256 ≤ (c.trip[n].trip).toNat then p ||| ((1 : BitVec 256) <<< ((c.trip[n].trip).toNat - 256))
    else p) 0

/-- The shadow's signals: the forced output holds the primary's value, so it reads as the opposite (R223). -/
def State.shadowLow (s : State) (x : ShadowSt) : BitVec 256 :=
  let low := s.sigsOf (boolBits _ (x.timer.toList.map TimerSt.out))
  if x.force.toNat < 256 then setBit low x.force.toNat (!s.sigs.getLsbD x.force.toNat) else low

/-- The shadow's clockless cells and trip stages settle, the forced cell apart. A shadow that does not settle holds its cells. -/
def State.shadowSettle (s : State) (c : FabCfg) (x : ShadowSt) : ShadowSt :=
  let low := s.shadowLow x
  let f := x.force.toNat - 256
  let cells := if x.force.toNat < 256 then c.cells else c.cells.filter (fun i => i.1.val != f)
  let q0 := if x.force.toNat < 256 then x.q else setBit x.q f (!s.fab.q.getLsbD f)
  let q := (settleCells cells low (c.pulseOf s.fab.pulse) 260 q0).getD q0
  let t := c.trips low q
  { x with q := q, trip := t, close := x.close &&& ~~~t }

/-- The fabric computes: the modes in which the core die runs, from the end of step 8 until a power-fail (R37, R231). -/
def State.fabOn (s : State) : Bool := s.running && s.mode.past8 && !s.mode.pf

/-- Clockless cells and trip stages settle under the trip-reset pulses in force, in both fabrics (R202, R658); cells: the cells whose
outputs have changed of themselves. A netlist that finds no stable values leaves its cells undefined: free values (log entry
8). -/
def State.settleWith (s : State) (cells : BitVec 256) : State :=
  match s.fabCfg with
  | none => s
  | some c =>
    if s.fabOn then
      let r : BitVec 256 × State := match settleCells c.cells s.sigs (c.pulseOf s.fab.pulse) 260 s.fab.q with
        | some q => (q, s)
        | none => s.freeBits 8
      let t := { r.2 with fab := { r.2.fab with q := r.1, low := s.sigs } }
      let u := { t with fab := { t.fab with shadow := t.fab.shadow.map (fun x => t.shadowSettle c x) } }
      u.tripStage c (s.sigs ^^^ s.fab.low) cells
    else s
def State.settle (s : State) : State := s.settleWith 0

/-- The close permit of feeder n (R217), and its false terms as CLOSE_REFUSED reports them. -/
def State.closeTerms (s : State) (c : FabCfg) (n : Fin 12) : Word :=
  bitAt (s.mode.mode ≠ .protect) 0 ||| bitAt (!s.fab.hire) 1 ||| bitAt (!s.sig c.prech) 2 |||
    bitAt (s.fab.trip.getLsbD n.val) 3
def State.permit (s : State) (c : FabCfg) (n : Fin 12) : Bool := s.closeTerms c n = 0

/-- Close state n at a tick edge (R216). -/
def State.closeTick (s : State) (c : FabCfg) (n : Fin 12) : State :=
  let now := s.sig c.trip[n].close
  let was := s.fab.closePrev.getLsbD n.val
  let idx := BitVec.ofNat 32 n.val
  let s1 := { s with fab := { s.fab with closePrev := setBit s.fab.closePrev n.val now } }
  if now && !was then
    if s.permit c n then
      (({ s1 with fab := { s1.fab with close := setBit s1.fab.close n.val true } }).evt R.fabEvt 2).sayRate 10000 n.val
        .fab 0x2304 idx 0 0 0
    else (s1.evt R.fabEvt 4).sayRate 10000 n.val .fab 0x2306 idx (s.closeTerms c n) 0 0
  else if !now && s.fab.close.getLsbD n.val then
    (({ s1 with fab := { s1.fab with close := setBit s1.fab.close n.val false } }).evt R.fabEvt 3).sayRate 10000 n.val
      .fab 0x2305 idx 0 0 0
  else s1

/-- The mode gate closes: every closed feeder opens, one that a trip of the same FABRIC tick has opened included (R216, R230;
04 R100). -/
def State.gateClose (s : State) : State :=
  (List.finRange 12).foldl (fun t n =>
    let same := t.fab.tripOpened.getLsbD n.val && t.fab.trip.getLsbD n.val &&
      (t.fab.tripDt[n]).toNat / 10 == t.time.dt.toNat / 10
    if t.fab.close.getLsbD n.val || same then
      (({ t with fab := { t.fab with close := setBit t.fab.close n.val false,
                                     tripOpened := setBit t.fab.tripOpened n.val false } }).evt R.fabEvt 3).sayRate 10000 n.val
        .fab 0x2305 (BitVec.ofNat 32 n.val) 1 0 0
    else t) s

/-- Word w of group g. -/
def State.setWord (s : State) (g : Fin 4) (w : Nat) : Word := s.fab.set[g].getD w 0

/-- One timer at a tick (R212). -/
def TimerSt.tick (t : TimerSt) (mode : BitVec 2) (p : Word) (start was reset : Bool) : TimerSt :=
  if reset then { cnt := 0, out := false }
  else
    let up := satInc t.cnt
    match mode.toNat with
    | 0 => if start then { cnt := up, out := decide (p ≤ up) } else { cnt := 0, out := false }
    | 1 =>
      if start then { cnt := 0, out := true }
      else if t.out then { cnt := up, out := decide (up < p) }
      else { cnt := 0, out := false }
    | _ =>
      if t.out then { cnt := up, out := decide (up ≤ p) }
      else if start && !was then { cnt := 1, out := decide (1 ≤ p) }
      else { cnt := 0, out := false }

/-- Every enabled timer of a fabric with these signals at a tick. -/
def State.timersTick (s : State) (c : FabCfg) (low q : BitVec 256) (x : Vector TimerSt 32) (prev : BitVec 32) :
    Vector TimerSt 32 :=
  Vector.ofFn (fun t =>
    if c.timer[t].en then
      (x[t]).tick c.timer[t].mode (s.setWord s.fab.group (112 + t.val)) (sigOf low q c.timer[t].start)
        (prev.getLsbD t.val) (sigOf low q c.timer[t].reset)
    else x[t])

/-- START_SIG of every timer. -/
def FabCfg.starts (c : FabCfg) (low q : BitVec 256) : BitVec 32 :=
  boolBits _ ((List.finRange 32).map (fun t => sigOf low q c.timer[t].start))

/-- The records of a mask that a trip-reset pulse acts on: LATCH 1 and EN 1 (R215). -/
def FabCfg.latchedMask (c : FabCfg) (mask : BitVec 12) : BitVec 12 :=
  boolBits _ ((List.finRange 12).map (fun n => mask.getLsbD n.val && c.trip[n].latch && c.trip[n].en))

/-- The latched trips among the trip states: records with LATCH 1, whose T is 1 (R214). -/
def FabCfg.latched (c : FabCfg) (trip : BitVec 12) : BitVec 12 :=
  boolBits _ ((List.finRange 12).map (fun n => trip.getLsbD n.val && c.trip[n].latch))

/-- The trip-reset pulses of a tick, from RESET_SIG and from FAB_TRIP_RST, and TRIP_RESET: those that cleared, those refused. The pulse
of a record that cleared lasts until the next tick; one entry reports a tick's pulses (R215, R229; log entry 83). -/
def State.tripResetTick (s : State) (c : FabCfg) (rose : BitVec 12) : State :=
  let a := c.latchedMask rose
  let m := a ||| c.latchedMask s.fab.rstReq
  let s0 := { s with fab := { s.fab with rstReq := 0, pulse := m } }
  if m = 0 then s0
  else
    let s1 := s0.settle
    let refused := m &&& s1.fab.trip
    let s2 := { s1 with fab := { s1.fab with pulse := m &&& ~~~refused } }
    s2.say .fab 0x2303 ((m &&& ~~~refused).setWidth 32) (refused.setWidth 32) (if a = 0 then 1 else 0) 0

/-- The BST signals at a tick: a level held for DEB + 1 ticks is taken (R213). -/
def State.bstTick (s : State) : State :=
  let run := s.fab.bstRun.map (fun n => min 256 (n + 1))
  let bst := boolBits _ ((List.finRange 12).map (fun n =>
    let cfg := s.reg (R.fabBstCfg n.val)
    if fldN cfg 0 8 + 1 ≤ run[n] then (s.fab.bstRaw.getLsbD n.val) ^^ bit cfg 8 else s.fab.bst.getLsbD n.val))
  { s with fab := { s.fab with bstRun := run, bst := bst } }

/-- Contactor drivers at a tick (R221, R222): the command, and the latch that clears while ON_SIG is 0. -/
def State.kdrvTick (s : State) (c : FabCfg) : State :=
  let on := boolBits _ ((List.finRange 4).map (fun d => c.kdrv[d].en && s.sig c.kdrv[d].on))
  let oc := s.fab.kdrvOc &&& on
  let cmd := on &&& ~~~oc
  { s with fab := { s.fab with kdrv := cmd, kdrvOc := oc, kdrvOpen := s.fab.kdrvOpen &&& cmd } }

/-- The current reports, every 10 us (R221): the coil current of a driver that is on is the outside world's, a free value; a driver
that is off reports 0 (log entry 84). -/
def State.kdrvReport (s : State) : State :=
  if s.time.dt.toNat % 1000 ≠ 0 then s
  else
    (List.finRange 4).foldl (fun t d =>
      let r : Word × State := if t.fab.kdrv.getLsbD d.val then t.free else (0, t)
      { r.2 with fab := { r.2.fab with kdrvMa := vput r.2.fab.kdrvMa d (r.1.setWidth 12) } }) s

/-- Values that MODE 1 cells of a fabric with these signals take at the coming edge: their inputs as they stand before it (R658). -/
def FabCfg.mode1Next (c : FabCfg) (low q : BitVec 256) : BitVec 256 :=
  c.cells.foldl (fun r x => if x.2.mode = 1 then setBit r x.1.val (x.2.lutOut low q) else r) 0

/-- The MODE 1 cells of the netlist. -/
def FabCfg.mode1Mask (c : FabCfg) : BitVec 256 :=
  c.cells.foldl (fun q x => if x.2.mode = 1 then setBit q x.1.val true else q) 0

/-- The inputs of the next edge are taken for MODE 1 cells, in both fabrics. -/
def State.edgePrepare (s : State) : State :=
  match s.fabCfg with
  | none => s
  | some c =>
    if s.fabOn then
      let sh := s.fab.shadow.map (fun x => { x with m1 := c.mode1Next (s.shadowLow x) x.q })
      { s with fab := { s.fab with m1 := c.mode1Next s.sigs s.fab.q, shadow := sh } }
    else s

/-- The hire permit as the Winter domain gives it (17). -/
def State.hirePermit (s : State) : Bool := s.use.permit

/-- The shadow at a tick edge, after the edge's first settling: timers, close states and MODE 1 cells as the primary's. -/
def State.shadowEdge (s : State) (c : FabCfg) (x : ShadowSt) : ShadowSt :=
  let low := s.shadowLow x
  let now := boolBits 12 ((List.finRange 12).map (fun n => sigOf low x.q c.trip[n].close))
  let ok := boolBits 12 ((List.finRange 12).map (fun n =>
    s.mode.mode == .protect && low.getLsbD 0xD0 && sigOf low x.q c.prech && !x.trip.getLsbD n.val))
  let mask := c.mode1Mask
  { x with timer := s.timersTick c low x.q x.timer x.startPrev, startPrev := c.starts low x.q, closePrev := now,
           close := (x.close &&& now) ||| (now &&& ~~~x.closePrev &&& ok), q := (x.q &&& ~~~mask) ||| (x.m1 &&& mask) }

/-- A mismatch of primary and shadow that has lasted two edges: entry and Safe, FAB_CMP, with the element's primary value (R223, R229). -/
def State.fabCmpEv (s : State) (elem : Nat) : State :=
  if s.safeDue 13 then s
  else
    (s.say .fab 0x8301 (BitVec.ofNat 32 elem) (bitAt (s.sig (BitVec.ofNat 10 elem)) 0) 0 0).latchSafe 13 (BitVec.ofNat 32 elem)

/-- Every element of the primary compared with the shadow's at an edge (R223): the first, by signal number, that differs at this edge and
the last one (log entry 85). -/
def State.compareFabrics (s : State) : State :=
  match s.fab.shadow with
  | none => s
  | some x =>
    let d : BitVec 512 := (s.sigs ^^^ s.shadowLow x).setWidth 512 ||| ((s.fab.q ^^^ x.q).setWidth 512 <<< 256)
    let t := { s with fab := { s.fab with shadow := some { x with differ := d } } }
    match (List.range 512).find? (fun n => (d &&& x.differ).getLsbD n) with
    | none => t
    | some n => t.fabCmpEv n

/-! Outputs and read-back. -/

/-- The SAFE_HIGH bits of an image. -/
def Image.safeHigh (i : Image) : BitVec 12 := boolBits _ ((List.finRange 12).map (fun n => i.fab.trip[n].safeHigh))

/-- The mode gate: open in Protect (04 R100). -/
def State.modeGate (s : State) : Bool := s.mode.mode == .protect && s.mode.coreOn && !s.mode.pf

/-- Feeders whose outputs are at the close level, TRPA by the primary and TRPB by the shadow (R218). -/
def State.closedOut (s : State) : BitVec 12 := if s.modeGate then s.fab.close &&& ~~~s.fab.trip else 0
def State.closedOutB (s : State) : BitVec 12 :=
  match s.fab.shadow with
  | none => s.closedOut
  | some x => if s.modeGate then x.close &&& ~~~x.trip else 0

/-- Trip outputs at high impedance (R219, 01 R37; 23 Table PIN-5, TP): with the core die unpowered; in a start until step 8 ends, where
no level is retained, and where the image being loaded asks for another level than the retained one. -/
def State.tripZ (s : State) : BitVec 12 :=
  if !s.mode.coreOn then BitVec.allOnes 12
  else if s.mode.past8 then 0
  else if !s.fab.safeValid then BitVec.allOnes 12
  else if s.mode.mode == .safe || s.mode.pf then 0
  else match s.cfg.img with
    | none => 0
    | some i => i.safeHigh ^^^ s.fab.safeLvl

/-- The feeders of the part. -/
def State.feederMask (s : State) : BitVec 12 := BitVec.ofNat 12 (2 ^ s.part.feeders - 1)

/-- Levels commanded at the pins: TRPA n at n, TRPB n at 12 + n, KDRV d at 24 + d. The close level is the opposite of the open
level, which is the safe level (R218, R219). -/
def State.commanded (s : State) : BitVec 28 :=
  ((s.closedOut ^^^ s.fab.safeLvl) &&& s.feederMask).setWidth 28 |||
    ((((s.closedOutB ^^^ s.fab.safeLvl) &&& s.feederMask).setWidth 28) <<< 12) ||| (s.fab.kdrv.setWidth 28 <<< 24)

/-- Levels at the pins: as commanded but where a pin does not follow, or is at high impedance and held by the board. -/
def State.pins (s : State) : BitVec 28 :=
  let z := (s.tripZ &&& s.feederMask).setWidth 28 ||| ((s.tripZ &&& s.feederMask).setWidth 28 <<< 12)
  let float : BitVec 28 := boolBits 28 ((List.range 24).map Config.floatPin)
  if z = 0 then s.commanded ^^^ s.fab.rbBad else ((s.commanded ^^^ s.fab.rbBad) &&& ~~~z) ||| (float &&& z)

/-- Levels read back: SAF_INJ target 2 inverts TRPB0's (20 Table SAF-4). -/
def State.readBack (s : State) : BitVec 28 := if s.saf.inj.getLsbD 2 then s.pins ^^^ 0x1000 else s.pins

/-- Output i of the read-back as READBACK numbers it (Table FAB-5). -/
def rbNumber (i : Nat) : Nat := if i < 12 then i else if i < 24 then i + 4 else i + 8

/-- A read-back mismatch that has lasted: entry and Safe, READBACK (R224, R229). -/
def State.readbackFault (s : State) (i : Nat) : State :=
  if s.safeDue 14 then s
  else
    let cmd := s.commanded.getLsbD i
    (s.say .fab 0x8302 (BitVec.ofNat 32 (rbNumber i)) (bitAt cmd 0) (bitAt (!cmd) 0) 0).latchSafe 14 (BitVec.ofNat 32 (rbNumber i))

/-- The comparison at a tick (R224): suspended for 20 ticks from a commanded change, a fault at the tenth tick of mismatch. -/
def State.readbackTick (s : State) : State :=
  let cmd := s.commanded
  let rd := s.readBack
  let age : Vector Nat 28 := Vector.ofFn (fun i =>
    if cmd.getLsbD i.val = s.fab.rbCmd.getLsbD i.val then min 20 (s.fab.rbAge[i] + 1) else 0)
  let run : Vector Nat 28 := Vector.ofFn (fun i =>
    if 20 ≤ age[i] ∧ cmd.getLsbD i.val ≠ rd.getLsbD i.val then min 10 (s.fab.rbRun[i] + 1) else 0)
  let t := { s with fab := { s.fab with rbCmd := cmd, rbAge := age, rbRun := run } }
  match (List.range 28).find? (fun i => 10 ≤ run.getD i 0) with
  | none => t
  | some i => t.readbackFault i

/-- The fabric's signals as this tick leaves them, kept while they have changed within the last 30 ticks (02 R41). -/
def State.notePast (s : State) : State :=
  if !(s.mode.coreOn && s.mode.past8) then s
  else
    let f := s.fab
    let x : FabSnap := { dt := s.time.dt, low := s.sigs, q := f.q, trip := f.trip, close := f.close, group := f.group,
                         gate := s.modeGate }
    match f.past with
    | [] => { s with fab := { f with past := [x] } }
    | y :: _ =>
      if x = { y with dt := s.time.dt } then s
      else
        let old := f.past.dropWhile (fun z => decide ((s.time.dt - z.dt).toNat < 30))
        let new := f.past.takeWhile (fun z => decide ((s.time.dt - z.dt).toNat < 30))
        { s with fab := { f with past := x :: new ++ old.take 1 } }

/-- The fabric's signals as it held them 30 ticks before this instant or earlier (10 R267, R280); before the fabric is as old as that,
the oldest it has held. -/
def State.fabView (s : State) : FabSnap :=
  let now : FabSnap :=
    { dt := s.time.dt, low := s.sigs, q := s.fab.q, trip := s.fab.trip, close := s.fab.close, group := s.fab.group, gate := s.modeGate }
  match s.fab.past.find? (fun z => decide (z.dt.toNat + 30 ≤ s.time.dt.toNat)) with
  | some z => z
  | none => (s.fab.past.getLast?).getD now

/-- A timer's count reaches its preset (R212): the on-delay output rises, the off-delay or pulse output falls. The timer
must be timing: started for an on-delay with its output 0, not started for an off-delay with its output 1, its output 1
for a pulse. -/
def State.timerExpiry (s : State) (t : Fin 32) : State :=
  match s.fabCfg with
  | none => s
  | some c =>
    let r := c.timer[t]
    let p := s.setWord s.fab.group (112 + t.val)
    let st := s.sig r.start
    let x := s.fab.timer[t]
    let put (y : TimerSt) : State := ({ s with fab := { s.fab with timer := vput s.fab.timer t y } }).settle
    if !(s.fabOn && r.en) || s.sig r.reset then s
    else
      match r.mode.toNat with
      | 0 => if st && !x.out then put { cnt := p, out := true } else s
      | 1 => if !st && x.out then put { cnt := p, out := false } else s
      | _ => if x.out then put { cnt := satInc p, out := false } else s

/-- A threshold of a unit: its word's 24-bit value. -/
def thValue (w : Word) : Int := (w.setWidth 24).toInt

/-- One threshold unit's signal after an output (R205). -/
def TuCfg.eval (c : TuCfg) (th data : Int) (was : Bool) : Bool :=
  let x := if c.abs then (data.natAbs : Int) else data
  let d : Int := ((th.natAbs / 32 : Nat) : Int)
  if c.below then (if x < th then true else if th + d ≤ x then false else was)
  else (if th < x then true else if x ≤ th - d then false else was)

/-- Constants of a curve of Table FAB-4: k and c in units of 1/10,000, twice alpha in units of 1/100 of 2 (0: alpha is
0.02), reset time in units of 1/100 s. -/
def curveK : Nat → Nat × Nat × Nat × Nat
  | 1 => (1400, 0, 0, 0)
  | 2 => (135000, 0, 1, 0)
  | 3 => (800000, 0, 2, 0)
  | 4 => (1200000, 0, 1, 0)
  | 5 => (515, 1140, 0, 485)
  | 6 => (196100, 4910, 2, 2160)
  | _ => (282000, 1217, 2, 2910)

/-- Largest x below 2^n with x^50 at most v. -/
def root50 (v : Nat) : Nat → Nat → Nat
  | 0, x => x
  | n + 1, x => if (x + 2 ^ n) ^ 50 ≤ v then root50 v n (x + 2 ^ n) else root50 v n x

/-- M^alpha - 1 for M = a/b, as a fraction; for alpha = 0.02 with 96 fractional bits. -/
def powM1 (alpha a b : Nat) : Nat × Nat :=
  match alpha with
  | 0 => (root50 (a * 2 ^ 4800 / b) 98 0 - 2 ^ 96, 2 ^ 96)
  | 1 => (a - b, b)
  | _ => (a * a - b * b, b * b)

/-- Unity of an accumulator. -/
def unity : Nat := 2 ^ 44

/-- round(2^44 * T_s / t(M)), M = a/b at or above 1.05, period in modulator clocks, TMS in units of 0.001 (R209). -/
def curveInc (curve period tms a b : Nat) : Nat :=
  match curveK curve with
  | (k, c, alpha, _) =>
    let g := powM1 alpha a b
    let num := unity * period * 10000000 * g.1
    let den := 10240000 * tms * (k * g.2 + c * g.1)
    if den = 0 then unity else (2 * num + den) / (2 * den)

/-- round(2^44 * T_s / t_r(M')), M' = min(M, 0.99) (R210, RESET 2). -/
def curveDec (curve period tms a b : Nat) : Nat :=
  let tr := (curveK curve).2.2.2
  let ab := if 99 * b ≤ 100 * a then (99, 100) else (a, b)
  let num := unity * period * 100000 * (ab.2 * ab.2 - ab.1 * ab.1)
  let den := 10240000 * tms * tr * (ab.2 * ab.2)
  if den = 0 then unity else (2 * num + den) / (2 * den)

/-- One integrator after an output it evaluates (R208 to R211): |DATA|, the output's stamp, its period, and the four
settings words. -/
def IntegSt.eval (x : IntegSt) (absData : Nat) (stamp : DWord) (period : Nat) (w0 w1 w2 w3 : Word) : IntegSt :=
  let hist := (absData :: x.hist).take 64
  let n := min (2 ^ fldN w0 8 3) hist.length
  let sum := (hist.take n).foldl (· + ·) 0
  let b := n * fldN w1 0 24
  let a := if 40 * b < sum then 40 * b else sum
  let curve := fldN w0 0 4
  let tms := fldN w2 0 16
  if curve = 0 then { x with hist := hist, started := false, operate := false, acc := 0, fell := none }
  else if curve = 8 then
    let h : Int := x.acc
    let num : Int := (a * a * unity : Nat) - h * (b * b : Nat)
    let dn : Int := (b * b * 10240000 * tms : Nat)
    let step := (2 * num * (period : Int) + dn) / (2 * dn)
    let acc := min (2 ^ 46) (h + step).toNat
    { x with hist := hist, acc := acc, started := decide (fldN w3 16 10 * 2 ^ 34 ≤ acc),
             operate := if unity ≤ acc then true else if acc < 31 * 2 ^ 39 then false else x.operate, fell := none }
  else
    let acc0 := min unity x.acc
    let started := if 105 * b ≤ 100 * a then true else if a < b then false else x.started
    if started then
      let acc := if 105 * b ≤ 100 * a then min unity (acc0 + curveInc curve period tms a b) else acc0
      { x with hist := hist, started := true, acc := acc, operate := decide (acc = unity), fell := none }
    else
      let fell := match x.fell with
        | none => stamp
        | some f => f
      let acc := match fldN w0 4 2 with
        | 0 => 0
        | 1 => if 100000 * fldN w3 0 16 ≤ (stamp - fell).toNat then 0 else acc0
        | _ => acc0 - curveDec curve period tms a b
      { x with hist := hist, started := false, acc := acc, operate := decide (acc = unity), fell := some fell }

/-- The last output of chain k taken by its threshold units and integrators (R205 to R211); the outputs of a cold start before step 10 has
ended act on none (06 R181; log entry 55). -/
def State.evalOutput (s : State) (k : Fin 16) : State :=
  match s.fabCfg, s.chainCfg k with
  | some c, some ch =>
    let w := s.chain[k].out
    let s0 := { s with chain := vmod s.chain k (fun st => { st with due := false }) }
    if (bit w 31 && !bit w 30) || !s.mode.past10 then s0
    else
      let data := thValue w
      let tu := (List.finRange 64).foldl (fun t u =>
        if c.tu[u].en && c.tu[u].chain == k then
          setBit t u.val ((c.tu[u]).eval (thValue (s.setWord s.fab.group u.val)) data (t.getLsbD u.val))
        else t) s.fab.tu
      let integ := Vector.ofFn (fun i =>
        if c.integ[i].en && c.integ[i].chain == k then
          let o := 64 + 4 * i.val
          let w (j : Nat) := s.setWord s.fab.group (o + j)
          (s.fab.integ[i]).eval data.natAbs s.chain[k].stamp ch.period (w 0) (w 1) (w 2) (w 3)
        else s.fab.integ[i])
      { s0 with fab := { s0.fab with tu := tu, integ := integ } }
  | _, _ => s

/-- Chain k's last output is due at this instant: it has not been evaluated, and this is a FABRIC tick with DT at or past its stamp + 30
(02 R41). -/
def State.evalDue (s : State) (k : Fin 16) : Bool :=
  s.fabOn && s.chain[k].due && decide (s.time.dt.toNat % 10 = 0) && decide (s.chain[k].stamp.toNat + 30 ≤ s.time.dt.toNat)

/-- THRESHOLD_EVALUATION (R205): at its tick the output is evaluated, then the fabric settles. -/
def State.evalChain (s : State) (k : Fin 16) : State := if s.evalDue k then (s.evalOutput k).settle else s

/-- A FABRIC tick edge (R658): outputs due, BST signals and hire permit, settling, trip-reset pulses, then timers, close states and
drivers on the settled values, MODE 1 cells on the values before the edge, and settling again; then the comparisons. -/
def State.fabEdge (s : State) : State :=
  match s.fabCfg with
  | none => s
  | some c =>
    if s.fabOn then
      let a := (List.finRange 16).foldl (fun t k => if t.evalDue k then t.evalOutput k else t) s.bstTick
      let s1 := ({ a with fab := { a.fab with hire := s.hirePermit, pulse := 0 } }).settle
      let rs := boolBits _ ((List.finRange 12).map (fun n => s1.sig c.trip[n].reset))
      let s2 := ({ s1 with fab := { s1.fab with resetPrev := rs } }).tripResetTick c (rs &&& ~~~s.fab.resetPrev)
      let timers := s2.timersTick c s2.sigs s2.fab.q s2.fab.timer s.fab.startPrev
      let start := c.starts s2.sigs s2.fab.q
      let sh := s2.fab.shadow.map (fun x => s2.shadowEdge c x)
      let s3 := (((List.finRange 12).foldl (fun t n => t.closeTick c n) s2).kdrvTick c).kdrvReport
      let m := c.mode1Mask
      let q := (s3.fab.q &&& ~~~m) ||| (s.fab.m1 &&& m)
      let s4 := ({ s3 with fab := { s3.fab with timer := timers, startPrev := start, q := q, shadow := sh } }).settleWith (q ^^^ s3.fab.q)
      s4.compareFabrics.readbackTick
    else s

/-- An integrator's four settings words are permitted (Table FAB-3, R207). -/
def integOk (w0 w1 w2 w3 : Word) : Bool :=
  let curve := fldN w0 0 4
  let reset := fldN w0 4 2
  let tms := fldN w2 0 16
  let p := fldN w1 0 24
  decide (w0 &&& 0xFFFFF8C0 = 0) && decide (w1 &&& 0xFF000000 = 0) && decide (w2 &&& 0xFFFF0000 = 0) &&
    decide (w3 &&& 0xFC000000 = 0) && decide (curve ≤ 8) &&
    (decide (curve = 0) ||
      (decide (fldN w0 8 3 ≤ 6) && decide (1 ≤ p ∧ p ≤ 8388607) &&
        (if curve = 8 then decide (1 ≤ tms)
         else decide (1 ≤ tms ∧ tms ≤ 15000) && decide (reset ≤ 1 ∨ (reset = 2 ∧ 5 ≤ curve)))))

/-- Word w of a group may take the value v, the group's other words being ws (R207, R657). -/
def settingOk (ws : List Word) (w : Nat) (v : Word) : Bool :=
  if w < 64 then decide ((v.setWidth 24).signExtend 32 = v)
  else if w < 112 then
    let o := w / 4 * 4
    let g (j : Nat) : Word := if o + j = w then v else ws.getD (o + j) 0
    integOk (g 0) (g 1) (g 2) (g 3)
  else if w < 152 then true
  else decide (w < 160 ∧ v = 0)

/-- CRC-32C of a group's 640 bytes. -/
def groupCrc (ws : List Word) : Word := crc32c (ws.flatMap bytesLE)

/-- A settings word of an inactive group written, or denied (R207, R228, R657). -/
def State.settingWrite (s : State) (g : Fin 4) (w : Nat) (v : Word) : State :=
  if g ≠ s.fab.group ∧ w < 160 ∧ settingOk s.fab.set[g] w v then
    let ws := (s.fab.set[g]).set w v
    { s with fab := { s.fab with set := vput s.fab.set g ws, crc := vput s.fab.crc g (groupCrc ws) } }
  else s.evt R.fabEvt 7

/-- FAB_SET_DATA written (R228). -/
def State.setDataWrite (s : State) (v : Word) : State :=
  let sel := s.reg R.fabSetSel
  if s.mode.mode = .service then s.settingWrite (fin 3 (fldN sel 0 2)) (fldN sel 8 8) v else s.evt R.fabEvt 7

/-- A group switch at a commit (R226, R227): integrators whose new curve is 0 are off. -/
def State.groupSwitch (s : State) (g : Fin 4) (src : Word) : State :=
  if g = s.fab.group then s
  else
    let integ := Vector.ofFn (fun i =>
      if fldN (s.setWord g (64 + 4 * i.val)) 0 4 = 0 then { s.fab.integ[i] with started := false, operate := false }
      else s.fab.integ[i])
    let s1 := { s with fab := { s.fab with group := g, integ := integ } }
    (s1.evt R.fabEvt 5).say .fab 0x2307 (BitVec.ofNat 32 s.fab.group.val) (BitVec.ofNat 32 g.val) src 0

/-- FAB_GRP_REQ written (R227). -/
def State.grpReqWrite (s : State) (v : Word) : State :=
  let s1 := s.setReg R.fabGrpReq (v &&& 3)
  if bit v 31 then { s1 with fab := { s1.fab with grpReq := some (fin 3 (fldN v 0 2)) } } else s1

/-- FAB_BST_CFG written (R213). -/
def State.bstCfgWrite (s : State) (n : Fin 12) (v : Word) : State :=
  if s.readyOrService then s.setReg (R.fabBstCfg n.val) (v &&& 0x1FF) else s.evt R.fabEvt 7

/-- A BST pin level that has held for DEB + 1 ticks (R213). -/
def State.bstChange (s : State) (n : Fin 12) (level : Bool) : State :=
  let cfg := s.reg (R.fabBstCfg n.val)
  let s1 := { s with fab := { s.fab with bstRaw := setBit s.fab.bstRaw n.val level,
                                         bstRun := vput s.fab.bstRun n (fldN cfg 0 8 + 1) } }
  if s.fabOn then ({ s1 with fab := { s1.fab with bst := setBit s1.fab.bst n.val (level ^^ bit cfg 8) } }).settle else s1

/-- FAB_TRIP_RST written (R215): the pulse comes at the first FABRIC tick after the write. -/
def State.tripRstWrite (s : State) (v : Word) : State :=
  match s.fabCfg with
  | none => s
  | some c =>
    if fld v 16 16 = 0x7E51 ∧ s.fabOn then
      { s with fab := { s.fab with rstReq := s.fab.rstReq ||| c.latchedMask (fld v 0 12) } }
    else s

/-- Driver d exceeds 1.6 A for 10 us (R222). -/
def State.kdrvOcEv (s : State) (d : Fin 4) (ma : BitVec 12) : State :=
  if s.fab.kdrv.getLsbD d.val then
    let s1 := { s with fab := { s.fab with kdrv := setBit s.fab.kdrv d.val false,
                                           kdrvOc := setBit s.fab.kdrvOc d.val true,
                                           kdrvMa := vput s.fab.kdrvMa d ma } }
    (s1.evt R.fabEvt 6).sayRate 1000000 d.val .fab 0x2308 (BitVec.ofNat 32 d.val) (ma.setWidth 32) 0 0
  else s

/-- Driver d stays below 20 mA for 1 ms while it is on (R222). -/
def State.kdrvOpenEv (s : State) (d : Fin 4) (ma : BitVec 12) : State :=
  if s.fab.kdrv.getLsbD d.val then
    let s1 := { s with fab := { s.fab with kdrvOpen := setBit s.fab.kdrvOpen d.val true,
                                           kdrvMa := vput s.fab.kdrvMa d ma } }
    (s1.evt R.fabEvt 6).sayRate 100000000 d.val .fab 0x2309 (BitVec.ofNat 32 d.val) 0 0 0
  else s

/-- The DAC codes of comparator m in the active group: high, low (R226, 06 R172). -/
def State.dacCodes (s : State) (m : Fin 8) : Int × Int :=
  let w := s.setWord s.fab.group (144 + m.val)
  (fldN w 0 10, fldN w 16 10)

/-- What cell c of comparator m switches to with V at uv microvolts (06 R171): c below 2 the high threshold, from 2 the low. A threshold
is (code - 512) * 2343.75 uV, the hysteresis 2 mV * HYST; the comparison is in quarters of a microvolt. -/
def State.cellLevel (s : State) (m : Fin 8) (uv : Int) (c : Nat) (was : Bool) : Bool :=
  let d := s.dacCodes m
  let h : Int := 8000 * (fldN s.afe.cmpCtl[m] 0 4 : Nat)
  let x := 4 * uv
  if c < 2 then
    let th := (d.1 - 512) * 9375
    if th < x then true else if x < th - h then false else was
  else
    let th := (d.2 - 512) * 9375
    if x < th then true else if th + h < x then false else was

/-- The input of comparator m stands at uv microvolts: its cells switch, but for those stuck asserted and those stuck deasserted, and the
fabric settles (06 R171, R174). -/
def State.crossing (s : State) (m : Fin 8) (uv : Int) (stuck1 stuck0 : BitVec 4) : State :=
  let cells := (List.range 4).foldl (fun (x : BitVec 32) c =>
    let i := 4 * m.val + c
    setBit x i ((s.cellLevel m uv c (s.afe.cells.getLsbD i) || stuck1.getLsbD c) && !stuck0.getLsbD c)) s.afe.cells
  ({ s with afe := { s.afe with cells := cells } }).settle

/-- Which read-back output a number of Table FAB-5 names on the part. -/
def State.rbIndex (s : State) (out : Fin 36) : Option Nat :=
  let o := out.val
  if o < s.part.feeders then some o
  else if 16 ≤ o ∧ o < 16 + s.part.feeders then some (o - 4)
  else if 32 ≤ o then some (o - 8)
  else none

/-- READBACK: the pin of an output has not followed its command for as long as R224 allows. -/
def State.readbackEv (s : State) (i : Nat) : State :=
  if s.fabOn then ({ s with fab := { s.fab with rbBad := setBit s.fab.rbBad i true } }).readbackFault i else s

/-- A settings word upset in the primary's copy of a group, or (the CRC of that copy stays good) in the shadow's. -/
def State.settingUpset (s : State) : Option (Bool × Fin 4 × Fin 160 × Word) → State
  | some (true, g, w, x) => { s with fab := { s.fab with set := vmod s.fab.set g (fun l => l.set w.val (l.getD w.val 0 ^^^ x)) } }
  | _ => s

/-- The 1 ms settings CRC check (R225, R229): the first group whose CRC differs in either fabric, with the CRC that the primary's copy
now gives. -/
def State.setCrcCheck (s0 : State) (upset : Option (Bool × Fin 4 × Fin 160 × Word)) : State :=
  if !s0.fabOn then s0
  else
    let s := s0.settingUpset upset
    let sh (g : Fin 4) : Bool := match upset with
      | some (false, h, _, x) => g == h && x != 0
      | _ => false
    match (List.finRange 4).find? (fun g => groupCrc s.fab.set[g] != s.fab.crc[g] || sh g) with
    | none => s
    | some g =>
      if s.safeDue 13 then s
      else
        (s.say .fab 0x8301 (BitVec.ofNat 32 (0x3F0 + g.val)) (groupCrc s.fab.set[g]) 0 0).latchSafe 13 (BitVec.ofNat 32 (0x3F0 + g.val))

/-- SAF_INJ target 1 (20 Table SAF-4): one shadow element output takes the primary's value, and the shadow computes on with it. Which
element is not stated: a free value (log entry 85). -/
def State.forceShadow (s : State) : State :=
  let r := s.free
  let f := r.2.fab
  if !s.fabOn then s
  else
    let e := 8 + r.1.toNat % 504
    let x : ShadowSt := { force := BitVec.ofNat 10 e, q := f.q, m1 := f.m1, timer := f.timer, startPrev := f.startPrev,
                          trip := f.trip, close := f.close, closePrev := f.closePrev, differ := 0 }
    ({ r.2 with fab := { f with shadow := some x } }).settle

/-- The fabric configured from the loaded image (R231, R219): the primary, and the shadow as its complement; everything zero, group
DEFAULT_GROUP, CRC baselines, FAB_SAFE_LVL. -/
def State.fabConfigure (s : State) (img : Image) : State :=
  let f := { FabSt.reset with set := img.settings, crc := img.settings.map groupCrc, group := img.defGroup,
                              safeLvl := img.safeHigh, safeValid := true, rbAge := Vector.replicate 28 0,
                              trip := boolBits _ ((List.finRange 12).map (fun n => !img.fab.trip[n].en)), bstRaw := s.fab.bstRaw,
                                hire := s.hirePermit }
  { s with fab := f }

end Sys2Proof.Machine
end

