-- ==== Sys2Proof/Machine/Monitor.lean ====
section
/-! DEFINITION. Clock monitors, crossings and bridge (01, 02), safety monitor, degraded operation, window watchdog and
fault injection (20). -/

namespace Sys2Proof.Machine

/-- Registers of ISL and SAF. -/
def R.cmonWarn : Nat := 0x00010030
def R.cmonCnt (n : Nat) : Nat := 0x00010040 + 4 * n
def R.safAlarm : Nat := 0x00130004
def R.safDegCfg : Nat := 0x0013000C
def R.safEvt : Nat := 0x00130050

/-! Clocks. -/

/-- The RTC becomes coarse (02 R65, R66) in this RTC tick; kind 0 crystal stop, 1 out of limit. The entry comes before the coarse
state. A crystal that stops when the RTC is coarse already still leaves the RTC on the fallback. -/
def State.rtcCoarse (s : State) (kind : Word) (fallback : Bool) : State :=
  if s.time.coarse && (!fallback || s.time.rcFallback) then s
  else
    let s1 := s.sayWnt 0x7104 kind 0 0 0
    { s1 with time := { s1.time with coarse := true, coarseAt := if s.time.coarse then s.time.coarseAt else s.time.rtct,
                                     rcFallback := s.time.rcFallback || fallback } }

/-- The count of a window lies outside n per 10,000 of the expected count. -/
def outside (count expect n : Nat) : Bool :=
  decide (expect * n < 10000 * (if expect ≤ count then count - expect else expect - count))

/-- Outside the warning limit and outside the fault limit (02 Table TIME-6); FIELD has no monitor. -/
def State.clkLimits (s : State) (island : Fin 8) (count : Nat) : Bool × Bool :=
  match island.val with
  | 0 => (outside count 30000 100, outside count 30000 200)
  | 1 => (outside count 40000 100, outside count 40000 200)
  | 2 => (outside count 8192 100, outside count 8192 200)
  | 3 => (count != 1000, decide (count < 999 ∨ 1001 < count))
  | 4 =>
    let e := match s.cfg.img with
      | none => 20000
      | some i => if i.periphHalf then 10000 else 20000
    (outside count e 100, outside count e 200)
  | 5 => (outside count 10000 500, outside count 10000 800)
  | 7 => (outside (4 * count) 390625 5, outside (4 * count) 390625 10)
  | _ => (false, false)

/-- CLK_FAULT and Safe, CLOCK (R61), once (11 Table LOG-4). -/
def State.clkFault (s : State) (island : Fin 8) (count : Word) : State :=
  if s.safeDue 5 then s
  else (s.say .clkmon 0x8002 (BitVec.ofNat 32 island.val) count 0 0).latchSafe 5 (BitVec.ofNat 32 island.val)

/-- The count of an island's window judged against the warning limit (R60): what ISL_CMON_CNT, ISL_STAT.CLKOK and ISL_CMON_WARN show, and
the entry. CLKOK is 0 for an island that has completed no window, and for FIELD, which no monitor counts (log entry 77). -/
def State.clkJudge (s : State) (island : Fin 8) (count : Nat) : State :=
  let lim := s.clkLimits island count
  let was := bit (s.reg R.cmonWarn) island.val
  let s1 := s.setReg (R.cmonCnt island.val) (BitVec.ofNat 32 (count % 2 ^ 24))
  let s2 := { s1 with time := { s1.time with clkOk := setBit s1.time.clkOk island.val (!lim.1),
                                             clkOver := setBit s1.time.clkOver island.val lim.2 } }
  if lim.1 && !was then
    (s2.evt R.cmonWarn island.val).say .clkmon 0x8001 (BitVec.ofNat 32 island.val) (BitVec.ofNat 32 count) 0 0
  else s2

/-- A monitor window ends (R59 to R61); the injected clock fault makes CORE's count 0 (20 R567, log entry 38). WINTER's window is
the spacing of sync pairs. -/
def State.clkWindow (s : State) (island : Fin 8) (count0 : Nat) : State :=
  if !s.mode.coreOn || !s.time.pwr.getLsbD island.val || decide (6 ≤ island.val) then s
  else
    let count := if island = 0 ∧ s.saf.inj.getLsbD 6 then 0 else count0
    let s1 := s.clkJudge island count
    if (s.clkLimits island count).2 && s.time.clkOver.getLsbD island.val then s1.clkFault island (BitVec.ofNat 32 count) else s1

/-- A PLL loses lock (R61); FIELD and WINTER have none. -/
def State.pllUnlock (s : State) (island : Fin 8) : State :=
  if s.mode.coreOn && s.time.pwr.getLsbD island.val && decide (island.val < 6) then s.clkFault island 0xFFFFFFFF else s

/-- DT_FAULT (R63): a core-die island. -/
def State.dtFault (s : State) (island : Fin 8) : State :=
  if s.mode.coreOn && s.time.pwr.getLsbD island.val && decide (island.val < 5) && !s.safeDue 6 then
    (s.say .clkmon 0x8003 (BitVec.ofNat 32 island.val) 0 0 0).latchSafe 6 (BitVec.ofNat 32 island.val)
  else s

/-- XING (R64); the row of Table TIME-3. -/
def State.xing (s : State) (row : Fin 12) : State :=
  if s.mode.coreOn && !s.safeDue 7 then
    (s.say .clkmon 0x8004 (BitVec.ofNat 32 row.val) 0 0 0).latchSafe 7 (BitVec.ofNat 32 row.val)
  else s

/-- A handshake channel of the bridge (01 Table ARCH-1). -/
def bridgeHandshake : BridgeCh → Bool
  | .sar | .rb | .reg | .win => true
  | _ => false

/-- BRIDGE (01 R35). -/
def State.bridgeTimeout (s : State) (ch : BridgeCh) : State :=
  if s.mode.coreOn && bridgeHandshake ch then s.latchOpen 3 else s

/-- CORE_LOST (01 R36). -/
def State.coreLost (s : State) : State := if s.mode.coreOn then s.latchOpen 4 else s

/-- No XRTC edge for 1 ms (R65), once the first edge has been seen (24 R650). -/
def State.crystalStop (s : State) : State :=
  if s.time.xrtcSeen && !s.time.rcFallback then s.rtcCoarse 0 true else s

/-- No first edge within 2 s of a Winter power-on: as a crystal stop. -/
def State.xrtcTimeout (s : State) : State :=
  if !s.time.xrtcSeen && !s.time.rcFallback then s.rtcCoarse 0 true else s

/-- The first XRTC edge (24 R650): RTCT counts from it, 0 at the edge. -/
def State.firstXrtc (s : State) : State :=
  if s.time.xrtcSeen then s
  else
    { s with time := { s.time with xrtcSeen := true, rtct := 0, phase := 0,
                                   edgeDt := if s.time.run then some s.time.dt else none } }

/-- A sync pair (02 R48): RTCT, a multiple of 32, and DT at the RTC edge that gave it. From the second pair on its distance from the pair
before is WINTER's monitor window (Table TIME-6, R66). -/
def State.syncPair (s : State) : State :=
  match s.time.edgeDt with
  | none => s
  | some d =>
    if s.time.run && s.time.rtct.toNat % 32 == 0 && (!s.time.synced || s.time.rtct != s.time.syncRtc) then
      let t := { s with time := { s.time with syncRtc := s.time.rtct, syncDt := d, synced := true } }
      if s.time.synced && s.time.rtct == s.time.syncRtc + 32 then
        let n := (d - s.time.syncDt).toNat
        let u := t.clkJudge 7 n
        if (t.clkLimits 7 n).2 then u.rtcCoarse 1 false else u
      else t
    else s

/-! Safety monitor. -/

/-- What an alarm makes the monitor do (Table SAF-2): 0 none, 1 degraded, 2 Safe. -/
def State.alarmReact (s : State) (a ch : Nat) : Nat × State :=
  let k := fin 15 ch
  if a = 2 then
    match s.saf.deg with
    | some _ => (1, s)
    | none => (1, ({ s with saf := { s.saf with deg := some (s.time.dt, fldN (s.reg R.safDegCfg) 0 7) } }).evt R.safEvt 1)
  else if a = 3 then
    let recent := s.time.dt :: (s.saf.parity[k].filter (fun t => decide (s.since t ≤ 100000000)))
    let s1 := { s with saf := { s.saf with parity := vput s.saf.parity k recent } }
    if 3 ≤ recent.length then (2, s1.latchSafe 16 3) else (0, s1)
  else (2, s.latchSafe 16 (BitVec.ofNat 32 a))

/-- SAF_ALARM: the oldest alarm reaches the monitor (R559, R568). -/
def State.safAlarm (s : State) : State :=
  match s.saf.raised with
  | [] => s
  | (a, ch) :: t =>
    if !s.mode.coreOn then s
    else
      let r := ({ s with saf := { s.saf with raised := t } }).alarmReact a ch
      ((r.2.evt R.safAlarm a).evt R.safEvt 0).sayRate 100000 a .safmon 0x8501 (BitVec.ofNat 32 a) (BitVec.ofNat 32 ch)
        (BitVec.ofNat 32 r.1) 0

/-- AFE_CMP_STAT.DEGRADED. -/
def State.degraded (s : State) : BitVec 8 :=
  boolBits 8 ((List.range 8).map (fun m => s.afe.cellOut.extractLsb' (4 * m) 4 != 0))

/-- The degraded-operation timer expires, its hours having passed (R560; at the RC's nominal rate, log entry 39). -/
def State.degLimit (s : State) : State :=
  match s.saf.deg with
  | none => s
  | some (d, h) =>
    if s.mode.coreOn && decide (360000000000 * h ≤ s.since d) then
      (({ s with saf := { s.saf with deg := none } }).say .safmon 0x8503 (s.degraded.setWidth 32) (BitVec.ofNat 32 h) 0
        0).latchSafe 16 2
    else s

/-- The monitor's channels disagree for 10 µs (R572): entry and alarm MON, once (Table SAF-5). -/
def State.monMismatch (s : State) (a b : Word) : State :=
  if s.mode.coreOn && !bit (s.reg R.safAlarm) 7 && !s.saf.raised.any (fun x => x.1 == 7) then
    (({ s with saf := { s.saf with monOk := false } }).say .safmon 0x8506 a b 0 0).raiseSaf 7 0
  else s

/-- SAF_DEG_CFG written. -/
def State.degCfgWrite (s : State) (v : Word) : State :=
  if s.mode.mode = .service ∧ 1 ≤ fldN v 0 7 ∧ fldN v 0 7 ≤ 72 then s.setReg R.safDegCfg (v &&& 0x7F) else s.evt R.safEvt 3

/-! Window watchdog. It counts on the FIELD RC, here at its nominal rate (log entry 39). -/

/-- DT ticks since E last restarted, and E in units of 100 µs. -/
def State.wdtTicks (s : State) : Nat :=
  match s.saf.pause with
  | none => s.since s.saf.kickDt
  | some t => (t - s.saf.kickDt).toNat
def State.wdtE (s : State) : Nat := min (s.wdtTicks / 10000) 4095

/-- The watchdog is held: before the first scan of a start, or by a debug halt (R566). -/
def State.wdtHeld (s : State) : Bool := s.saf.held || s.saf.pause.isSome

/-- A debug halt begins or ends: E stands while it lasts. -/
def State.wdtPause (s : State) (on : Bool) : State :=
  match on, s.saf.pause with
  | true, none => { s with saf := { s.saf with pause := some s.time.dt } }
  | false, some t => { s with saf := { s.saf with pause := none, kickDt := s.saf.kickDt + (s.time.dt - t) } }
  | _, _ => s

/-- The window in force. -/
def State.wdtClosed (s : State) : Nat := if s.saf.first then 0 else s.saf.cfgClosed.toNat
def State.wdtOpen (s : State) : Nat := if s.saf.first then 2000 else s.saf.cfgOpen.toNat

/-- A warm start cause latched (04 R113). -/
def State.latchWarm (s : State) (cause : Fin 6) : State :=
  match s.mode.warmReq with
  | some _ => s
  | none => { s with mode := { s.mode with warmReq := some cause } }

/-- A violation (R564, R565). -/
def State.wdtViolation (s : State) (kind : Nat) : State :=
  let good := s.saf.good
  let warm := decide (16 ≤ good.toNat)
  let s1 := (s.say .safmon 0x8502 (BitVec.ofNat 32 kind) (BitVec.ofNat 32 s.wdtE) (good.setWidth 32) (if warm then 0 else 1)).evt
    R.safEvt 2
  let s2 := { s1 with saf := { s1.saf with kickDt := s.time.dt, next := false, good := 0, viol := satInc s.saf.viol,
                                           last := BitVec.ofNat 3 kind } }
  if warm then s2.latchWarm 2 else s2.latchOpen 15

/-- SAF_WDT_KICK written (R563, R564, R566). -/
def State.wdtKick (s : State) (v : Word) : State :=
  if !s.mode.coreOn then s
  else if s.wdtHeld then s.evt R.safEvt 3
  else if fld v 0 16 ≠ (if s.saf.next then 0xA55A else 0x5AA5) then s.wdtViolation 3
  else if s.wdtTicks < 10000 * s.wdtClosed then s.wdtViolation 1
  else if 10000 * s.wdtOpen < s.wdtTicks then s.wdtViolation (if s.saf.first then 4 else 2)
  else
    { s with saf := { s.saf with kickDt := s.time.dt, next := !s.saf.next, first := false, good := satInc s.saf.good, lock := true } }

/-- E passes OPEN with no kick (R564, R566). -/
def State.wdtLate (s : State) : State :=
  if s.mode.coreOn && !s.wdtHeld && decide (10000 * s.wdtOpen < s.wdtTicks) then s.wdtViolation (if s.saf.first then 4 else 2) else s

/-- SAF_WDT_CFG written (R566). -/
def State.wdtCfgWrite (s : State) (v : Word) : State :=
  let o := fldN v 8 8
  if !s.saf.held && !s.saf.lock && decide (fldN v 0 8 < o ∧ 1 ≤ o ∧ o ≤ 200) then
    { s with saf := { s.saf with cfgOpen := fld v 8 8, cfgClosed := fld v 0 8 } }
  else s.evt R.safEvt 3

/-- The first scan of a start begins: the first window runs (R566). -/
def State.wdtBegin (s : State) : State :=
  { s with saf := { s.saf with held := false, first := true, pause := if s.core.halt then some s.time.dt else none,
                               kickDt := s.time.dt, next := false, lock := false } }

/-! Fault injection. -/

/-- SAF_INJ written (R567): t names the fault. Target 3 acts at once; the others put their fault in force. -/
def State.inject (s : State) (key : Half) (t : Nat) : State :=
  if s.mode.mode = .service ∧ key = 0x1A7E ∧ 1 ≤ t ∧ t ≤ 6 then
    let s1 := s.say .safmon 0x8505 (BitVec.ofNat 32 t) 0 0 0
    if t = 3 then s1.wdtKick (if s.saf.next then 0x5AA5 else 0xA55A)
    else
      let s2 := { s1 with saf := { s1.saf with inj := setBit s1.saf.inj t true, monOk := s1.saf.monOk && t != 5 } }
      if t = 1 then s2.forceShadow else s2
  else s.evt R.safEvt 3

end Sys2Proof.Machine
end

