-- ==== Sys2Proof/Machine/Float.lean ====
section
/-! DEFINITION. Binary32 arithmetic as Zinik does it (15 R421): round to nearest, ties to even, subnormals as zero. -/

namespace Sys2Proof.Machine

/-- A decoded binary32 value: finite values are m * 2^e. -/
inductive Fp where
  | nan (quiet : Bool)
  | inf (neg : Bool)
  | fin (neg : Bool) (m : Nat) (e : Int)
  deriving DecidableEq, Repr

/-- Decoding; a subnormal is a zero of its sign. -/
def f32dec (x : Word) : Fp :=
  let neg := bit x 31
  let ex := fldN x 23 8
  let fr := fldN x 0 23
  if ex = 255 then (if fr = 0 then .inf neg else .nan (bit x 22))
  else if ex = 0 then .fin neg 0 0
  else .fin neg (8388608 + fr) ((ex : Int) - 150)

/-- A zero and an infinity of a sign. -/
def f32zero (neg : Bool) : Word := bitAt neg 31
def f32inf (neg : Bool) : Word := bitAt neg 31 ||| 0x7F800000

/-- Result of an operation: value, and flags [0] invalid, [1] division by zero, [2] overflow, [3] saturation. -/
structure FRes where
  v : Word
  f : BitVec 6
  deriving DecidableEq, Repr

/-- num / den * 2^e of a sign rounded to binary32. -/
def f32round (neg : Bool) (num den : Nat) (e : Int) : FRes :=
  if num = 0 then ⟨f32zero neg, 0⟩
  else
    let s : Int := (Nat.log2 num : Int) - (Nat.log2 den : Int) - 26
    let n := num * 2 ^ (-s).toNat
    let d := den * 2 ^ s.toNat
    let m := n / d
    let sticky := decide (n % d ≠ 0)
    let drop := Nat.log2 m - 23
    let low := m % 2 ^ drop
    let half := 2 ^ (drop - 1)
    let top := m / 2 ^ drop
    let up := decide (half < low) || (decide (low = half) && (sticky || decide (top % 2 = 1)))
    let r := top + (if up then 1 else 0)
    let ex : Int := e + s + drop + 150 + (if r = 16777216 then 1 else 0)
    let fr := if r = 16777216 then 0 else r - 8388608
    if 255 ≤ ex then ⟨f32inf neg, 4⟩
    else if ex ≤ 0 then ⟨f32zero neg, 0⟩
    else ⟨bitAt neg 31 ||| at_ ex.toNat 23 ||| BitVec.ofNat 32 fr, 0⟩

/-- An integer times 2^e rounded; zero is positive. -/
def f32ofInt (v : Int) (e : Int) : FRes := f32round (decide (v < 0)) v.natAbs 1 e

/-- A quiet NaN; its sign and payload are not stated (log entry 3). -/
def f32nan (op : Nat) (a b : Word) : Word := (Config.zinikApprox op a b &&& 0x803FFFFF) ||| 0x7FC00000

/-- Invalid operation flagged where a NaN operand is signalling. -/
def nanFlag (a b : Fp) : BitVec 6 :=
  match a, b with
  | .nan false, _ => 1
  | _, .nan false => 1
  | _, _ => 0

/-- Sum. -/
def f32add (op : Nat) (a b : Word) : FRes :=
  match f32dec a, f32dec b with
  | .nan q, y => ⟨f32nan op a b, nanFlag (.nan q) y⟩
  | x, .nan q => ⟨f32nan op a b, nanFlag x (.nan q)⟩
  | .inf p, .inf q => if p = q then ⟨f32inf p, 0⟩ else ⟨f32nan op a b, 1⟩
  | .inf p, .fin _ _ _ => ⟨f32inf p, 0⟩
  | .fin _ _ _, .inf q => ⟨f32inf q, 0⟩
  | .fin p m e, .fin q n g =>
    if m = 0 ∧ n = 0 then ⟨f32zero (p && q), 0⟩
    else
      let k := min e g
      let x : Int := (m : Int) * 2 ^ (e - k).toNat
      let y : Int := (n : Int) * 2 ^ (g - k).toNat
      let t := (if p then -x else x) + (if q then -y else y)
      f32ofInt t k

/-- Negation of a sign. -/
def f32neg (a : Word) : Word := a ^^^ 0x80000000

/-- Product. -/
def f32mul (op : Nat) (a b : Word) : FRes :=
  match f32dec a, f32dec b with
  | .nan q, y => ⟨f32nan op a b, nanFlag (.nan q) y⟩
  | x, .nan q => ⟨f32nan op a b, nanFlag x (.nan q)⟩
  | .inf p, .inf q => ⟨f32inf (p ^^ q), 0⟩
  | .inf p, .fin q n _ => if n = 0 then ⟨f32nan op a b, 1⟩ else ⟨f32inf (p ^^ q), 0⟩
  | .fin p m _, .inf q => if m = 0 then ⟨f32nan op a b, 1⟩ else ⟨f32inf (p ^^ q), 0⟩
  | .fin p m e, .fin q n g => f32round (p ^^ q) (m * n) 1 (e + g)

/-- Quotient. -/
def f32div (op : Nat) (a b : Word) : FRes :=
  match f32dec a, f32dec b with
  | .nan q, y => ⟨f32nan op a b, nanFlag (.nan q) y⟩
  | x, .nan q => ⟨f32nan op a b, nanFlag x (.nan q)⟩
  | .inf _, .inf _ => ⟨f32nan op a b, 1⟩
  | .inf p, .fin q _ _ => ⟨f32inf (p ^^ q), 0⟩
  | .fin p _ _, .inf q => ⟨f32zero (p ^^ q), 0⟩
  | .fin p m e, .fin q n g =>
    if n = 0 then (if m = 0 then ⟨f32nan op a b, 1⟩ else ⟨f32inf (p ^^ q), 2⟩)
    else f32round (p ^^ q) m n (e - g)

/-- Largest x below 2^n more than x0 with x^2 at most v. -/
def root2 (v : Nat) : Nat → Nat → Nat
  | 0, x => x
  | n + 1, x => if (x + 2 ^ n) ^ 2 ≤ v then root2 v n (x + 2 ^ n) else root2 v n x

/-- Square root of x * 2^e, x > 0, rounded. -/
def f32root (x : Nat) (e : Int) : FRes :=
  let k : Nat := 120 + (e % 2).toNat
  let v := x * 2 ^ k
  let r := root2 v (Nat.log2 v / 2 + 1) 0
  f32round false (2 * r + (if r * r = v then 0 else 1)) 1 ((e - k) / 2 - 1)

/-- Square root. -/
def f32sqrt (op : Nat) (a : Word) : FRes :=
  match f32dec a with
  | .nan q => ⟨f32nan op a 0, if q then 0 else 1⟩
  | .inf p => if p then ⟨f32nan op a 0, 1⟩ else ⟨f32inf false, 0⟩
  | .fin p m e => if m = 0 then ⟨f32zero p, 0⟩ else if p then ⟨f32nan op a 0, 1⟩ else f32root m e

/-- Magnitude of a complex value. -/
def f32mag (op : Nat) (a b : Word) : FRes :=
  match f32dec a, f32dec b with
  | .nan q, y => ⟨f32nan op a b, nanFlag (.nan q) y⟩
  | x, .nan q => ⟨f32nan op a b, nanFlag x (.nan q)⟩
  | .inf _, _ => ⟨f32inf false, 0⟩
  | _, .inf _ => ⟨f32inf false, 0⟩
  | .fin _ m e, .fin _ n g =>
    if m = 0 ∧ n = 0 then ⟨f32zero false, 0⟩
    else if m = 0 then f32round false n 1 g
    else if n = 0 then f32round false m 1 e
    else
      let k := min e g
      f32root ((m * 2 ^ (e - k).toNat) ^ 2 + (n * 2 ^ (g - k).toNat) ^ 2) (2 * k)

/-- Order of two values: none where one is a NaN. -/
def f32lt (a b : Word) : Option Bool :=
  match f32dec a, f32dec b with
  | .nan _, _ => none
  | _, .nan _ => none
  | .inf p, .inf q => some (p && !q)
  | .inf p, .fin _ _ _ => some p
  | .fin _ _ _, .inf q => some (!q)
  | .fin p m e, .fin q n g =>
    let k := min e g
    let x : Int := (m : Int) * 2 ^ (e - k).toNat
    let y : Int := (n : Int) * 2 ^ (g - k).toNat
    some (decide ((if p then -x else x) < (if q then -y else y)))

/-- A subnormal replaced by zero of its sign. -/
def f32flush (a : Word) : Word := if fldN a 23 8 = 0 then a &&& 0x80000000 else a

/-- num / 2^k rounded to nearest, ties to even. -/
def rne (num : Nat) (k : Nat) : Nat :=
  let q := num / 2 ^ k
  let r := num % 2 ^ k
  if 2 * r < 2 ^ k then q else if 2 ^ k < 2 * r then q + 1 else q + q % 2

/-- Value times 2^k rounded to an integer of n bits, saturating (R421, VCVT from f32). -/
def f32toInt (n : Nat) (k : Nat) (a : Word) : FRes :=
  let lo : Int := -(2 ^ (n - 1))
  let hi : Int := 2 ^ (n - 1) - 1
  match f32dec a with
  | .nan _ => ⟨0, 1⟩
  | .inf p => ⟨BitVec.ofInt 32 (if p then lo else hi), 9⟩
  | .fin p m e =>
    let g : Int := e + k
    let x : Nat := if 0 ≤ g then (if 64 ≤ g ∧ m ≠ 0 then 2 ^ 64 else m * 2 ^ g.toNat) else rne m (-g).toNat
    let v : Int := if p then -(x : Int) else x
    if v < lo then ⟨BitVec.ofInt 32 lo, 9⟩ else if hi < v then ⟨BitVec.ofInt 32 hi, 9⟩ else ⟨BitVec.ofInt 32 v, 0⟩

end Sys2Proof.Machine
end

