-- ==== Sys2Proof/Machine/Scheduler.lean ====
section
/-! DEFINITION. Thread slots, waits, event flags, rings (14). The switch itself is with the scan core's bundles. -/

namespace Sys2Proof.Machine

/-- Registers of SCH. -/
def R.schCtxBase : Nat := 0x000B0004
def R.schEvt : Nat := 0x000B0030

/-- Word at an offset of DTCM. -/
def State.dtcmWord (s : State) (o : Nat) : Word := wordLE (mread 0 s.mem.dtcm o 4)

/-- Word stored at an offset of DTCM. -/
def State.dtcmPut (s : State) (o : Nat) (v : Word) : State :=
  { s with mem := { s.mem with dtcm := mwrite 0 s.mem.dtcm o (bytesLE v) } }

/-- Scheduler ticks, one every 100 DT ticks (R396). -/
def State.tickNow (s : State) : Nat := s.time.dt.toNat / 100

/-- Slot t changed. -/
def State.putThread (s : State) (t : Fin 64) (x : ThreadSt) : State :=
  { s with sch := { s.sch with thread := vput s.sch.thread t x } }

/-- READY slots of the highest PRIO among READY slots (R384). A slot whose context is still in the core, because its wait was met before
its switch was taken, is not among them (log entry 99). -/
def State.topReady (s : State) : List (Fin 64) :=
  let ready := (List.finRange 64).filter (fun t => (s.sch.thread[t]).state == 1 && s.sch.run != some t)
  let m := ready.foldl (fun m t => max m (s.sch.thread[t]).prio.toNat) 0
  ready.filter (fun t => (s.sch.thread[t]).prio.toNat == m)

/-- A preemption is due (R386). -/
def State.preemptDue (s : State) : Bool :=
  match s.sch.run, s.topReady with
  | some r, t :: _ => decide ((s.sch.thread[r]).prio < (s.sch.thread[t]).prio)
  | _, _ => false

/-- The scheduler selects again after a change from old: the selected slot stays while it may, otherwise any of the best
is taken (R384: a free choice, log entry 2). PREEMPT is set as a preemption becomes due. -/
def State.reselect (s old : State) : State :=
  let cands := s.topReady
  let keep := match s.sch.sel with
    | none => false
    | some t => cands.contains t
  let s1 :=
    if keep then s
    else
      match cands with
      | [] => { s with sch := { s.sch with sel := none, valid := false } }
      | [t] => { s with sch := { s.sch with sel := some t, valid := false } }
      | t :: _ =>
        let r := s.free
        { r.2 with sch := { r.2.sch with sel := some (cands.getD (r.1.toNat % cands.length) t), valid := false } }
  if s1.preemptDue && !old.preemptDue then s1.evt R.schEvt 0 else s1

/-- Flags F meet mask M under ALL (R393). -/
def waitMet (all : Bool) (f m : Word) : Bool := if all then f &&& m = m else f &&& m ≠ 0

/-- A WAITING slot whose wait is met becomes READY with WAIT_OK (R393). -/
def ThreadSt.wake (x : ThreadSt) : ThreadSt :=
  if x.state = 2 ∧ waitMet x.all x.flags x.mask then
    { x with state := 1, tmo := none, res := 1, matched := x.flags &&& x.mask, flags := x.flags &&& ~~~x.mask }
  else x

/-- Flags set in slot t (R398). -/
def State.setFlags (s : State) (t : Fin 64) (v : Word) : State :=
  let x := s.sch.thread[t]
  (s.putThread t ({ x with flags := x.flags ||| v }).wake).reselect s

/-- Flags cleared in slot t by software (SCH_FLCLR). -/
def State.clearFlags (s : State) (t : Fin 64) (v : Word) : State :=
  s.putThread t { s.sch.thread[t] with flags := s.sch.thread[t].flags &&& ~~~v }

/-- Another slot is READY. -/
def State.otherReady (s : State) : Bool := !s.topReady.isEmpty

/-- A refused wait or yield: RESULT REFUSED, NO_READY (R395). -/
def State.noReady (s : State) (t : Fin 64) : State :=
  ((s.putThread t { s.sch.thread[t] with res := 3 }).evt R.schEvt 2).sayRate 100000 0 .sch 0x4205
    (BitVec.ofNat 32 t.val) 0 0 0

/-- SCH_WAIT_MASK written (R393). -/
def State.schMaskWrite (s : State) (v : Word) (denied : Bool) : State :=
  if denied then s.evt R.schEvt 3
  else match s.sch.run with
    | none => s
    | some t => s.putThread t { s.sch.thread[t] with mask := v }

/-- SCH_WAIT written (R393 to R396). -/
def State.schWait (s : State) (v : Word) (denied : Bool) : State :=
  if denied then s.evt R.schEvt 3
  else match s.sch.run with
    | none => s
    | some t =>
      let x : ThreadSt := { s.sch.thread[t] with all := bit v 31 }
      if x.mask = 0 then s.putThread t { x with res := 3 }
      else if !s.otherReady then s.noReady t
      else if waitMet x.all x.flags x.mask then
        s.putThread t { x with res := 1, matched := x.flags &&& x.mask, flags := x.flags &&& ~~~x.mask }
      else
        let n := fldN v 0 24
        let y := { x with state := 2, tmo := if n = 0 then none else some (s.tickNow + n) }
        let s1 := s.putThread t y
        { s1 with sch := { s1.sch with req := some .wait } }

/-- SCH_YIELD written (R394, R395, R397). -/
def State.schYield (s : State) (v : Word) (denied : Bool) : State :=
  if !bit v 0 then s
  else if denied then s.evt R.schEvt 3
  else match s.sch.run with
    | none => s
    | some t =>
      match s.topReady with
      | [] => s.noReady t
      | u :: _ =>
        if (s.sch.thread[t]).prio ≤ (s.sch.thread[u]).prio then
          let s1 := s.putThread t { s.sch.thread[t] with state := 1 }
          { s1 with sch := { s1.sch with req := some .yield } }
        else s

/-- A wait times out (R396). -/
def State.waitTimeout (s : State) (t : Fin 64) : State :=
  let x := s.sch.thread[t]
  match x.tmo with
  | none => s
  | some n => if x.state = 2 ∧ n ≤ s.tickNow then (s.putThread t { x with state := 1, tmo := none, res := 2 }).reselect s else s

/-- SCH_CTX_BASE holds an area in DTCM below the images (R413). -/
def ctxBaseOk (v : Word) : Bool :=
  decide (v.toNat % 256 = 0) && decide (0x10000000 ≤ v.toNat) && decide (v.toNat + 49152 ≤ 0x1003E000)

/-- SCH_CTL written (R392). -/
def State.schCtlWrite (s : State) (v : Word) : State :=
  if bit v 0 && ctxBaseOk (s.reg R.schCtxBase) then ({ s with sch := { s.sch with en := true } }).reselect s
  else s.evt R.schEvt 3

/-- SCH_CTX_BASE written (R413). -/
def State.schBaseWrite (s : State) (v : Word) : State :=
  if ctxBaseOk v && !s.sch.en then s.setReg R.schCtxBase v else s.evt R.schEvt 3

/-- SCH_SLOT written (Table SCH-10). -/
def State.schSlotWrite (s : State) (t : Fin 64) (v : Word) : State :=
  let x : ThreadSt := { s.sch.thread[t] with prio := fld v 0 4 }
  let want : BitVec 2 := fld v 4 2
  let s1 :=
    if x.state = 0 ∧ want = 1 then s.putThread t { x with state := 1 }
    else if (x.state = 1 ∨ x.state = 2) ∧ want = 0 then s.putThread t { x with state := 0, tmo := none }
    else if x.state = 3 ∧ want = 0 then
      let s2 := s.putThread t x
      { s2 with sch := { s2.sch with req := some .free } }
    else (s.putThread t x).evt R.schEvt 3
  s1.reselect s

/-- The next slot is loaded with the selected slot's context (R389). -/
def State.nextLoaded (s : State) : State :=
  match s.sch.sel, s.sch.wb with
  | some t, none =>
    if s.sch.en then
      let o := (s.reg R.schCtxBase).toNat - 0x10000000 + 768 * t.val
      { s with sch := { s.sch with valid := true, ctx := wordsLE 168 (mread 0 s.mem.dtcm o 672) } }
    else s
  | _, _ => s

/-- The outgoing context is written back (R388, R389): words 1 to 167. -/
def State.writeBack (s : State) : State :=
  match s.sch.wb with
  | none => s
  | some t =>
    let o := (s.reg R.schCtxBase).toNat - 0x10000000 + 768 * t.val + 4
    { s with mem := { s.mem with dtcm := mwrite 0 s.mem.dtcm o ((s.sch.wbCtx.drop 1).flatMap bytesLE) },
             sch := { s.sch with wb := none } }

/-- A ring's record. -/
def State.ringCfg (s : State) (r : Fin 64) : RingCfg :=
  match s.cfg.img with
  | none => { role := 0, spill := 0, words := 0, thread := 0, bit := 0, flagEn := false }
  | some i => i.rings[r]

/-- Ring r changed. -/
def State.putRing (s : State) (r : Fin 64) (x : RingSt) : State := { s with sch := { s.sch with ring := vput s.sch.ring r x } }

/-- Status bit i of ring r set: 0 TORN, 1 REFUSED, 2 STRAY, 3 DENIED, 4 FEED_BAD. -/
def State.ringStat (s : State) (r : Fin 64) (i : Nat) : State :=
  let x := s.sch.ring[r]
  s.putRing r { x with stat := x.stat ||| ((1 : BitVec 5) <<< i) }

/-- A ring entry, at most one per ring per 1 ms for the four codes together (R410). -/
def State.sayRing (s : State) (code : Half) (r : Fin 64) (p1 p2 p3 : Word) : State :=
  s.sayKey 100000 (0x4201 * 256 + r.val) .sch code (BitVec.ofNat 32 r.val) p1 p2 p3

/-- Words in existing items, words reserved by open items, free words (R402). -/
def RingSt.used (x : RingSt) : Nat := x.lens.foldl (· + ·) 0
def RingSt.reserved (x : RingSt) : Nat :=
  x.opened.toList.foldl (fun n o => match o with
    | none => n
    | some i => n + i.len) 0
def State.ringFree (s : State) (r : Fin 64) : Nat :=
  16 + (s.ringCfg r).words - (s.sch.ring[r]).used - (s.sch.ring[r]).reserved

/-- One word enters a ring: on chip while there is room, else the spill circle (R403). -/
def State.ringPut (s : State) (r : Fin 64) (w : Word) : State :=
  let x := s.sch.ring[r]
  let c := s.ringCfg r
  if x.cnt = 0 ∧ x.chip.length < 16 then s.putRing r { x with chip := x.chip ++ [w] }
  else
    (s.dtcmPut (c.spill - 0x10000000 + 4 * ((x.head + x.cnt) % c.words)) w).putRing r { x with cnt := x.cnt + 1 }

/-- One word leaves a ring; a spilled word moves on chip (R403). -/
def State.ringTake (s : State) (r : Fin 64) : Word × State :=
  let x := s.sch.ring[r]
  let c := s.ringCfg r
  match x.chip with
  | [] => (0, s)
  | w :: t =>
    if x.cnt = 0 then (w, s.putRing r { x with chip := t })
    else
      (w, s.putRing r { x with chip := t ++ [s.dtcmWord (c.spill - 0x10000000 + 4 * x.head)],
                               head := (x.head + 1) % c.words, cnt := x.cnt - 1 })

/-- n words taken from a ring. -/
def State.ringTakes (s : State) (r : Fin 64) : Nat → List Word × State
  | 0 => ([], s)
  | n + 1 =>
    let a := s.ringTake r
    let b := State.ringTakes a.2 r n
    (a.1 :: b.1, b.2)

/-- The oldest item taken from a ring. -/
def State.ringItem (s : State) (r : Fin 64) : Option (List Word × State) :=
  match (s.sch.ring[r]).lens with
  | [] => none
  | n :: t =>
    let a := s.ringTakes r n
    some (a.1, a.2.putRing r { a.2.sch.ring[r] with lens := t })

/-- The scheduler pops an item of a feed ring (R408). -/
def State.feedItem (s : State) (r : Fin 64) : State :=
  match s.ringItem r with
  | none => s
  | some ([h, m], s1) =>
    let t := fin 63 (fldN h 16 6)
    if (s1.sch.thread[t]).state = 0 then ((s1.ringStat r 4).evt R.schEvt 6).sayRing 0x4204 r h 0 0 else s1.setFlags t m
  | some (ws, s1) => ((s1.ringStat r 4).evt R.schEvt 6).sayRing 0x4204 r (ws.getD 0 0) 0 0

/-- An item exists in the ring (R401, R407, R408). -/
def State.ringExists (s : State) (r : Fin 64) (ws : List Word) : State :=
  let c := s.ringCfg r
  let was := (s.sch.ring[r]).lens
  let s1 := ws.foldl (fun t w => t.ringPut r w) s
  let x := s1.sch.ring[r]
  let s2 := s1.putRing r { x with lens := x.lens ++ [ws.length] }
  let s3 := if was.isEmpty && x.flagEn && c.role ≠ 2 then s2.setFlags c.thread (bitAt true c.bit.val) else s2
  let s4 := if was.isEmpty && x.ien then
      ({ s3 with sch := { s3.sch with ringEvt := s3.sch.ringEvt ||| ((1 : DWord) <<< r.val) } }).evt R.schEvt 1
    else s3
  if c.role = 2 then s4.feedItem r else s4

/-- The torn item of a port is reported (R409). -/
def State.tornReport (s : State) (r : Fin 64) (port : Fin 5) : State :=
  let x := s.sch.ring[r]
  match x.torn[port] with
  | none => s
  | some t => (s.putRing r { x with torn := vput x.torn port none }).sayRing 0x4201 r (BitVec.ofNat 32 port.val) t.dropped
      t.cause

/-- An open item of a port is discarded by a new header (R401, R410): the words it held are reported. -/
def State.tearOpen (s : State) (r : Fin 64) (port : Fin 5) : State :=
  let x := s.sch.ring[r]
  match x.opened[port] with
  | none => s
  | some o =>
    (((s.putRing r { x with opened := vput x.opened port none }).ringStat r 0).evt R.schEvt 4).sayRing 0x4201 r
      (BitVec.ofNat 32 port.val) (BitVec.ofNat 32 o.words.length) 1

/-- RING_PUSH_HDR written through a producer port (R401, R402). -/
def State.ringHdr (s : State) (r : Fin 64) (port : Fin 5) (v : Word) : State :=
  if (s.ringCfg r).role = 0 then s.ringStat r 3
  else
    let s1 := (s.tornReport r port).tearOpen r port
    let n := fldN v 0 4
    if n = 0 ∨ 8 < n then s1
    else if s1.ringFree r < n then
      let x := s1.sch.ring[r]
      (((s1.putRing r { x with refused := satInc x.refused }).ringStat r 1).evt R.schEvt 5).sayRing 0x4202 r
        (BitVec.ofNat 32 port.val) (BitVec.ofNat 32 n) (BitVec.ofNat 32 (s1.ringFree r))
    else
      let h := v &&& 0xFFFF000F
      if n = 1 then s1.ringExists r [h]
      else
        let x := s1.sch.ring[r]
        s1.putRing r { x with opened := vput x.opened port (some { len := n, words := [h] }) }

/-- RING_PUSH_DATA written through a producer port (R401, R409). -/
def State.ringData (s : State) (r : Fin 64) (port : Fin 5) (v : Word) : State :=
  if (s.ringCfg r).role = 0 then s.ringStat r 3
  else
    let x := s.sch.ring[r]
    match x.opened[port], x.torn[port] with
    | some o, _ =>
      let ws := o.words ++ [v]
      if ws.length = o.len then (s.putRing r { x with opened := vput x.opened port none }).ringExists r ws
      else s.putRing r { x with opened := vput x.opened port (some { o with words := ws }) }
    | none, some t => s.putRing r { x with torn := vput x.torn port (some { t with dropped := satInc t.dropped }) }
    | none, none =>
      let d := satInc x.dropped
      (((s.putRing r { x with dropped := d }).ringStat r 2).evt R.schEvt 6).sayRing 0x4203 r
        (BitVec.ofNat 32 port.val) (d.setWidth 32) 0

/-- RING_POP read (R404): the header, and the ring after it. -/
def State.ringPop (s : State) (r : Fin 64) : Word × State :=
  if (s.ringCfg r).role ≠ 1 then (0, s.ringStat r 3)
  else
    match s.ringItem r with
    | none => (0, s)
    | some (ws, s1) =>
      let x := s1.sch.ring[r]
      (ws.getD 0 0, s1.putRing r { x with item := (List.range 7).map (fun j => ws.getD (j + 1) 0) })

/-- RING_CTL.FLUSH written 1 (R409). -/
def State.ringFlush (s : State) (r : Fin 64) : State :=
  let s1 := (List.finRange 5).foldl (fun t p => t.tornReport r p) s
  let x := s1.sch.ring[r]
  let isTorn := x.opened.toList.any Option.isSome
  let torn := Vector.ofFn (fun p : Fin 5 => match x.opened[p] with
    | none => none
    | some _ => some ({ dropped := 0, cause := 0 } : TornItem))
  let s2 := s1.putRing r { x with chip := [], lens := [], head := 0, cnt := 0, opened := Vector.replicate 5 none,
                                  torn := torn }
  if isTorn then (s2.ringStat r 0).evt R.schEvt 4 else s2

/-- RING_CTL written: IEN and FLAG_EN, and FLUSH. -/
def State.ringCtlWrite (s : State) (r : Fin 64) (v : Word) : State :=
  let x := s.sch.ring[r]
  let s1 := s.putRing r { x with ien := bit v 1, flagEn := bit v 2 }
  if bit v 0 then s1.ringFlush r else s1

/-- Rings and slots as step 13 sets them from the image (R414). -/
def State.schStart (s : State) : State :=
  match s.cfg.img with
  | none => s
  | some i =>
    let thread := i.threads.map (fun t => { ThreadSt.reset with prio := t.prio, state := t.state, all := t.all, mask := t.mask })
    let ring := i.rings.map (fun c => { RingSt.reset with flagEn := c.flagEn })
    { s with sch := { SchSt.reset with thread := thread, ring := ring, tick0 := s.tickNow } }

end Sys2Proof.Machine
end

