-- ==== Sys2Proof/Machine/Zinik.lean ====
section
/-! DEFINITION. Zinik (15): descriptors, elements, chains, queue, lanes. -/

namespace Sys2Proof.Machine

/-- Registers of ZVE. -/
def R.zveCtl : Nat := 0x000D0004
def R.zveFpx : Nat := 0x000D000C
def R.zveCnt : Nat := 0x000D002C
def R.zveErr : Nat := 0x000D0038
def R.zveEvt : Nat := 0x000D0040
def R.zveRes (q : Nat) : Nat := 0x000D0080 + 4 * q

/-- Bytes of the vector store (R416). -/
def vsBytes : Nat := 499712

/-- Fields of a descriptor (Tables ZVE-1, ZVE-2). -/
def ZLink.op (l : ZLink) : Nat := fldN l.w0 0 6
def ZLink.ty (l : ZLink) : Nat := fldN l.w0 6 3
def ZLink.cplx (l : ZLink) : Bool := bit l.w0 9
def ZLink.chain (l : ZLink) : Bool := bit l.w0 10
def ZLink.scal (l : ZLink) : Bool := bit l.w0 11
def ZLink.sat (l : ZLink) : Bool := bit l.w0 12
def ZLink.note (l : ZLink) : Nat := fldN l.w0 14 2
def ZLink.vl (l : ZLink) : Nat := fldN l.w0 16 16
def strBase (w : Word) : Nat := fldN w 0 15
def strStride (w : Word) : Int := (w.extractLsb' 15 17).toInt
def forwarded (w : Word) : Bool := strBase w == 0x7FFF

/-- Width in bits of a type, and whether it is a q type (Table ZVE-3). -/
def tyBits (ty : Nat) : Nat := if ty = 0 ∨ ty = 2 then 16 else 32
def tyQ (ty : Nat) : Bool := ty == 2 || ty == 3

/-- Pipelines of Table ZVE-4; none for an OP not in it. -/
def opPipe (op : Nat) : Option Nat :=
  if 1 ≤ op ∧ op ≤ 4 then some 0
  else if 8 ≤ op ∧ op ≤ 10 then some 1
  else if 16 ≤ op ∧ op ≤ 20 then some 2
  else if 24 ≤ op ∧ op ≤ 33 then some 3
  else if op = 40 ∨ op = 41 then some 4
  else none

/-- S_op of Table ZVE-4. -/
def opCycles (op : Nat) : Nat :=
  match op with
  | 1 => 10 | 2 => 10 | 3 => 10 | 4 => 12 | 8 => 12 | 9 => 14 | 10 => 12 | 16 => 30 | 17 => 28 | 18 => 26 | 19 => 26
  | 20 => 26 | 32 => 12 | 33 => 12 | 40 => 16 | 41 => 16 | _ => 8

/-- The operation reads W3 as a second source, a stream or a scalar. -/
def opTwo (op : Nat) : Bool :=
  op == 1 || op == 2 || op == 8 || op == 9 || op == 16 || (24 ≤ op && op ≤ 29)
/-- W3 is a configuration word, with SCAL 1. -/
def opConf (op : Nat) : Bool := op == 4 || op == 30
/-- VGATHER and VSCATTER. -/
def opGather (op : Nat) : Bool := op == 32
def opScatter (op : Nat) : Bool := op == 33
/-- VSUM and VMAXR. -/
def opReduce (op : Nat) : Bool := op == 40 || op == 41

/-- TYPE and CPLX are permitted for OP (Table ZVE-4; log entry 9 for the operations whose two sides differ). -/
def opTypes (op ty : Nat) (cplx : Bool) : Bool :=
  match op with
  | 3 | 10 | 27 | 28 | 29 | 41 => !cplx
  | 9 => cplx
  | 16 => !cplx && ty != 0
  | 17 => !cplx && 2 ≤ ty
  | 18 | 19 | 20 => 2 ≤ ty
  | 24 | 25 | 26 => !cplx && ty ≤ 1
  | 30 => !cplx && ty ≤ 3
  | _ => true

/-- Complex source A, complex destination D. -/
def ZLink.aCplx (l : ZLink) : Bool := if l.op = 18 ∨ l.op = 19 then true else if l.op = 20 then false else l.cplx
def ZLink.dCplx (l : ZLink) : Bool := if l.op = 18 ∨ l.op = 19 then false else if l.op = 20 then true else l.cplx
/-- Type of source A. -/
def ZLink.aTy (l : ZLink) : Nat := if l.op = 4 then fldN l.w3 0 3 else l.ty

/-- Bytes of an element. -/
def elBytes (ty : Nat) (cplx : Bool) : Nat := tyBits ty / 8 * (if cplx then 2 else 1)
def ZLink.dE (l : ZLink) : Nat := elBytes l.ty l.dCplx
def ZLink.aE (l : ZLink) : Nat := elBytes l.aTy l.aCplx
def ZLink.bE (l : ZLink) : Nat := if opGather l.op || opScatter l.op then 4 else elBytes l.ty l.cplx

/-- The link reads a B stream from memory. -/
def ZLink.bStream (l : ZLink) : Bool := (opTwo l.op && !l.scal) || opGather l.op || opScatter l.op

/-- Byte offset of element i of a stream. -/
def strAddr (w : Word) (e i : Nat) : Int := 16 * (strBase w : Int) + (i : Int) * strStride w * (e : Int)

/-- A stream of n elements lies in the vector store (Table ZVE-5, Range). -/
def strIn (w : Word) (e n : Nat) : Bool :=
  let d := ((n : Int) - 1) * strStride w * (e : Int)
  let b : Int := 16 * (strBase w : Int)
  decide (strBase w < 31232) && decide (0 ≤ b + min 0 d) && decide (b + max 0 d + e - 1 < vsBytes)

/-- Some element of a stream of n elements of e bytes covers a byte of [x, x + k). -/
def strCovers (w : Word) (e n : Nat) (x : Int) (k : Nat) : Bool :=
  let b := strAddr w e 0
  let st := strStride w * (e : Int)
  if st = 0 then decide (x - e < b) && decide (b < x + k)
  else
    let j := if 0 < st then (x - e - b) / st + 1 else (b - (x + k)) / (-st) + 1
    let j' := max 0 j
    let a := b + j' * st
    decide (j' < n) && decide (x - e < a) && decide (a < x + k)

/-- Two streams share a byte. -/
def strMeet (w1 : Word) (e1 n1 : Nat) (w2 : Word) (e2 n2 : Nat) : Bool :=
  (List.range n1).any (fun i => strCovers w2 e2 n2 (strAddr w1 e1 i) e1)

/-- An area of 65,536 elements from a stream's base, cut at the end of the store, meets a stream. -/
def areaMeet (w1 : Word) (e1 : Nat) (w2 : Word) (e2 n2 : Nat) : Bool :=
  let b := 16 * strBase w1
  strCovers w2 e2 n2 b (min (65536 * e1) (vsBytes - b))

/-- Memory sources of a link: stream word, element bytes, elements; the gathered source apart. -/
def ZLink.sources (l : ZLink) : List (Word × Nat × Nat) :=
  (if forwarded l.w2 || opGather l.op then [] else [(l.w2, l.aE, l.vl)]) ++
    (if l.bStream then [(l.w3, l.bE, l.vl)] else [])

/-- The last link's destination shares no byte with a memory source of any link (Table ZVE-5, Overlap). -/
def overlapOk (links : List ZLink) (last : ZLink) : Bool :=
  let n := if opReduce last.op then 1 else last.vl
  let src := links.flatMap ZLink.sources
  if opScatter last.op then !src.any (fun s => areaMeet last.w1 last.dE s.1 s.2.1 s.2.2)
  else !src.any (fun s => strMeet last.w1 last.dE n s.1 s.2.1 s.2.2) &&
    !links.any (fun l => opGather l.op && areaMeet l.w2 l.aE last.w1 last.dE n)

/-- The encoding, range and stride checks of Table ZVE-5 on one descriptor. -/
def ZLink.encOk (l : ZLink) : Bool :=
  (opPipe l.op).isSome && decide (l.ty ≤ 4) && !bit l.w0 13 && decide (0 < l.vl) && opTypes l.op l.ty l.cplx &&
    (if opConf l.op then l.scal && (l.op != 4 || decide (fldN l.w3 0 3 ≤ 4))
     else if opTwo l.op then true
     else if opGather l.op || opScatter l.op then !l.scal
     else decide (l.w3 = 0)) &&
    (if forwarded l.w1 then decide (strStride l.w1 = 0)
     else strIn l.w1 l.dE (if opReduce l.op then 1 else l.vl) &&
       (if opReduce l.op || opScatter l.op then decide (strStride l.w1 = 0) else decide (strStride l.w1 ≠ 0))) &&
    (if forwarded l.w2 then decide (strStride l.w2 = 0)
     else strIn l.w2 l.aE l.vl && (!opGather l.op || decide (strStride l.w2 = 0))) &&
    (!l.bStream || (!forwarded l.w3 && strIn l.w3 l.bE l.vl))

/-- The chain rules of R422 for a link after the links already open. -/
def chainOk (before : List ZLink) (l : ZLink) : Bool :=
  decide (before.length < 4) && (forwarded l.w1 == l.chain) && (forwarded l.w2 == !before.isEmpty) &&
    (!l.chain || decide (l.note = 0)) && !(opReduce l.op && l.chain) &&
    (!(opGather l.op || opScatter l.op) || (before.isEmpty && !l.chain)) &&
    before.all (fun b => decide (b.vl = l.vl) && decide (opPipe b.op ≠ opPipe l.op)) &&
    (match before.getLast? with
      | none => true
      | some b => decide (b.ty = l.aTy) && (b.dCplx == l.aCplx))

/-- Every check at issue (Table ZVE-5). -/
def zvCheck (before : List ZLink) (l : ZLink) (precise : Bool) : Bool :=
  l.encOk && chainOk before l && (!precise || (!l.chain && before.isEmpty)) &&
    (l.chain || overlapOk (before ++ [l]) l)

/-- Byte-offset read of n bits, sign-extended to a word. -/
def State.vsRead (s : State) (a n : Nat) : Word :=
  if n = 16 then ((BitVec.ofNat 16 (natLE (mread 0 s.mem.vs a 2))).signExtend 32) else wordLE (mread 0 s.mem.vs a 4)

/-- One element at an offset: real and imaginary part. -/
def State.vsEl (s : State) (a ty : Nat) (cplx : Bool) : Word × Word :=
  let b := tyBits ty
  (s.vsRead a b, if cplx then s.vsRead (a + b / 8) b else 0)

/-- Bytes of an element. -/
def elData (ty : Nat) (cplx : Bool) (x : Word × Word) : List Byte :=
  let h (w : Word) := (bytesLE w).take (tyBits ty / 8)
  h x.1 ++ (if cplx then h x.2 else [])

/-- An integer in n bits: saturated, or wrapped; flag 8 where it saturated. -/
def fitInt (n : Nat) (sat : Bool) (v : Int) : FRes :=
  let lo : Int := -(2 ^ (n - 1))
  let hi : Int := 2 ^ (n - 1) - 1
  if sat then
    (if v < lo then ⟨BitVec.ofInt 32 lo, 8⟩ else if hi < v then ⟨BitVec.ofInt 32 hi, 8⟩ else ⟨BitVec.ofInt 32 v, 0⟩)
  else if n = 16 then ⟨(BitVec.ofInt 16 v).signExtend 32, 0⟩
  else ⟨BitVec.ofInt 32 v, 0⟩

/-- An open value of an operation on n-bit elements (log entry 3). -/
def openVal (op n : Nat) (a b : Word) : FRes :=
  let v := Config.zinikApprox op a b
  if n = 16 then ⟨(v.setWidth 16).signExtend 32, 0⟩ else ⟨v, 0⟩

/-- An exact quotient where it is one, else one of the two integers beside it (the rounding is not stated, log entry 3);
beyond the range an open value. -/
def nearInt (op n : Nat) (a b : Word) (exact : Bool) (fl : Int) : FRes :=
  let v := if exact then fl else fl + (if bit (Config.zinikApprox op a b) 0 then 1 else 0)
  if v < -(2 ^ (n - 1)) ∨ 2 ^ (n - 1) ≤ v then openVal op n a b else ⟨BitVec.ofInt 32 v, 0⟩

/-- Real operations on one type (R421): sum, difference, product. -/
def elAdd (ty : Nat) (sat : Bool) (a b : Word) : FRes :=
  if ty = 4 then f32add 1 a b else fitInt (tyBits ty) (tyQ ty || sat) (a.toInt + b.toInt)
def elSub (ty : Nat) (sat : Bool) (a b : Word) : FRes :=
  if ty = 4 then f32add 2 a (f32neg b) else fitInt (tyBits ty) (tyQ ty || sat) (a.toInt - b.toInt)
def elMul (ty : Nat) (sat : Bool) (a b : Word) : FRes :=
  if ty = 4 then f32mul 8 a b
  else
    let n := tyBits ty
    if tyQ ty then fitInt n true ((a.toInt * b.toInt + 2 ^ (n - 2)) / 2 ^ (n - 1))
    else fitInt n sat (a.toInt * b.toInt)

/-- Two results joined as a complex element, flags united. -/
def cpx (x y : FRes) (f : BitVec 6) : (Word × Word) × BitVec 6 := ((x.v, y.v), x.f ||| y.f ||| f)
/-- A real result. -/
def real (x : FRes) : (Word × Word) × BitVec 6 := ((x.v, 0), x.f)

/-- Absolute value; of the least q value it is not stated. -/
def elAbs (ty : Nat) (sat : Bool) (a : Word) : FRes :=
  if ty = 4 then ⟨f32flush a &&& 0x7FFFFFFF, nanFlag (f32dec a) (f32dec 0)⟩
  else
    let n := tyBits ty
    if tyQ ty ∧ a.toInt = -(2 ^ (n - 1)) then openVal 3 n a 0 else fitInt n sat (a.toInt.natAbs : Int)

/-- Conversion from type src to type dst (R421). -/
def elCvt (src dst : Nat) (sat : Bool) (a : Word) : FRes :=
  let n := tyBits dst
  let m := tyBits src
  if src = 4 ∧ dst = 4 then ⟨f32flush a, 0⟩
  else if dst = 4 then f32ofInt a.toInt (if tyQ src then -((m : Int) - 1) else 0)
  else if src = 4 then f32toInt n (if tyQ dst then n - 1 else 0) a
  else if tyQ src && tyQ dst then
    if m = n then ⟨a, 0⟩ else if m < n then ⟨a <<< 16, 0⟩ else fitInt n true ((a.toInt + 2 ^ 15) / 2 ^ 16)
  else fitInt n (sat && decide (n < m)) a.toInt

/-- Quotient (R421); an i32 quotient beyond the range wraps or saturates as the rule has it. -/
def elDiv (ty : Nat) (sat : Bool) (a b : Word) : FRes :=
  if ty = 4 then f32div 16 a b
  else
    let n := tyBits ty
    let x := a.toInt
    let y := b.toInt
    if y = 0 then
      ⟨BitVec.ofInt 32 (if x = 0 then 0 else if x < 0 then -(2 ^ (n - 1)) else 2 ^ (n - 1) - 1), 0⟩
    else
      let k : Int := if tyQ ty then x * 2 ^ (n - 1) else x
      let num := if y < 0 then -k else k
      let den : Int := (y.natAbs : Int)
      if !tyQ ty && decide (num % den = 0) then fitInt n sat (num / den)
      else nearInt 16 n a b (decide (num % den = 0)) (num / den)

/-- Square root (R421). -/
def elSqrt (ty : Nat) (a : Word) : FRes :=
  if ty = 4 then f32sqrt 17 a
  else
    let n := tyBits ty
    if a.toInt < 0 then ⟨0, 0⟩
    else
      let v := a.toInt.toNat * 2 ^ (n - 1)
      let r := root2 v 32 0
      nearInt 17 n a 0 (decide (r * r = v)) r

/-- Magnitude. -/
def elMag (ty : Nat) (a b : Word) : FRes :=
  if ty = 4 then f32mag 18 a b
  else
    let v := a.toInt.natAbs ^ 2 + b.toInt.natAbs ^ 2
    let r := root2 v 33 0
    nearInt 18 (tyBits ty) a b (decide (r * r = v)) r

/-- A > B; a comparison with a NaN is false. -/
def elGt (ty : Nat) (a b : Word) : Bool := if ty = 4 then (f32lt b a).getD false else decide (b.toInt < a.toInt)

/-- The larger (or smaller) of two values; with a NaN, or of two zeros, it is not stated for f32. -/
def elMax (op ty : Nat) (a b : Word) : Word :=
  if ty = 4 then
    match f32lt a b, f32lt b a with
    | some true, _ => f32flush (if op = 28 then a else b)
    | _, some true => f32flush (if op = 28 then b else a)
    | some false, some false => if f32flush a = f32flush b then f32flush a else Config.zinikApprox op a b
    | _, _ => Config.zinikApprox op a b
  else if decide (a.toInt < b.toInt) == (op != 28) then b else a

/-- An arithmetic right shift rounded by R184's rule. -/
def elShra (n : Nat) (a : Word) : Word :=
  if n = 0 then a else BitVec.ofInt 32 ((a.toInt + 2 ^ (n - 1)) / 2 ^ n)

/-- One element of an elementwise operation, from the elements of A and B. -/
def ZLink.el (l : ZLink) (a b : Word × Word) : (Word × Word) × BitVec 6 :=
  let ty := l.ty
  match l.op with
  | 1 => if l.cplx then cpx (elAdd ty l.sat a.1 b.1) (elAdd ty l.sat a.2 b.2) 0 else real (elAdd ty l.sat a.1 b.1)
  | 2 => if l.cplx then cpx (elSub ty l.sat a.1 b.1) (elSub ty l.sat a.2 b.2) 0 else real (elSub ty l.sat a.1 b.1)
  | 3 => real (elAbs ty l.sat a.1)
  | 4 => if l.cplx then cpx (elCvt l.aTy ty l.sat a.1) (elCvt l.aTy ty l.sat a.2) 0 else real (elCvt l.aTy ty l.sat a.1)
  | 8 =>
    if l.cplx then
      let rr := elMul ty l.sat a.1 b.1
      let ii := elMul ty l.sat a.2 b.2
      let ri := elMul ty l.sat a.1 b.2
      let ir := elMul ty l.sat a.2 b.1
      cpx (elSub ty l.sat rr.v ii.v) (elAdd ty l.sat ri.v ir.v) (rr.f ||| ii.f ||| ri.f ||| ir.f)
    else real (elMul ty l.sat a.1 b.1)
  | 9 =>
    let rr := elMul ty l.sat a.1 b.1
    let ii := elMul ty l.sat a.2 b.2
    let ri := elMul ty l.sat a.1 b.2
    let ir := elMul ty l.sat a.2 b.1
    cpx (elAdd ty l.sat rr.v ii.v) (elSub ty l.sat ir.v ri.v) (rr.f ||| ii.f ||| ri.f ||| ir.f)
  | 10 => real (elMul ty l.sat a.1 a.1)
  | 16 => real (elDiv ty l.sat a.1 b.1)
  | 17 => real (elSqrt ty a.1)
  | 18 => real (elMag ty a.1 a.2)
  | 19 => real (openVal 19 (tyBits ty) a.1 a.2)
  | 20 => cpx (openVal 20 (tyBits ty) a.1 0) (openVal 20 (tyBits ty) a.1 1) 0
  | 24 => ((a.1 &&& b.1, 0), 0)
  | 25 => ((a.1 ||| b.1, 0), 0)
  | 26 => ((a.1 ^^^ b.1, 0), 0)
  | 27 => ((elMax 27 ty a.1 b.1, 0), 0)
  | 28 => ((elMax 28 ty a.1 b.1, 0), 0)
  | 29 => ((if elGt ty a.1 b.1 then 0xFFFFFFFF else 0, 0), 0)
  | 30 => ((elShra (fldN l.w3 0 5) a.1, 0), 0)
  | _ => (a, 0)

/-- Element i of source B: scalar, stream, or nothing. -/
def State.srcB (s : State) (l : ZLink) (i : Nat) : Word × Word :=
  if opTwo l.op then
    if l.scal then (if tyBits l.ty = 16 then (l.w3.setWidth 16).signExtend 32 else l.w3, 0)
    else s.vsEl (strAddr l.w3 l.bE i).toNat l.ty l.cplx
  else (0, 0)

/-- Elements of source A: forwarded, or of the stream. -/
def State.srcA (s : State) (l : ZLink) (fwd : List (Word × Word)) (i : Nat) : Word × Word :=
  if forwarded l.w2 then fwd.getD i (0, 0) else s.vsEl (strAddr l.w2 l.aE i).toNat l.aTy l.aCplx

/-- Byte offset of an indexed element, where its index and address are in range (R421). -/
def idxAddr (w : Word) (e : Nat) (i : Word) : Option Nat :=
  if 0 ≤ i.toInt ∧ i.toInt ≤ 65535 then
    let a := 16 * strBase w + i.toNat * e
    if a + e ≤ vsBytes then some a else none
  else none

/-- Saturated sum of integer elements, or the f32 sum of lanes (R421). -/
def sumLane (l : List Word) : FRes :=
  l.foldl (fun (acc : Option FRes) x => match acc with
    | none => some ⟨f32flush x, 0⟩
    | some r => let t := f32add 40 r.v x
                some ⟨t.v, r.f ||| t.f⟩) none |>.getD ⟨0, 0⟩

/-- Every sixteenth element from lane k. -/
def laneEls (xs : List Word) (k : Nat) : List Word := (List.range ((xs.length + 15 - k) / 16)).map (fun j => xs.getD (k + 16 * j) 0)

/-- Neighbours added pairwise, n times. -/
def pairwise : Nat → List FRes → List FRes
  | 0, l => l
  | n + 1, l =>
    pairwise n ((List.range ((l.length + 1) / 2)).map (fun j =>
      let a := l.getD (2 * j) ⟨0, 0⟩
      match l[2 * j + 1]? with
      | none => a
      | some b => let t := f32add 40 a.v b.v
                  ⟨t.v, a.f ||| b.f ||| t.f⟩))

/-- Sum of real parts. -/
def reduceSum (ty : Nat) (xs : List Word) : FRes :=
  if ty = 4 then
    (pairwise 4 ((List.range (min 16 xs.length)).map (fun k => sumLane (laneEls xs k)))).getD 0 ⟨0, 0⟩
  else fitInt (tyBits ty) true (xs.foldl (fun n x => n + x.toInt) 0)

/-- Largest element. -/
def reduceMax (ty : Nat) : List Word → Word
  | [] => 0
  | x :: t => t.foldl (fun m y => elMax 41 ty m y) x

/-- What a link produces: its elements, and the flags of each. -/
def State.linkOut (s : State) (l : ZLink) (fwd : List (Word × Word)) : List ((Word × Word) × BitVec 6) :=
  let n := l.vl
  if l.op = 40 then
    let xs := (List.range n).map (fun i => s.srcA l fwd i)
    let re := reduceSum l.ty (xs.map Prod.fst)
    if l.cplx then [cpx re (reduceSum l.ty (xs.map Prod.snd)) 0] else [real re]
  else if l.op = 41 then [((reduceMax l.ty ((List.range n).map (fun i => (s.srcA l fwd i).1)), 0), 0)]
  else if opGather l.op then
    (List.range n).map (fun i =>
      match idxAddr l.w2 l.aE (s.vsRead (strAddr l.w3 4 i).toNat 32) with
      | none => ((0, 0), 32)
      | some a => (s.vsEl a l.ty l.cplx, 0))
  else (List.range n).map (fun i => l.el (s.srcA l fwd i) (s.srcB l i))

/-- Offset at which element i of a link is written. -/
def State.dstAddr (s : State) (l : ZLink) (i : Nat) : Option Nat :=
  if opScatter l.op then idxAddr l.w1 l.dE (s.vsRead (strAddr l.w3 4 i).toNat 32) else some (strAddr l.w1 l.dE i).toNat

/-- Elements written to the vector store from index i on. -/
def State.writeEls (s : State) (l : ZLink) : Nat → List (Word × Word) → State
  | _, [] => s
  | i, x :: t =>
    let m := match s.dstAddr l i with
      | none => s.mem.vs
      | some a => mwrite 0 s.mem.vs a (elData l.ty l.dCplx x)
    State.writeEls { s with mem := { s.mem with vs := m } } l (i + 1) t

/-- Enabled floating-point exceptions among flags (R435). -/
def State.fpx (s : State) (f : BitVec 6) : BitVec 6 := f &&& 7 &&& (fld (s.reg R.zveCtl) 24 3).setWidth 6

/-- Index of the first element whose flags hold an enabled exception. -/
def State.firstFault (s : State) (fs : List (BitVec 6)) : Option Nat :=
  let i := fs.findIdx (fun f => s.fpx f ≠ 0)
  if i < fs.length then some i else none

/-- An imprecise exception recorded in a bank (13 R368): the first is kept, further ones are counted. -/
def AexcSt.record (a : AexcSt) (kind : Word) (pc : Word) (tag elem : Byte) : AexcSt :=
  if fldN a.info 0 3 = 0 then
    { pc := pc, info := kind ||| (tag.setWidth 32 <<< 16) ||| (elem.setWidth 32 <<< 24) }
  else
    let m : Byte := satInc (fld a.info 8 8)
    { a with info := (a.info &&& 0xFFFF00FF) ||| (m.setWidth 32 <<< 8) }

/-- Recording in the scan or the kernel bank. -/
def State.recordAexc (s : State) (scan : Bool) (kind pc : Word) (tag elem : Byte) : State :=
  if scan then { s with core := { s.core with aexc1 := s.core.aexc1.record kind pc tag elem } }
  else { s with core := { s.core with aexc0 := s.core.aexc0.record kind pc tag elem } }

/-- A scattered element whose index or address is out of range is not written and sets ERR (R421). -/
def State.scatterFlags (s : State) (l : ZLink) (i : Nat) : BitVec 6 :=
  if opScatter l.op && (s.dstAddr l i).isNone then 32 else 0

/-- The running chain's next link executes (R420 to R423, R433, R435); the last link writes memory, all elements but
those at or beyond limit, or beyond a precise exception. Its flags are kept until the chain ends (log entry 101). -/
def State.linkRun (s : State) (limit : Nat) : State :=
  match s.zve.run with
  | none => s
  | some r =>
    match r.chain.links[r.done]? with
    | none => s
    | some l =>
      let out := s.linkOut l r.fwd
      let fs := out.map Prod.snd
      let stop := if r.chain.precise then (s.firstFault fs).getD out.length else out.length
      let used := (fs.take (if r.chain.precise then stop + 1 else stop)).zipIdx
      let marks := (used.map (fun x => (x.2, x.1 ||| s.scatterFlags l x.2))).filter (fun x => x.2 != 0)
      let els := out.map Prod.fst
      let s1 := if l.chain then s else s.writeEls l 0 (els.take (min limit stop))
      { s1 with zve := { s1.zve with run := some { r with done := r.done + 1, fwd := els, exc := r.exc ++ [marks] } } }

/-- The next link of the running chain has this operation. -/
def State.nextOp (s : State) (op : Nat) : Bool :=
  match s.zve.run with
  | none => false
  | some r => match r.chain.links[r.done]? with
    | none => false
    | some l => l.op == op

/-- Number of retired lanes, and the coverage state (Table ZVE-7). -/
def ZveSt.nRetired (z : ZveSt) : Nat := z.lane.toList.countP (· == 3)
def ZveSt.coverage (z : ZveSt) : Nat := min 3 z.nRetired

/-- Status word (Table ZVE-6). -/
def statusWord (tag : Byte) (st index : Nat) (late reduced sat fpx err : Bool) : Word :=
  tag.setWidth 32 ||| at_ st 8 ||| bitAt late 11 ||| bitAt reduced 12 ||| bitAt sat 13 ||| bitAt fpx 14 ||| bitAt err 15 |||
    at_ index 16

/-- The completion action of an entry (R436): the ring item at once, the thread flag and the flag toward ZWAIT 20 ns later (02 Table
TIME-3). -/
def State.zvNotify (s : State) (c : ZChain) (l : ZLink) (status : Word) : State :=
  let ctl := s.reg R.zveCtl
  let t : Fin 64 := match c.scan, c.slot with
    | false, some t => t
    | _, _ => fin 63 (fldN ctl 8 6)
  let note : ZNote := { tag := l.tag, due := s.time.dt + 2, slot := if l.note = 1 ∨ l.note = 3 then some t else none,
                        bits := bitAt true (fldN ctl 0 5) }
  let s1 : State := { s with zve := { s.zve with notes := s.zve.notes ++ [note] } }
  if l.note = 2 ∨ l.note = 3 then
    let r := fin 63 (fldN ctl 16 6)
    (s1.ringHdr r 3 ((l.tag.setWidth 32 <<< 16) ||| 2)).ringData r 3 status
  else s1

/-- Completion flags that are due reach CORE. -/
def State.zvArrive (s : State) : State :=
  let due := s.zve.notes.filter (fun n => decide (n.due ≤ s.time.dt))
  if due.isEmpty then s
  else due.foldl (fun t n => match n.slot with
      | none => t
      | some x => t.setFlags x n.bits)
    { s with zve := { s.zve with notes := s.zve.notes.filter (fun n => !decide (n.due ≤ s.time.dt)) } }

/-- A chain ends: every link's status word, then the notification of the last link (R434, R436). -/
def State.zvEnd (s : State) (c : ZChain) (st index : Nat) (late : Bool) (flags : BitVec 6) (fpx : Bool) : State :=
  c.links.foldl (fun t l =>
    let w := statusWord l.tag st index late (decide (t.zve.coverage = 2)) (flags.getLsbD 3) fpx (flags.getLsbD 5 || flags.getLsbD 4)
    (t.setReg (R.zveRes (l.tag.toNat % 16)) w).zvNotify c l w) s

/-- ZVE_EVT for an ended chain. -/
def State.zvEvt (s : State) (st : Nat) (fpx err : Bool) : State :=
  let v := bitAt fpx 0 ||| bitAt err 1 ||| bitAt (st == 2) 2 ||| bitAt (st == 4) 3 ||| bitAt (st == 3) 6
  if v = 0 then s else s.orReg R.zveEvt v

/-- A queued chain ends FLUSHED (R430, R437). -/
def State.zvFlush1 (s : State) (c : ZChain) : State := (s.zvEnd c 3 0 false 0 false).zvEvt 3 false false

/-- Every queued chain ends FLUSHED. -/
def State.zvFlushQueue (s : State) : State :=
  s.zve.queue.foldl State.zvFlush1 { s with zve := { s.zve with queue := [] } }

/-- Cycles of a memory stream's accesses, and whether it conforms (R431, R432). -/
def strAcc (w : Word) (e vl : Nat) (plain : Bool) : Nat × Bool :=
  let b := (strStride w * (e : Int)).natAbs
  let conf := plain && (decide (b < 8) || (decide (b % 8 = 0) && decide (b / 8 % 61 ≠ 0)))
  let n := if b < 8 then (vl * b + 7) / 8 + 1 else vl
  (if conf then (n + 60) / 61 else n, conf)

/-- Memory streams of a chain. -/
def ZLink.streams (l : ZLink) : List (Nat × Bool) :=
  (if forwarded l.w1 || opReduce l.op then [] else [strAcc l.w1 l.dE l.vl (!opScatter l.op)]) ++
    (if forwarded l.w2 || (strStride l.w2 == 0 && !opGather l.op) then [] else [strAcc l.w2 l.aE l.vl (!opGather l.op)]) ++
    (if l.bStream && strStride l.w3 != 0 then [strAcc l.w3 l.bE l.vl true] else [])

/-- C of a chain (R432, R433). -/
def ZChain.cycles (c : ZChain) : Nat :=
  let g := match c.links with
    | [] => 0
    | l :: _ => (l.vl + 15) / 16
  let st := c.links.flatMap ZLink.streams
  let sop := c.links.foldl (fun n l => n + opCycles l.op) 0
  let s := sop + 2 * (c.links.length - 1)
  if c.precise then sop + 2 * g + 2 * g / 7
  else if st.length ≤ 3 ∧ st.all Prod.snd then s + g + g / 7
  else s + max (g + g / 7) ((8 * (st.foldl (fun n x => n + x.1) 0) + 6) / 7)

/-- The chain that runs is abandoned or ends early: the cycles it ran are counted (ZVE_BUSY), four to a tick. -/
def State.zvLeave (s : State) (r : ZRun) : State :=
  let ran := if r.start ≤ s.time.dt then min (4 * (s.time.dt - r.start).toNat) r.chain.cycles else 0
  { s with zve := { s.zve with run := none, busy := s.zve.busy + BitVec.ofNat 64 ran } }

/-- The engine with everything it holds abandoned, without a status word (04 R122, 05 R139). -/
def State.zvDropped (s : State) : ZveSt :=
  { (match s.zve.run with
    | none => s
    | some r => s.zvLeave r).zve with queue := [] }

/-- The flush of a discard (R430): queue and running chain. -/
def State.zvFlushAll (s : State) : State :=
  let s1 := s.zvFlushQueue
  match s.zve.run with
  | none => s1
  | some r => (s1.zvLeave r).zvFlush1 r.chain

/-- ZVE_CNT field at bit lo counted up. -/
def State.zvCount (s : State) (lo : Nat) : State :=
  let v := s.reg R.zveCnt
  let b : Byte := v.extractLsb' lo 8
  s.setReg R.zveCnt ((v &&& ~~~((0xFF : Word) <<< lo)) ||| ((satInc b).setWidth 32 <<< lo))

/-- VECTOR is powered (02 R40). -/
def State.vecOn (s : State) : Bool := s.running && s.time.pwr.getLsbD 1

/-- The next chain to run: scan chains first, in issue order (R429). -/
def ZveSt.pick (z : ZveSt) : Option ZChain :=
  match z.queue.find? (fun c => c.closed && c.scan) with
  | some c => some c
  | none => z.queue.find? (fun c => c.closed)

/-- Scan context: from the latch instant to COMMIT issue, or until the scan is abandoned (09 R235). -/
def State.scanCtx (s : State) : Bool := s.core.scan || s.scan.latch.isSome

/-- A chain begins (R428). In scan context only scan chains do, so that none of them waits behind another chain (R429, log entry 105). -/
def State.zvStart (s : State) : State :=
  match s.zve.run, s.zve.pick with
  | none, some c =>
    if s.vecOn && decide (s.zve.coverage < 3) && (c.scan || !(s.scanCtx || s.scan.redo)) then
      { s with zve := { s.zve with queue := s.zve.queue.erase c,
                                   run := some { chain := { c with susp := false }, done := 0, fwd := [], exc := [],
                                                 replayed := false, abort := false, said := false, start := s.time.dt } } }
    else s
  | _, _ => s

/-- The links still to run are run; elements at or beyond limit are not written. -/
def State.zvFinish (s : State) (limit : Nat) : State :=
  match s.zve.run with
  | none => s
  | some r => Nat.repeat (fun t => State.linkRun t limit) (r.chain.links.length - r.done) s

/-- Elements below limit that raised flags, link by link, with them. -/
def ZRun.marks (r : ZRun) (limit : Nat) : List (ZLink × Nat × BitVec 6) :=
  (r.chain.links.zip r.exc).flatMap (fun x => (x.2.filter (fun m => decide (m.1 < limit))).map (fun m => (x.1, m.1, m.2)))

/-- INDEX of a floating-point exception (Table ZVE-6): the earliest faulting element, or the first of its group. -/
def State.fpxIndex (s : State) (precise : Bool) (ms : List (ZLink × Nat × BitVec 6)) : Nat :=
  let is := (ms.filter (fun m => s.fpx m.2.2 ≠ 0)).map (fun m => m.2.1)
  let i := is.foldl min (is.headD 0)
  if precise then i else i / 16 * 16

/-- The flags of a chain's elements take effect at its end (R435): ZVE_FPX, and each enabled exception recorded, link by link (log entry
101). -/
def State.zvMarks (s : State) (scan : Bool) (index : Nat) (ms : List (ZLink × Nat × BitVec 6)) : State :=
  ms.foldl (fun t m =>
    let keep := t.fpx m.2.2 ||| (m.2.2 &&& 0x38)
    let t1 := if keep = 0 then t else t.orReg R.zveFpx (keep.setWidth 32)
    if t.fpx m.2.2 = 0 then t1 else t1.recordAexc scan 3 m.1.pc m.1.tag (BitVec.ofNat 8 index)) s

/-- The running chain ends with a status; limit bounds the elements that count; busy: the cycles it ran. -/
def State.zvRunEnd (s : State) (st : Nat) (index : Option Nat) (late : Bool) (limit : Nat) : State :=
  match s.zve.run with
  | none => s
  | some r =>
    let ms := r.marks limit
    let flags := ms.foldl (fun f m => f ||| m.2.2) 0
    let fpx := ms.any (fun m => s.fpx m.2.2 ≠ 0)
    let at_ := s.fpxIndex r.chain.precise ms
    let s1 := if st = 1 then { s with zve := { s.zve with run := none, busy := s.zve.busy + BitVec.ofNat 64 r.chain.cycles } }
      else s.zvLeave r
    ((s1.zvMarks r.chain.scan at_ ms).zvEnd r.chain st (index.getD at_) late flags fpx).zvEvt st fpx
      (flags.getLsbD 5 || flags.getLsbD 4)

/-- Element i of link l reads a byte of the 64-bit word at offset w. -/
def State.elReads (s : State) (l : ZLink) (w i : Nat) : Bool :=
  let hit (a e : Nat) : Bool := decide (a < w + 8) && decide (w < a + e)
  let b := l.bStream && hit (strAddr l.w3 l.bE i).toNat l.bE
  if forwarded l.w2 then b
  else if opGather l.op then
    b || (match idxAddr l.w2 l.aE (s.vsRead (strAddr l.w3 4 i).toNat 32) with
      | none => false
      | some a => hit a l.aE)
  else b || hit (strAddr l.w2 l.aE i).toNat l.aE

/-- Elements of the chain that depend on the word at offset w; those a precise exception stopped apart. -/
def State.elDeps (s : State) (r : ZRun) (w : Nat) : List Nat :=
  let vl := match r.chain.links with
    | [] => 0
    | l :: _ => l.vl
  let stop := if r.chain.precise then
      ((r.marks 65536).find? (fun m => s.fpx m.2.2 ≠ 0)).elim vl (fun m => m.2.1) else vl
  (List.range stop).filter (fun i => r.chain.links.any (fun l => s.elReads l w i))

/-- Element i of link l is written as 0, unless a later scattered element stands there (R421). -/
def State.zeroEl (s : State) (l : ZLink) (i : Nat) : State :=
  if opScatter l.op && (List.range l.vl).any (fun j => decide (i < j) && s.dstAddr l j == s.dstAddr l i) then s
  else s.writeEls l i [(0, 0)]

/-- An uncorrectable error met by a far access or by Zinik (R445, Table ZVE-8). -/
def State.vsEcc (s : State) (offset : Nat) (tag : Word) : State :=
  s.sayRate 100000 0 .zve 0x5006 (BitVec.ofNat 32 offset) tag 0 0

/-- An uncorrectable error of the vector store read by the running chain (R445): VS_ECC, ERR, ZVE_ERR_ADDR, and the elements that
depend on it written as 0; of a reduction its one element. -/
def State.zvUe (s : State) (offset : Nat) : State :=
  match s.zve.run with
  | none => s
  | some r =>
    match s.elDeps r (offset / 8 * 8), r.chain.links.getLast? with
    | [], _ => s
    | _, none => s
    | i :: t, some l =>
      let bad := if opReduce l.op then [0] else i :: t
      let s1 := ((s.vsEcc offset (l.tag.setWidth 32)).setReg R.zveErr (BitVec.ofNat 32 offset))
      let s2 := bad.foldl (fun u j => u.zeroEl l j) s1
      let kept := r.exc.map (fun x => x.filter (fun m => !(i :: t).contains m.1))
      let last := (if opReduce l.op then [] else kept.getLastD []) ++ bad.map (fun j => (j, (16 : BitVec 6)))
      { s2 with zve := { s2.zve with run := some { r with exc := kept.dropLast ++ [last] } } }

/-- A chain completes (R434), with an uncorrectable error it read, if any. -/
def State.zvComplete (s : State) (ue : Option (Fin 499712)) : State :=
  let s1 := s.zvFinish 65536
  (match ue with
    | none => s1
    | some o => s1.zvUe o.val).zvRunEnd 1 none false 65536

/-- ZVE_ABORT with RUN (R437): a chain whose last element is written ends DONE with ABORT_LATE. -/
def State.zvAbortRun (s : State) : State :=
  match s.zve.run with
  | none => s
  | some r =>
    if r.done = r.chain.links.length then s.zvRunEnd 1 none true 65536
    else { s with zve := { s.zve with run := some { r with abort := true } } }

/-- The aborted chain ends with the groups written that n elements have begun; a reduction has no element written (R437). -/
def State.zvAborted (s : State) (n : Nat) : State :=
  match s.zve.run with
  | none => s
  | some r =>
    if r.abort then
      let red := r.chain.links.any (fun l => opReduce l.op)
      let vl := match r.chain.links with
        | [] => 0
        | l :: _ => l.vl
      let m := if red then 0 else min ((n + 15) / 16 * 16) vl
      (s.zvFinish m).zvRunEnd 2 (some m) false m
    else s

/-- ZVE_ABORT written (R437). -/
def State.zvAbortWrite (s : State) (v : Word) : State :=
  if fld v 16 16 = 0x2A6D then
    let s1 := if bit v 0 then s.zvAbortRun else s
    if bit v 1 then s1.zvFlushQueue else s1
  else s

/-- The running kernel chain is suspended at the latch instant (R429); one that is being aborted ends (log entry 101). -/
def State.zvSuspend (s : State) : State :=
  match s.zve.run with
  | none => s
  | some r =>
    if r.chain.scan || r.abort then s
    else
      let t := s.zvLeave r
      ({ t with zve := { t.zve with queue := { r.chain with susp := true } :: t.zve.queue } }).zvCount 24

/-- Entries held: links queued, suspended and running (R426). -/
def ZveSt.held (z : ZveSt) : Nat :=
  z.queue.foldl (fun n c => n + c.links.length) 0 + (match z.run with
    | none => 0
    | some r => r.chain.links.length)
def ZveSt.heldKernel (z : ZveSt) : Nat :=
  z.queue.foldl (fun n c => if c.scan then n else n + c.links.length) 0 + (match z.run with
    | none => 0
    | some r => if r.chain.scan then 0 else r.chain.links.length)

/-- What ZISS meets. -/
inductive ZissRes where
  | busError | illegal | offline | full
  | queued (tag : Byte)
  deriving DecidableEq, Repr

/-- The open chain of a context. -/
def ZveSt.opened (z : ZveSt) (scan : Bool) : Option ZChain := z.queue.find? (fun c => !c.closed && c.scan == scan)

/-- A descriptor offered to the queue (R424 to R427). -/
def State.zvIssue (s : State) (scan : Bool) (pc w0 w1 w2 w3 : Word) : ZissRes × State :=
  if !s.time.pwr.getLsbD 1 then (.busError, s)
  else if s.zve.coverage = 3 then (.offline, s)
  else
    let l : ZLink := { w0, w1, w2, w3, tag := s.zve.tag, pc }
    let open_ := s.zve.opened scan
    let before := match open_ with
      | none => []
      | some c => c.links
    if !zvCheck before l s.core.precise then
      (.illegal, match open_ with
        | none => s
        | some c => ({ s with zve := { s.zve with queue := s.zve.queue.erase c } }).zvFlush1 c)
    else if 8 ≤ s.zve.held ∨ (!scan ∧ 4 ≤ s.zve.heldKernel) then (.full, s)
    else
      let rest := match open_ with
        | none => s.zve.queue
        | some c => s.zve.queue.erase c
      let c : ZChain := { links := before ++ [l], closed := !l.chain, scan, precise := s.core.precise,
                          slot := s.sch.run, susp := false }
      (.queued l.tag, { s with zve := { s.zve with queue := rest ++ [c], tag := s.zve.tag + 1 } })

/-- A command of a tag is queued or running, or its completion flag has not reached CORE. -/
def ZveSt.hasTag (z : ZveSt) (tag : Byte) : Bool :=
  z.notes.any (fun n => n.tag == tag) || z.queue.any (fun c => c.links.any (fun l => l.tag == tag)) || (match z.run with
    | none => false
    | some r => r.chain.links.any (fun l => l.tag == tag))

/-- The shadow lane and the idle spare. -/
def ZveSt.find (z : ZveSt) (st : BitVec 2) : Option (Fin 18) := (List.finRange 18).find? (fun p => z.lane[p] == st)

/-- Lanes of an engine that is OFFLINE: those not retired show as SPARE (Table ZVE-7, log entry 106). -/
def ZveSt.settle (z : ZveSt) : ZveSt :=
  if z.coverage = 3 then { z with lane := z.lane.map (fun x => if x = 3 then 3 else 2) } else z

/-- Lane p leaves service: an active lane's logical number goes to the idle spare, else to the shadow; the spare
replaces a lost shadow (R440). -/
def ZveSt.retire (z : ZveSt) (p : Fin 18) : ZveSt :=
  let was := z.lane[p]
  let z1 := { z with lane := vput z.lane p 3, retired := setBit z.retired p.val true }
  if was = 0 then
    let heir := (z.find 2).or (z.find 1)
    match heir with
    | none => z1
    | some h => { z1 with lane := vput z1.lane h 0, map := z.map.map (fun q => if q = p then h else q) }
  else if was = 1 then
    match z.find 2 with
    | none => z1
    | some h => { z1 with lane := vput z1.lane h 1 }
  else z1

/-- A lane retired, with its entries and events (R440, R443). -/
def State.laneRetire (s : State) (p : Fin 18) : State :=
  if s.zve.lane[p] = 3 then s
  else
    let old := s.zve.coverage
    let z := (s.zve.retire p).settle
    let s1 := ({ s with zve := z }).evt R.zveEvt 4
    let s2 := s1.say .zve 0x5002 (BitVec.ofNat 32 p.val) (BitVec.ofNat 32 z.nRetired) (BitVec.ofNat 32 z.coverage) 0
    if z.coverage = old then s2
    else (s2.evt R.zveEvt 5).say .zve 0x5004 (BitVec.ofNat 32 old) (BitVec.ofNat 32 z.coverage) (z.retired.setWidth 32) 0

/-- Lanes of a mask retired. -/
def State.laneRetires (s : State) (mask : BitVec 18) : State :=
  (List.finRange 18).foldl (fun t p => if mask.getLsbD p.val then t.laneRetire p else t) s

/-- A lane fault of this kind can occur in lane p: 1 residue or parity in an active lane, 2 shadow mismatch against lane p, 3 control
parity, 4 the shadow lane alone. -/
def ZveSt.canFault (z : ZveSt) (kind : Nat) (p : Fin 18) : Bool :=
  match kind with
  | 1 => z.lane[p] == 0
  | 2 => (z.find 1).isSome && z.lane[p] != 3 && z.lane[p] != 1
  | 4 => z.lane[p] == 1
  | _ => true

/-- Lanes that a fault takes out of service; failed: the lanes that fail the self-test after a mismatch. -/
def ZveSt.faultMask (z : ZveSt) (kind : Nat) (p : Fin 18) (failed : BitVec 18) : BitVec 18 :=
  let self : BitVec 18 := setBit 0 p.val true
  match kind with
  | 1 | 4 => self
  | 2 => failed &&& (self ||| (match z.find 1 with
    | none => 0
    | some q => setBit 0 q.val true))
  | _ => 0

/-- The chain's LANE_FAULT, once a chain (Table ZVE-8). -/
def State.sayLaneFault (s : State) (who : Word) (kind : Nat) (tag : Word) (exhausted : Bool) : State :=
  match s.zve.run with
  | none => s.say .zve 0x5001 who (BitVec.ofNat 32 kind) tag (bitAt exhausted 0)
  | some r =>
    if r.said then s
    else ({ s with zve := { s.zve with run := some { r with said := true } } }).say .zve 0x5001 who (BitVec.ofNat 32 kind) tag
      (bitAt exhausted 0)

/-- A lane fault (R440, R441, Table ZVE-10). A fault before the chain runs again shares its replay; in a chain being aborted nothing runs
again. True: replay is exhausted, which discards a scan in progress (09 R255). -/
def State.laneFaultEv (s : State) (kind : Nat) (p : Fin 18) (failed : BitVec 18) : State × Bool :=
  if !s.zve.canFault kind p then (s, false)
  else
    let mask := s.zve.faultMask kind p failed
    let tag : Word := match s.zve.run with
      | none => 0
      | some r => match r.chain.links.getLast? with
        | none => 0
        | some l => l.tag.setWidth 32
    let shadow : Word := match s.zve.find 1 with
      | none => 0xFF
      | some q => BitVec.ofNat 32 q.val
    let s1 := (s.zvCount 0).laneRetires mask
    let waiting := match s.zve.run with
      | none => false
      | some r => r.replayed && decide (s.time.dt < r.start)
    let exhausted := match s.zve.run with
      | none => false
      | some r => kind != 4 && !r.abort &&
          ((!waiting && (r.replayed || (s.scanCtx && s.zve.scanFault))) || decide (s1.zve.coverage = 3))
    let who : Word := if kind = 3 then 0xFF else BitVec.ofNat 32 p.val
    let s2 := s1.sayLaneFault who kind tag exhausted
    let s3 := if kind = 2 ∧ mask = 0 then
        (s2.zvCount 16).sayRate 100000 0 .zve 0x5003 shadow (BitVec.ofNat 32 p.val) tag 0 else s2
    let s4 := if s.scanCtx then { s3 with zve := { s3.zve with scanFault := true } } else s3
    match s4.zve.run with
    | none => (s4, false)
    | some r =>
      if exhausted then (s4.zvRunEnd 4 none false 0, true)
      else if kind == 4 || r.abort || waiting then (s4, false)
      else
        let t := s4.zvLeave r
        let again := s.time.dt + (if kind = 2 then 36 else 4)
        (({ t with zve := { t.zve with run := some { r with done := 0, fwd := [], exc := [], replayed := true,
                                                            start := again } } }).zvCount 8,
          false)

/-- The shadow role rotates by one step (R439): steps 16 and 17 exchange shadow and spare. -/
def State.rotate (s : State) : State :=
  let n := if s.zve.coverage = 0 then 18 else 17
  if 2 ≤ s.zve.coverage then s
  else
    let st := (s.zve.step + 1) % n
    let z := { s.zve with step := st }
    match decide (16 ≤ st), s.zve.find 1, s.zve.find 2 with
    | true, some a, some b => { s with zve := { z with lane := vput (vput z.lane a 2) b 1 } }
    | _, _, _ => { s with zve := z }

/-- The idle self-test (R439): the lanes that fail are retired. -/
def State.selfTest (s : State) (failed : BitVec 18) : State :=
  match s.zve.run with
  | none => if s.vecOn then s.laneRetires failed else s
  | some _ => s

/-- Roles at start step 5 (R446): lanes of the mask and those retained are retired; the lowest others are ACTIVE, the next
SHADOW, the next SPARE. BIST_RETIRE where the step retired a lane: in a cold start also one that the Winter domain retains; in a warm
start such a lane stays retired (R447). -/
def State.lanesStart (s : State) (cold : Bool) (bad : BitVec 18) : State :=
  let ret := s.zve.retired ||| bad
  let good := (List.finRange 18).filter (fun p => !ret.getLsbD p.val)
  let off := decide (good.length < 16)
  let lane := Vector.ofFn (fun p : Fin 18 =>
    if ret.getLsbD p.val then 3
    else
      let i := good.findIdx (· == p)
      if off then (2 : BitVec 2) else if i < 16 then 0 else if i = 16 then 1 else 2)
  let map := Vector.ofFn (fun l : Fin 16 => good.getD l.val 0)
  let z := { s.zve with lane := lane, map := if off then s.zve.map else map, step := 0, retired := ret }
  let s1 := { s with zve := z }
  let new := if cold then ret else bad &&& ~~~s.zve.retired
  if new = 0 then s1 else s1.say .zve 0x5005 (new.setWidth 32) (BitVec.ofNat 32 z.coverage) 0 0

end Sys2Proof.Machine
end

