-- ==== Sys2Proof/Machine/Except.lean ====
section
/-! DEFINITION. The scan core's registers, interrupt sources, exception entry and return, window traps, lockup, and the
end of a scan by commit, discard, skip or overrun (09, 12, 13). -/

namespace Sys2Proof.Machine

/-- Registers of SCN, EXC and ICU. -/
def R.scnSeq : Nat := 0x00070004
def R.scnCyc : Nat := 0x00070008
def R.scnCycMax : Nat := 0x0007000C
def R.scnCommitDt : Nat := 0x00070010
def R.scnCnt : Nat := 0x00070018
def R.scnFault : Nat := 0x0007001C
def R.scnFaultPc : Nat := 0x00070020
def R.scnEvt : Nat := 0x00070030
def R.excCnt : Nat := 0x000A0000
def R.lockPc : Nat := 0x000A0004
def R.lockInfo : Nat := 0x000A0008
def R.icuSw (n : Nat) : Nat := 0x000A0120 + 4 * n
def R.icuCfg (n : Nat) : Nat := 0x000A0200 + 4 * n

/-! Registers. -/

/-- Physical register of a register field (R321, R323); in the window double fault k28 to k31 are the shadow bank (R373). -/
def CoreSt.phys (c : CoreSt) (f : Nat) : Nat :=
  let w := c.cwp.toNat
  if f < 32 then (if c.df && decide (28 ≤ f) then 132 + f else f)
  else if f < 40 then 40 + 16 * ((w + 7) % 8) + (f - 32)
  else if f < 48 then 32 + 16 * w + (f - 40)
  else 40 + 16 * w + (f - 48)

/-- Register at a physical index. -/
def CoreSt.at (c : CoreSt) (i : Nat) : Word := (c.r[i]?).getD 0

/-- Register at a physical index written; k0 keeps its 0 (R322). -/
def CoreSt.putAt (c : CoreSt) (i : Nat) (v : Word) : CoreSt :=
  if i = 0 then c else { c with r := c.r.setIfInBounds i v }

/-- Register of a field. -/
def CoreSt.get (c : CoreSt) (f : Nat) : Word := c.at (c.phys f)

/-- Register of a field written. -/
def CoreSt.put (c : CoreSt) (f : Nat) (v : Word) : CoreSt := c.putAt (c.phys f) v

/-- Predicate i; p0 reads 1. -/
def CoreSt.pred (c : CoreSt) (i : Nat) : Bool := i == 0 || c.p.getLsbD i

/-- The predicates as a word: bit i is p[i]. -/
def CoreSt.preds (c : CoreSt) : Word := (c.p ||| 1).setWidth 32

/-- PSR (Table ISA-11). -/
def CoreSt.psr (c : CoreSt) : Word :=
  bitAt c.priv 0 ||| bitAt c.ie 1 ||| bitAt c.scan 2 ||| bitAt c.precise 3 ||| at_ c.mask.toNat 4

/-- PSR written but for SCAN. -/
def CoreSt.setPsr (c : CoreSt) (v : Word) : CoreSt :=
  { c with priv := bit v 0, ie := bit v 1, precise := bit v 3, mask := fld v 4 4 }

/-- WP (Table ISA-12). -/
def CoreSt.wp (c : CoreSt) : Word := at_ c.cwp.toNat 0 ||| at_ c.rw.toNat 8

/-- EXC_STATE (Table EXC-10). -/
def CoreSt.excState (c : CoreSt) : Word :=
  bitAt c.df 0 ||| bitAt c.wtrap 1 ||| bitAt c.uentry 2 ||| at_ c.desc.toNat 8

/-- Loads in their delay write their destinations, oldest first (R327, R387). -/
def CoreSt.flushLoads (c : CoreSt) : CoreSt :=
  { c.loads.foldl (fun (d : CoreSt) x => d.putAt x.reg x.value) c with loads := [] }

/-- The next window would be the reserved one. -/
def CoreSt.wouldOverflow (c : CoreSt) : Bool := c.cwp + 1 == c.rw

/-- Changes of the core. -/
def State.withCore (s : State) (f : CoreSt → CoreSt) : State := { s with core := f s.core }

/-- n CORE cycles pass for the core. -/
def State.cycles (s : State) (n : Nat) : State := s.withCore (fun c => { c with cyc := c.cyc + BitVec.ofNat 64 n })

/-! Interrupt sources (Table EXC-4). -/

/-- EVT and IEN of a source whose request is their conjunction. -/
def evtIen : Nat → Option (Nat × Nat)
  | 3 => some (0x0003000C, 0x00030010) | 4 => some (0x00040280, 0x00040284) | 5 => some (0x00050160, 0x00050164)
  | 6 => some (0x00060380, 0x00060384) | 7 => some (0x00070030, 0x00070034) | 8 => some (0x00080060, 0x00080064)
  | 9 => some (0x00090080, 0x00090084) | 10 => some (0x000B0030, 0x000B0034) | 11 => some (0x000D0040, 0x000D0044)
  | 12 => some (0x000E0080, 0x000E0084) | 13 => some (0x000F0040, 0x000F0044) | 14 => some (0x000F8050, 0x000F8054)
  | 15 => some (0x00100004, 0x00100008) | 17 => some (0x00120040, 0x00120044) | 18 => some (0x00130050, 0x00130054)
  | 19 => some (0x00140020, 0x00140024) | 20 => some (0x00150020, 0x00150024) | 21 => some (0x00160010, 0x00160014)
  | 22 => some (0x00161010, 0x00161014) | 23 => some (0x00162010, 0x00162014) | 24 => some (0x00163010, 0x00163014)
  | 25 => some (0x00170010, 0x00170014) | 26 => some (0x00171010, 0x00171014) | 27 => some (0x00180010, 0x00180014)
  | 28 => some (0x00181010, 0x00181014) | 50 => some (0x001B0060, 0x001B0064)
  | _ => none

/-- The request line of source n. ISL has no enable register, so its warnings request by themselves; SYS, CFG, IEU and XSPI
have no event register (log entry 40). -/
def State.irq (s : State) (n : Nat) : Bool :=
  if n = 0 then s.reg R.cmonWarn != 0
  else if 29 ≤ n ∧ n ≤ 36 then bit (s.reg 0x00190040 &&& s.reg 0x00190044) (n - 29)
  else if 38 ≤ n ∧ n ≤ 49 then bit (s.reg 0x001A0018 &&& s.reg 0x001A001C) (n - 38)
  else if 64 ≤ n ∧ n < 128 then bit (s.reg (R.icuSw ((n - 64) / 32))) (n % 32)
  else match evtIen n with
    | none => false
    | some (e, i) => s.reg e &&& s.reg i != 0

/-- The request lines of all sources. -/
def State.irqLines (s : State) : BitVec 128 := boolBits 128 ((List.range 128).map s.irq)

/-- Source n is pending (R357): enabled, and its request has been seen at the ICU, 20 ns after its assertion (02 R41). A request
that falls is no longer seen (log entry 95). -/
def State.irqPend (s : State) (n : Nat) : Bool := bit (s.reg (R.icuCfg n)) 8 && s.core.lines2.getLsbD n && s.irq n

/-- LEVEL of source n. -/
def State.irqLevel (s : State) (n : Nat) : BitVec 4 := fld (s.reg (R.icuCfg n)) 0 4

/-- The arbiter's choice among pending sources above a mask: the highest LEVEL, the lowest number (R357). -/
def State.arbiter (s : State) (mask : BitVec 4) : Option (Nat × BitVec 4) :=
  (List.range 128).foldl (fun (best : Option (Nat × BitVec 4)) n =>
    if s.irqPend n && decide (mask < s.irqLevel n) then
      match best with
      | none => some (n, s.irqLevel n)
      | some b => if b.2 < s.irqLevel n then some (n, s.irqLevel n) else best
    else best) none

/-! Descriptors. -/

/-- A descriptor (Table EXC-2). -/
structure Desc where
  handler : Word
  sp : Word
  tpriv : Bool
  own : Bool
  chain : Bool
  ie : Bool
  mask : BitVec 4
  deriving DecidableEq, Repr

/-- A word of ITCM or DTCM at a scan core address that lies in one of them. -/
def State.tcmWord (s : State) (a : Nat) : Word :=
  if a < 0x10000000 then wordLE (mread 0 s.mem.itcm a 4) else s.dtcmWord (a - 0x10000000)

/-- EDTB places the table where R351 allows it. -/
def tableOk (base : Nat) : Bool :=
  decide (base + 2560 ≤ 0x40000) || (decide (0x10000000 ≤ base) && decide (base + 2560 ≤ 0x1003E000))

/-- CHECK of descriptor d (R353). -/
def descCheck (w0 w1 w2 : Word) (d : Nat) : Half :=
  ~~~(fld w0 0 16 ^^^ fld w0 16 16 ^^^ fld w1 0 16 ^^^ fld w1 16 16 ^^^ fld w2 0 16 ^^^ fld w2 16 16 ^^^ BitVec.ofNat 16 d)

/-- An own stack pointer leaves room for a frame (R354). -/
def spOk (sp : Word) : Bool :=
  decide (sp.toNat % 8 = 0) && decide (0x10000020 ≤ sp.toNat) && decide (sp.toNat ≤ 0x1003E000)

/-- Descriptor d, where it passes R354 (a table that no valid EDTB has placed never does, R376). -/
def State.descOf (s : State) (d : Nat) : Option Desc :=
  let a := s.core.edtb.toNat + 16 * d
  if !s.core.edtbSet || !tableOk s.core.edtb.toNat then none
  else
    let w0 := s.tcmWord a
    let w1 := s.tcmWord (a + 4)
    let w2 := s.tcmWord (a + 8)
    let w3 := s.tcmWord (a + 12)
    let own := bit w2 1
    if w3 == (descCheck w0 w1 w2 d).setWidth 32 && fld w2 8 24 == 0 && decide (w0.toNat % 4 = 0 ∧ w0.toNat < 0x40000) &&
        (!own || spOk w1) && (decide (32 ≤ d) || bit w2 0) && (own || !(d == 1 || d == 2)) &&
        (!bit w2 3 || !(d == 8 || d == 9)) then
      some { handler := w0, sp := w1, tpriv := bit w2 0, own := own, chain := bit w2 2, ie := bit w2 3, mask := fld w2 4 4 }
    else none

/-! Frames. -/

/-- A frame may be pushed below this stack pointer (R360). -/
def pushOk (sp : Word) : Bool :=
  decide (sp.toNat % 8 = 0) && decide (0x10000020 ≤ sp.toNat) && decide (sp.toNat ≤ 0x10040000) &&
    (decide (sp.toNat ≤ 0x1003E000) || decide (0x1003F020 ≤ sp.toNat))

/-- The frame of Table EXC-5 stored at F. -/
def State.pushFrame (s : State) (f pc : Word) (d : Nat) : State :=
  let c := s.core
  let ws : List Word :=
    [pc, (c.psr &&& 0xFF) ||| bitAt c.uentry 8 ||| at_ d 16, c.preds, c.at 28, c.at 29, c.at 30, c.at 31, c.wp]
  { s with mem := { s.mem with dtcm := mwrite 0 s.mem.dtcm (f.toNat - 0x10000000) (ws.flatMap bytesLE) } }

/-- Eight free values (log entry 2). -/
def State.freeWords : Nat → State → List Word × State
  | 0, s => ([], s)
  | n + 1, s =>
    let r := s.free
    let t := State.freeWords n r.2
    (r.1 :: t.1, t.2)

/-- The words of the frame at F; where F is no word address of DTCM the spec states none: free values (log entry 43). -/
def State.frameAt (s : State) (f : Word) : List Word × State :=
  if 0x10000000 ≤ f.toNat ∧ f.toNat + 32 ≤ 0x10040000 ∧ f.toNat % 4 = 0 then
    (wordsLE 8 (mread 0 s.mem.dtcm (f.toNat - 0x10000000) 32), s)
  else State.freeWords 8 s

/-- PSTATE's descriptor number in the frame at F changed (R363). -/
def State.frameDesc (s : State) (f : Word) (d : Nat) : State :=
  if 0x10000000 ≤ f.toNat ∧ f.toNat + 32 ≤ 0x10040000 then
    { s with mem := { s.mem with dtcm := mset 0 s.mem.dtcm (f.toNat - 0x10000000 + 6) (BitVec.ofNat 8 d) } }
  else s

/-! Entry. -/

/-- A byte field of EXC_CNT counted up. -/
def State.excCount (s : State) (lo : Nat) : State :=
  let v := s.reg R.excCnt
  if fldN v lo 8 = 255 then s else s.setReg R.excCnt (v + at_ 1 lo)

/-- Lockup (R376); Safe cause LOCKUP, its parameter not stated (log entry 37). -/
def State.lockup (s : State) (reason d : Nat) (pc : Word) : State :=
  if s.core.locked then s
  else
    let s1 := (s.setReg R.lockPc pc).setReg R.lockInfo (at_ reason 0 ||| at_ d 8)
    ((s1.withCore (fun c => { c with locked := true })).say .exc 0x4104 pc (BitVec.ofNat 32 reason) (BitVec.ofNat 32 d)
      0).latchOpen 11

/-- XINFO (Table EXC-11). -/
def xinfoOf (d sub kind : Nat) : Word := at_ d 0 ||| at_ sub 8 ||| at_ kind 16

/-- SCAN_FAULT of an entry taken in scan context (R258, R374). -/
def State.scanFault (s : State) (d : Nat) (pc : Word) : State :=
  if s.scanCtx && !s.scan.faultSaid then
    ({ s with scan := { s.scan with faultSaid := true } }).say .exc 0x4105 (BitVec.ofNat 32 d) pc (s.reg R.scnSeq) s.core.xaddr
  else s

/-- Steps 3 to 8 of R358 for descriptor d, its frame at F; k28 and EFP as given. -/
def State.toHandler (s : State) (d : Nat) (x : Desc) (f k28 : Word) (level : BitVec 4) (cwp : BitVec 3) : State :=
  let c := s.core
  let c1 : CoreSt :=
    { c with efp := f, priv := x.tpriv, ie := x.ie, mask := if x.mask < level then level else x.mask, uentry := !x.tpriv,
             cwp := cwp, wtrap := c.wtrap || d == 8 || d == 9, desc := BitVec.ofNat 8 d, xinfo := xinfoOf d 0 0,
             act := if 32 ≤ d then setBit c.act (d - 32) true else c.act, pc := x.handler }
  { s with core := ((c1.putAt 28 k28).putAt 29 (BitVec.ofNat 32 d)).putAt 31 (if x.own then x.sp else f) }

/-- An entry whose descriptor x has passed: the frame below sp, then the handler (R358). Answers none where the push
fails; ue: it meets an uncorrectable error (R360). -/
def State.stackEnter (s : State) (d : Nat) (x : Desc) (sp pc : Word) (level : BitVec 4) (ue : Bool) : Option State :=
  if pushOk sp && !ue then
    let f := sp - 32
    let c := s.core
    let cwp := if d = 8 then c.rw else if d = 9 then c.cwp else c.cwp + 1
    some (((s.pushFrame f pc d).toHandler d x f c.efp level cwp).cycles 14)
  else none

/-- XADDR, XNEXT and XINFO of descriptors 2 to 13 (Table EXC-13), then SCAN_FAULT. -/
def State.excInfo (s : State) (d sub kind : Nat) (pc next xaddr : Word) : State :=
  (s.withCore (fun c => { c with xaddr := xaddr, xnext := next, xinfo := xinfoOf d sub kind })).scanFault d pc

/-- The window double fault (R373). PSR becomes the fields that rule lists and PRECISE, which it does not list, 0 (log entry 41). -/
def State.doubleFault (s : State) (cause : Nat) (pc : Word) : State :=
  match s.descOf 1 with
  | none => s.lockup 2 1 pc
  | some x =>
    let c := s.core
    let c1 : CoreSt :=
      { c with dfPc := pc, dfPsr := (c.psr &&& 0xFF) ||| bitAt c.uentry 8 ||| bitAt c.wtrap 9, dfPred := c.preds, dfWp := c.wp,
               priv := true, ie := false, mask := 15, precise := false, df := true, desc := 1, xinfo := xinfoOf 1 0 0,
               pc := x.handler }
    let s1 := { s with core := (c1.putAt 161 1).putAt 163 x.sp }
    (((s1.excCount 16).sayRate 100000 0 .exc 0x4103 pc c.wp (BitVec.ofNat 32 cause) 0).scanFault 1 pc).cycles 14

/-! The end of a scan. -/

/-- Return to the frame at F (R361, R363): a full return, or a chained entry. k28 is the value EFP takes, or keeps in k28
on a chained entry; scan is PSR.SCAN afterwards. -/
def State.returnTo (s0 : State) (f k28 : Word) (scan : Bool) : State :=
  let r := s0.frameAt f
  let ws := r.1
  let s := r.2
  let w (i : Nat) : Word := ws.getD i 0
  let c := s.core
  let cwp : BitVec 3 := fld (w 7) 0 3
  let old := fldN (w 1) 16 8
  let act := if 32 ≤ old then setBit c.act (old - 32) false else c.act
  let c1 : CoreSt := { (c.setPsr (w 1)) with p := fld (w 2) 0 8, scan := scan, wtrap := false, act := act }
  let next := if bit (w 1) 1 && !scan && s.scan.latch.isNone then s.arbiter (fld (w 1) 4 4) else none
  let chained : Option (Nat × BitVec 4 × Desc) := match next with
    | none => none
    | some (n, level) => match s.descOf (32 + n) with
      | none => none
      | some x => if x.chain && cwp + 1 != c.rw then some (n, level, x) else none
  match chained with
  | some (n, level, x) =>
    (({ s with core := (c1.putAt 30 (w 5)).flushLoads }.frameDesc f (32 + n)).toHandler (32 + n) x f k28 level (cwp + 1)).cycles 4
  | none =>
    let c2 : CoreSt := { c1 with efp := k28, uentry := bit (w 1) 8, cwp := cwp, pc := w 0 &&& 0xFFFFFFFC }
    ({ s with core := (((c2.putAt 28 (w 3)).putAt 29 (w 4)).putAt 30 (w 5)).putAt 31 (w 6) }).cycles 10

/-- The core resumes the interrupted context (R365); a window double fault in which an abandoned scan ends is left with it (log entry
44). -/
def State.resumeScan (s : State) : State :=
  let s1 := s.withCore (fun c => { c with bundle := [], idle := [], df := false })
  { s1 with scan := { s1.scan with phase := .idle, redo := false, reexec := false } }.returnTo s.scan.frame s.scan.efp false

/-- A scan is over: the core resumes the interrupted context, which a scan whose entry was still to come has never left. -/
def State.leaveScan (s : State) : State :=
  match s.scan.latch with
  | none => s.resumeScan
  | some _ => { s with scan := { s.scan with latch := none, phase := .idle, reexec := false } }

/-- Scan period in CORE cycles, WCET_CYC, scan entry address of the loaded image. -/
def State.periodCyc (s : State) : Nat :=
  match s.cfg.img with
  | none => 0
  | some i => 37500 * 2 ^ i.scan.period.toNat
def State.wcet (s : State) : Nat :=
  match s.cfg.img with
  | none => 0
  | some i => i.scan.wcet
def State.scanEntryPc (s : State) : Word :=
  match s.cfg.img with
  | none => 0
  | some i => i.scan.entry

/-- Cycle of the scan. -/
def State.scanCycle (s : State) : Nat := (s.core.cyc - s.scan.start).toNat

/-- Scan context, from the latch instant on (R235), or a commit not yet applied (R255). -/
def State.inScan (s : State) : Bool :=
  s.scanCtx || s.scan.redo || (match s.scan.commit with
    | none => false
    | some c => !c.applied)

/-- A scan ends without a commit: current view and deferred stores dropped, Zinik flushed (R255, R253). -/
def State.dropScan (s : State) : State :=
  ({ s with scan := { s.scan with dirty := 0, deferred := [], commit := none } }).zvFlushAll

/-- A 16-bit half of SCN_CNT counted up, saturating. -/
def State.scnCount (s : State) (lo : Nat) : State :=
  let v := s.reg R.scnCnt
  if fldN v lo 16 = 65535 then s else s.setReg R.scnCnt (v + at_ 1 lo)

/-- A discard with its cause (R255 to R257). Before the scan entry, the re-execution is the entry itself, 64 cycles on (log entry 44). -/
def State.discard (s : State) (cause : Nat) : State :=
  if !s.inScan then s
  else
    let pc := s.core.pc
    let seq := s.reg R.scnSeq
    let c := BitVec.ofNat 32 cause
    let hist := match s.scan.hist with
      | [] => [1]
      | n :: t => (n + 1) :: t
    let re := s.scan.reexec || s.scan.redo
    let s1 := (((((s.dropScan.say .scan 0x4001 c pc seq (bitAt re 0)).evt R.scnEvt 1).scnCount 0).setReg R.scnFault
      c).setReg R.scnFaultPc pc).withCore (fun x => { x.flushLoads with bundle := [] })
    let s2 := { s1 with scan := { s1.scan with hist := hist } }
    let s3 := if 2 < hist.foldl (· + ·) 0 then s2.latchOpen 9 else s2
    if s.scanCycle + 300 + s.wcet ≤ s.periodCyc ∧ !re then
      match s.scan.latch with
      | none => { s3 with scan := { s3.scan with redo := true } }
      | some l =>
        { s3 with scan := { s3.scan with reexec := true, latch := some (l.set 1 (l.getD 1 0 ||| 4)) } }.withCore (fun x =>
          { x with cyc := x.cyc + 64 })
    else
      let s4 := (s3.say .scan 0x4002 seq (bitAt (!re) 0) 0 0).evt R.scnEvt 2
      ({ s4 with scan := { s4.scan with missed := true, ovrPrev := false } }).leaveScan

/-- The scan restarts 64 cycles after its discard (R256, R365). -/
def State.reexecute (s : State) : State :=
  if s.scan.redo then
    let c := s.core
    let f := s.scan.frame
    let c1 : CoreSt := { c with efp := f, priv := true, ie := false, mask := 15, scan := true, precise := s.scan.precise,
                                uentry := false, wtrap := false, df := false, cwp := s.scan.cwp, pc := s.scanEntryPc,
                                cyc := c.cyc + 64 }
    let flags := s.dtcmWord 0x3E004
    let s1 := { s with core := ((c1.putAt 28 s.scan.efp).putAt 29 0xFFFFFFFF).putAt 31 f,
                       scan := { s.scan with redo := false, reexec := true, phase := .execute } }
    s1.dtcmPut 0x3E004 (flags ||| 4)
  else s

/-- The deadline cycle ends with no COMMIT (R253, R254). -/
def State.overrun (s : State) : State :=
  if s.core.scan || s.scan.redo || s.scan.latch.isSome then
    let seq := s.reg R.scnSeq
    let s1 := ((s.dropScan.say .scan 0x4003 seq s.core.pc 0 0).evt R.scnEvt 3).scnCount 16
    let s2 := if s.scan.ovrPrev then s1.latchOpen 10 else s1
    let lim := s.scan.start + BitVec.ofNat 64 (s.periodCyc - 299)
    let s3 := s2.withCore (fun c => { c with cyc := if c.cyc < lim then lim else c.cyc })
    ({ s3 with scan := { s3.scan with missed := true, ovrPrev := true } }).leaveScan
  else s

/-! Faults. -/

/-- A stacking fault in an entry through d (R358 step 2, R360, Table EXC-8); pu: the first and the second push of the entry meet an
uncorrectable error. -/
def State.stackFault (s : State) (d : Nat) (pc next : Word) (pu : BitVec 2) : State :=
  let k31 := s.core.at 31
  let s1 := (s.excCount 8).sayRate 100000 0 .exc 0x4102 (BitVec.ofNat 32 d) pc k31 (bitAt s.scanCtx 0)
  if s.scanCtx then s1.discard 4
  else if s.core.wtrap || s.core.wouldOverflow then s1.doubleFault 2 pc
  else match s1.descOf 2 with
    | none => s1.lockup 2 2 pc
    | some x => match s1.stackEnter 2 x x.sp pc 0 (pu.getLsbD 1) with
      | none => s1.lockup 3 2 pc
      | some t => t.excInfo 2 d 3 pc next k31

/-- A descriptor fault of descriptor d (R354, R358 step 1). -/
def State.descFault (s : State) (d : Nat) (pc next : Word) (pu : BitVec 2) : State :=
  if d = 3 then s.lockup 2 3 pc
  else
    let s1 := (s.excCount 0).sayRate 100000 d .exc 0x4101 (BitVec.ofNat 32 d) pc s.core.edtb 0
    if s.core.wtrap || s.core.wouldOverflow then s1.doubleFault 3 pc
    else match s1.descOf 3 with
      | none => s1.lockup 2 3 pc
      | some x => match s1.stackEnter 3 x (s1.core.at 31) pc 0 (pu.getLsbD 0) with
        | none => s1.stackFault 3 pc next pu
        | some t => t.excInfo 3 d 4 pc next (s1.core.edtb + at_ d 4)

/-- An entry through d past the window check of R372. -/
def State.enterAt (s : State) (d : Nat) (pc next xaddr : Word) (kind : Nat) (level : BitVec 4) (pu : BitVec 2) : State :=
  match s.descOf d with
  | none => s.descFault d pc next pu
  | some x => match s.stackEnter d x (s.core.at 31) pc level (pu.getLsbD 0) with
    | none => s.stackFault d pc next pu
    | some t => if d < 14 then t.excInfo d 0 kind pc next xaddr else if d < 32 then t.scanFault d pc else t

/-- An entry through descriptor d, 4 or above (R358, R371, R372, R376): pc the frame's PC, next the address of the bundle
after it. -/
def State.enter (s0 : State) (d : Nat) (pc next xaddr : Word) (kind : Nat) (level : BitVec 4) (pu : BitVec 2) : State :=
  let s := s0.withCore (fun c => { c.flushLoads with bundle := [], idle := [] })
  if s.core.df then s.lockup 1 d pc
  else if s.core.wtrap && decide (d < 32) then s.doubleFault d pc
  else if s.core.wouldOverflow && d != 8 && d != 9 then s.enterAt 8 pc next 0 0 0 pu
  else s.enterAt d pc next xaddr kind level pu

/-- A pending imprecise exception of the current bank: its descriptor (R368). It is not taken in a window trap or the
window double fault (log entry 41). -/
def State.aexcDue (s : State) : Option Nat :=
  let k := fldN (if s.core.scan then s.core.aexc1 else s.core.aexc0).info 0 3
  if k = 0 ∨ s.core.wtrap ∨ s.core.df then none else some (13 + k)

/-- The pending state clears. -/
def State.clearAexc (s : State) : State :=
  s.withCore (fun c => if c.scan then { c with aexc1 := ⟨c.aexc1.pc, 0⟩ } else { c with aexc0 := ⟨c.aexc0.pc, 0⟩ })

/-- The pending imprecise exception is entered in place of the bundle at pc; where the window trap comes first it stays
pending (R336, R368, R372). -/
def State.enterAexc (s : State) (d : Nat) (pc next : Word) (pu : BitVec 2) : State :=
  (if s.core.wouldOverflow then s else s.clearAexc).enter d pc next 0 0 0 pu

/-- A fault of the bundle at pc; a pending imprecise exception is entered first (R336). -/
def State.fault (s : State) (d : Nat) (pc next xaddr : Word) (kind : Nat) (pu : BitVec 2) : State :=
  match s.aexcDue with
  | some a => s.enterAexc a pc next pu
  | none => s.enter d pc next xaddr kind 0 pu

/-- Address of the bundle after the one at pc, by the stop bits in ITCM (R315). -/
def State.nextBundle (s : State) (pc : Word) : Word :=
  let stop (i : Nat) : Bool := bit (s.tcmWord (pc.toNat + 4 * i)) 31
  pc + (if stop 0 then 4 else if stop 1 then 8 else if stop 2 then 12 else 16)

/-- The core executes bundles: past step 13, not locked up, not held by a debug halt outside the scan (a bundle begun, or
allowed by STEP, ends first: 22 R607), not between COMMIT issue and completion, not awaiting a re-execution. -/
def State.coreRuns (s : State) : Bool :=
  s.running && s.mode.past13 && !s.mode.pf && !s.core.locked &&
    (!s.core.halt || s.core.scan || s.core.step || !s.core.bundle.isEmpty) && s.scan.commit.isNone && !s.scan.redo

/-- An eligible interrupt stands at this boundary (R357). -/
def State.irqDue (s : State) : Bool :=
  s.core.ie && !s.core.scan && s.scan.latch.isNone && !s.core.df && (s.arbiter s.core.mask).isSome

/-- The interrupt of a boundary at which one is eligible (R357, R358); a pending imprecise exception is entered first. -/
def State.irqEnter (s : State) (pu : BitVec 2) : State :=
  match s.arbiter s.core.mask with
  | none => s
  | some (n, level) =>
    let pc := s.core.pc
    match s.aexcDue with
    | some a => s.enterAexc a pc (s.nextBundle pc) pu
    | none => s.enter (32 + n) pc (s.nextBundle pc) 0 0 level pu

/-- The scan core at step 13 (R346, R377). -/
def State.coreStart (s : State) (kernel : Word) : State :=
  { s with core := { CoreSt.reset with pc := kernel, cycDt := s.time.dt } }

end Sys2Proof.Machine
end

