-- ==== Sys2Proof/Machine/Winter.lean ====
section
/-! DEFINITION. The Winter blocks (16): sentinel state, time and calendar, alarm, wake timer, WAKE and tamper inputs,
SPIW, GPIO, UARTs, mailbox, seal unit, faults and boot. -/

namespace Sys2Proof.Machine

/-- Registers of SNT. -/
def R.sntC2s (n : Nat) : Nat := 0x000E0010 + 4 * n
def R.sntS2c (n : Nat) : Nat := 0x000E0040 + 4 * n
def R.sntUartReq : Nat := 0x000E0070
def R.sntEvt : Nat := 0x000E0080

/-- The I/O byte stored at an address. -/
def State.iob (s : State) (a : Nat) : Byte := mget 0 s.wnt.io a

/-- An I/O byte stored. -/
def State.putIob (s : State) (a : Nat) (v : Byte) : State := { s with wnt := { s.wnt with io := mset 0 s.wnt.io a v } }

/-- n I/O bytes as a little-endian number. -/
def State.ioNat (s : State) (a n : Nat) : Nat := natLE (mread 0 s.wnt.io a n)

/-- n I/O bytes stored. -/
def State.putIos (s : State) (a : Nat) (l : List Byte) : State := { s with wnt := { s.wnt with io := mwrite 0 s.wnt.io a l } }

/-- A WNT entry at most once per RTC tick for its code and index. -/
def State.sayTick (s : State) (idx : Nat) (code : Half) (p0 p1 p2 p3 : Word) : State :=
  let k := code.toNat * 256 + idx
  if mget 0 s.said k = s.time.rtct + 1 then s
  else { s.sayWnt code p0 p1 p2 p3 with said := mset 0 s.said k (s.time.rtct + 1) }

/-- UTC seconds since 2000 (R457). -/
def State.utc (s : State) : Int := s.wnt.timeofs.toInt + (s.time.rtct.toNat / 32768 : Nat)

/-- Local seconds (R457). -/
def State.localSec (s : State) : Int := s.utc + 900 * s.wnt.loc.toInt

/-- Last second of the calendar: 2199-12-31 23:59:59. -/
def utcMax : Int := 6311433599

/-- A year of the Gregorian calendar is a leap year. -/
def leapYear (y : Nat) : Bool := (y % 4 == 0 && y % 100 != 0) || y % 400 == 0

/-- Lengths of the months. -/
def monthLens (y : Nat) : List Nat := [31, if leapYear y then 29 else 28, 31, 30, 31, 30, 31, 31, 30, 31, 30, 31]

/-- Year and day of the year, counting on from year y. -/
def yearOf : Nat → Nat → Nat → Nat × Nat
  | 0, y, d => (y, d)
  | n + 1, y, d =>
    let l := if leapYear y then 366 else 365
    if d < l then (y, d) else yearOf n (y + 1) (d - l)

/-- Month from 0 and day of the month from 0. -/
def monthOf : List Nat → Nat → Nat × Nat
  | [], d => (0, d)
  | l :: t, d => if d < l then (0, d) else let r := monthOf t (d - l); (r.1 + 1, r.2)

/-- Second, minute, hour, day, month, year − 2000, weekday of a local second (R457; before 2000 it reads the first
instant, log entry 24). -/
def calendar (sec : Int) : List Nat :=
  let n := (max 0 (min sec utcMax)).toNat
  let days := n / 86400
  let y := yearOf 200 2000 days
  let m := monthOf (monthLens y.1) y.2
  [n % 60, n / 60 % 60, n / 3600 % 24, m.2 + 1, m.1 + 1, y.1 - 2000, (days + 5) % 7]

/-- Sources pending and enabled. -/
def State.sntPending (s : State) : Half := s.wnt.ip &&& BitVec.ofNat 16 (s.ioNat 0xF002 2)

/-- An IP bit set (R455). -/
def State.setIp (s : State) (i : Nat) : State := { s with wnt := { s.wnt with ip := s.wnt.ip ||| ((1 : Half) <<< i) } }

/-- The 4 MHz RC runs (R449). -/
def State.rcRuns (s : State) : Bool :=
  (s.wnt.st == .awake && !(s.iob 0xF000).getLsbD 0) || s.wnt.spwBusy || s.wnt.sealing.isSome ||
  (!s.wnt.uart[0].core && (s.iob 0xF072).getLsbD 0 && !s.wnt.uart[0].tx.isEmpty) ||
  (!s.wnt.uart[1].core && (s.iob 0xF07A).getLsbD 0 && !s.wnt.uart[1].tx.isEmpty) || !s.log.offered.isEmpty

/-- CALOK falls as the RC stops (R449). -/
def State.rcCheck (s : State) : State :=
  if s.rcRuns then s else { s with wnt := { s.wnt with calOk := false } }

/-- The RC measured against the crystal and corrected: CALOK from then until it stops; no correction on the RC fallback (R449). -/
def State.rcCorrect (s : State) : State :=
  if s.rcRuns && !s.time.rcFallback then { s with wnt := { s.wnt with calOk := true } } else s.rcCheck

/-- The sentinel changes state; without the core die that is M2 or M3 (R448, Table MODE-2). -/
def State.sntTo (s : State) (m : SntMode) : State :=
  let s1 := ({ s with wnt := { s.wnt with st := m } }).rcCheck
  if m = .awake ∧ s.mode.mode = .dormant then s1.toMode .sentry
  else if m ≠ .awake ∧ s.mode.mode = .sentry then s1.toMode .dormant else s1

/-- A block that SLEEP waits for is busy (R456). -/
def State.sntBusy (s : State) : Bool :=
  s.wnt.spwBusy || s.wnt.sealing.isSome || (!s.wnt.uart[0].core && !s.wnt.uart[0].tx.isEmpty) ||
  (!s.wnt.uart[1].core && !s.wnt.uart[1].tx.isEmpty)

/-- SLEEP takes effect, or waits for a busy block (R456, R476). -/
def State.sleepNow (s : State) : State :=
  if s.sntPending ≠ 0 then { s with wnt := { s.wnt with sleep := false } }
  else if s.sntBusy then { s with wnt := { s.wnt with sleep := true } }
  else ({ s with wnt := { s.wnt with sleep := false, auth := false } }).sntTo .asleep

/-- A busy block has finished: a SLEEP that waits for it is taken up, and the RC may stop. -/
def State.blockDone (s : State) : State := (if s.wnt.sleep then s.sleepNow else s).rcCheck

/-- Source i joins the mask of the CORE_WAKE entry of this RTC tick (R463: the mask of the request's sources, one entry in a tick). -/
def State.wakeMask (s : State) (i : Nat) : State :=
  let f (e : Entry) : Entry :=
    if e.source = Src.wnt.id ∧ e.code = 0x710B ∧ e.stamp = s.time.rtct then { e with p0 := e.p0 ||| bitAt true i } else e
  { s with log := { s.log with offered := s.log.offered.map f, staged := s.log.staged.map f } }

/-- A core-die wake request with its source bit (R463; in Safe, 04 R126: held to the end of the readout window; on the way to Dormant, 04
R128: held until the core die has powered down). -/
def State.coreWake (s : State) (i : Nat) : State :=
  let s1 := (s.sayTick 0 0x710B (bitAt true i) 0 0 0).wakeMask i
  if s.mode.mode = .dormant ∨ s.mode.mode = .sentry ∨ s.mode.mode = .safe ∨ s.mode.m9.isSome then
    { s1 with mode := { s1.mode with wake := true } }
  else s1

/-- SNT_EVT bit i set. -/
def State.sntEv (s : State) (i : Nat) : State := s.evt R.sntEvt i

/-- A sentinel reset (R479): the boot ROM check is to come. -/
def State.sntReset (s : State) (cause : BitVec 3) : State :=
  ({ s with wnt := { s.wnt with pc := 0x8000, boot := true, wfi := false, sleep := false, rstCause := cause } }).sntTo
    .awake

/-- The sentinel becomes HALTED. -/
def State.sntHalt (s : State) : State :=
  ({ s with wnt := { s.wnt with boot := false, wfi := false, sleep := false } }).sntTo .halted

/-- A sentinel fault (R483, R484). -/
def State.sntFault (s : State) (cause : Nat) : State :=
  if s.wnt.st = .halted then s
  else
    let s1 := (s.sayWnt 0x7106 (BitVec.ofNat 32 cause) (s.wnt.pc.setWidth 32) (s.wnt.sp.setWidth 32) 0).sntEv 3
    let fs := s.time.rtct :: s.wnt.faults
    let rc : BitVec 3 := if cause = 4 then 3 else 2
    let s2 := { s1 with wnt := { s1.wnt with faults := fs.take 4, rstCause := rc } }
    if 5 ≤ fs.length ∧ (s.time.rtct - fs.getD 4 0).toNat ≤ 60 * 32768 then
      (s2.sayWnt 0x7107 5 (BitVec.ofNat 32 cause) 0 0).sntHalt
    else s2.sntReset rc

/-- S-reset entries of Table SNT-11; a seal operation is abandoned and the UART FIFOs are empty (log entry 25). -/
def State.sReset (s : State) : State :=
  let s1 := (((s.putIob 0xF000 0).putIos 0xF002 [0, 0]).putIob 0xF006 0)
  let u (x : SntUart) := if x.core then x else { x with tx := [], rx := [] }
  { s1 with wnt := { s1.wnt with ip := 0, logStat := 0, sealing := none, sealRes := 0, auth := false,
                                 uart := s1.wnt.uart.map u } }

/-- The boot ROM check ends (R479). -/
def State.sntBoot (s : State) : State :=
  if !s.wnt.boot then s
  else if s.wnt.codeLen ≠ 0 ∧ crc32c (mread 0 s.mem.scode 0 s.wnt.codeLen) = s.wnt.codeCrc then
    let s1 := s.sReset
    { s1 with wnt := { s1.wnt with b := Vector.replicate 8 0, sp := 0x6000, flags := 0, pc := 0, boot := false } }
  else
    ({ s with wnt := { s.wnt with rstCause := 4 } }).sntHalt

/-- Reload at cold start step 6 (R478): code, hash; whether a CRC failure called for it. -/
def State.sntReload (s : State) (code hash : List Byte) (bad : Bool) : State :=
  let ram := mlist 0 0 (code ++ List.replicate (16384 - code.length) 0xFF)
  let s1 := { s with mem := { s.mem with scode := ram },
                     wnt := { s.wnt with codeLen := code.length, codeCrc := crc32c code, hash := hash, sealing := none,
                                         sealRes := 0 } }
  (s1.sntReset 1).sayWnt 0x7108 (wordLE hash) (if bad then 1 else 0) 0 0

/-! Alarm, wake timer, WAKE and tamper. -/

/-- The alarm is evaluated (R459). -/
def State.alarmEval (s : State) : State :=
  if s.wnt.alarm ≠ 0 ∧ !s.wnt.fired ∧ (s.wnt.alarm.toNat : Int) ≤ s.utc then
    let s1 := ({ s with wnt := { s.wnt with fired := true } }).setIp 3
    if (s.iob 0xF026).getLsbD 1 then s1.coreWake 6 else s1
  else s

/-- The wake timer reaches 0 (R460). -/
def State.wakeTimer (s : State) : State :=
  if s.wnt.wtCnt = 0 then s
  else
    let s1 := ({ s with wnt := { s.wnt with wtCnt := if (s.iob 0xF02C).getLsbD 0 then s.wnt.wtVal else 0 } }).setIp 4
    if (s.iob 0xF02C).getLsbD 1 then s1.coreWake 7 else s1

/-- Enabled edge of a two-bit selection: 1 rise, 2 fall, 3 both. -/
def edgeOn (sel : Nat) (level : Bool) : Bool := sel == 3 || (sel == 1 && level) || (sel == 2 && !level)

/-- A tamper check (R462): 0 passes, 1 to 3 fails with that kind. Answers the state and whether the loop broke. -/
def State.tamperCheck (s : State) (x : Fin 2) (kind : BitVec 2) : State × Bool :=
  let cfg := s.iob (0xF040 + 4 * x.val)
  if !cfg.getLsbD 0 then (s, false)
  else
    let l := s.wnt.loops[x]
    let r := s.free
    let s1 := { r.2 with wnt := { r.2.wnt with lfsr := vput s.wnt.lfsr x ((s.wnt.lfsr[x] <<< 1) ||| (r.1.setWidth 16 &&& 1)) } }
    let put (l : TampSt) (t : State) : State := { t with wnt := { t.wnt with loops := vput t.wnt.loops x l } }
    if (kind ≠ 0) = l.broken then (put { l with run := 0 } s1, false)
    else if l.run = 0 then (put { l with run := 1 } s1, false)
    else if kind ≠ 0 then
      let s2 := ((put { broken := true, kind := kind, run := 0, since := s.time.rtct } s1).sayWnt 0x7102
        (BitVec.ofNat 32 x.val) (kind.setWidth 32) 0 0).setIp 1
      (if cfg.getLsbD 3 then s2.coreWake (4 + x.val) else s2, true)
    else
      let sec := (s.time.rtct - l.since).toNat / 32768
      (((put { l with broken := false, run := 0 } s1).sayWnt 0x7103 (BitVec.ofNat 32 x.val) (BitVec.ofNat 32 sec)
        0 0).setIp 1, false)

/-! GPIO, SPIW, UARTs. -/

/-- Levels of GPIO8 to GPIO11 (R465). -/
def State.wgpio (s : State) : BitVec 4 :=
  let d := (s.iob 0xF050).setWidth 4
  (d &&& (s.iob 0xF051).setWidth 4) ||| (~~~d &&& s.wnt.gin)

/-- The core die sees edges of GPIO8 to GPIO11: GPIO_EVT bits 8 to 11 (21 R592). -/
def State.coreGpioEdges (s : State) (old new : BitVec 4) : State :=
  let irq := s.reg 0x001A0014
  if s.mode.coreOn then
    (List.range 4).foldl (fun (t : State) i =>
      if old.getLsbD i != new.getLsbD i && edgeOn (fldN irq (2 * (i + 8)) 2) (new.getLsbD i) then t.evt 0x001A0018 (i + 8)
      else t) s
  else s

/-- IP11 on an enabled edge against the levels before (R465), and what the core die sees of it. -/
def State.wgpioEdges (s : State) (old : BitVec 4) : State :=
  let new := s.wgpio
  let irq := (s.iob 0xF053).setWidth 32
  let s1 := s.coreGpioEdges old new
  if (List.range 4).any (fun i => old.getLsbD i != new.getLsbD i && edgeOn (fldN irq (2 * i) 2) (new.getLsbD i)) then
    s1.setIp 11
  else s1

/-- Address of a sentinel UART's registers. -/
def uartIo (u : Fin 2) : Nat := 0xF070 + 8 * u.val

/-- Sentinel UART u changed. -/
def State.putSu (s : State) (u : Fin 2) (x : SntUart) : State :=
  { s with wnt := { s.wnt with uart := vput s.wnt.uart u x } }

/-- A byte arrives at a sentinel UART, with its framing and parity errors (R466). -/
def State.suRx (s : State) (u : Fin 2) (v : Byte) (fe pe : Bool) : State :=
  let x := s.wnt.uart[u]
  let ctl := s.iob (uartIo u + 2)
  if x.core || !ctl.getLsbD 0 then s
  else
    let fl := x.flags ||| (if fe then 2 else 0) ||| (if pe && ctl.getLsbD 1 then 4 else 0)
    let s1 := s.putSu u (if x.rx.length < 16 then { x with rx := x.rx ++ [v], flags := fl }
                         else { x with flags := fl ||| 1 })
    if ctl.getLsbD 3 then s1.setIp (7 + u.val) else s1

/-- A sentinel UART has sent a byte (R466). -/
def State.suTx (s : State) (u : Fin 2) : State :=
  let x := s.wnt.uart[u]
  let ctl := s.iob (uartIo u + 2)
  if x.core || !ctl.getLsbD 0 || (u == 1 && ctl.getLsbD 2 && s.ifc.cts3) then s
  else
    match x.tx with
    | [] => s
    | _ :: t =>
      let s1 := s.putSu u { x with tx := t }
      (if ctl.getLsbD 4 && t.isEmpty then s1.setIp (7 + u.val) else s1).blockDone

/-- Ownership of UART u + 2 changes (R467). -/
def State.suOwner (s : State) (u : Fin 2) (core : Bool) : State :=
  ((s.putSu u { s.wnt.uart[u] with core := core }).sayWnt 0x710A (BitVec.ofNat 32 (u.val + 2))
    (if core then 1 else 0) 0 0).sntEv 2 |>.setIp (7 + u.val) |>.evt (0x00162010 + 0x1000 * u.val) 5

/-- The hand-over that waits takes place, the character in progress having ended (R467). -/
def State.suHandover (s : State) (u : Fin 2) : State :=
  let x := s.wnt.uart[u]
  let req := bit (s.reg R.sntUartReq) u.val
  if !x.core && req && x.grant && s.mode.coreOn && x.tx.isEmpty then s.suOwner u true
  else if x.core && (!req || !x.grant) then s.suOwner u false
  else s

/-- The hand-over at a write of UCTL.OWN or SNT_UART_REQ: where the core-die UART has a character to send it waits for UART_OWNER. -/
def State.suChange (s : State) (u : Fin 2) : State :=
  if (s.wnt.uart[u]).core && !(s.ifc.uart[fin 3 (u.val + 2)]).tx.isEmpty then s else s.suHandover u

/-- UCTL written (R466, R467): OWN := 1 grants the UART while the core die is powered, OWN := 0 takes it back. -/
def State.uctlWrite (s : State) (u : Fin 2) (v : Byte) : State :=
  ((s.putIob (uartIo u + 2) v).putSu u { s.wnt.uart[u] with grant := v.getLsbD 5 && s.mode.coreOn }).suChange u

/-! Mailbox and ring push. -/

/-- SNT_C2S_CTL.GO (R468). -/
def State.c2sGo (s : State) : State :=
  if s.wnt.infull then s.sntEv 4
  else ({ s with wnt := { s.wnt with infull := true,
                                     mbin := (List.range 8).map (fun n => s.reg (R.sntC2s n)) } }).setIp 5

/-- Words of MBOUT. -/
def State.mbout (s : State) (n : Nat) : List Word := wordsLE n (mread 0 s.wnt.io 0xF130 (4 * n))

/-- OUTSTAT bits changed. -/
def State.setOut (s : State) (v : BitVec 4) : State := { s with wnt := { s.wnt with out := v } }

/-- OUTGO 1 (R469). -/
def State.outMail (s : State) : State :=
  if !s.mode.coreOn then (s.setOut (s.wnt.out ||| 8)).setIp 6
  else if s.wnt.out.getLsbD 0 then s.setOut (s.wnt.out ||| 4)
  else
    let ws := s.mbout (min (s.iob 0xF150).toNat 8)
    ((ws.zipIdx.foldl (fun t w => t.setReg (R.sntS2c w.2) w.1) s).setOut (s.wnt.out ||| 1)).sntEv 1

/-- A whole item pushed through a port: whether the ring takes it (R469; 18 R526). -/
def State.ringItemPush (s : State) (r : Fin 64) (port : Fin 5) (ws : List Word) : Bool × State :=
  match ws with
  | [] => (false, s)
  | h :: t =>
    if fldN h 0 4 ≠ ws.length then (false, s)
    else if (s.ringCfg r).role ≠ 0 ∧ ws.length ≤ ((s.tornReport r port).tearOpen r port).ringFree r then
      (true, t.foldl (fun u w => u.ringData r port w) (s.ringHdr r port h))
    else (false, s.ringHdr r port h)

/-- OUTGO 2 (R469). -/
def State.outRing (s : State) : State :=
  if !s.mode.coreOn then (s.setOut (s.wnt.out ||| 8)).setIp 6
  else if s.wnt.out.getLsbD 0 then s.setOut (s.wnt.out ||| 4)
  else
    let n := (s.iob 0xF150).toNat
    let r := s.ringItemPush (fin 63 (s.iob 0xF151).toNat) 2 (if n ≤ 8 then s.mbout n else [])
    (r.2.setOut (s.wnt.out ||| (if r.1 then 2 else 4))).setIp 6

/-- SNT_S2C_ACK (R469). -/
def State.s2cAck (s : State) : State :=
  if s.wnt.out.getLsbD 0 then (s.setOut ((s.wnt.out &&& 0xE) ||| 2)).setIp 6 else s

/-! Seal unit (R473 to R477). -/

/-- UID[38:0]. -/
def State.uid39 (s : State) : Nat := s.uid.toNat % 2 ^ 39

/-- The ACTIVE content of vault slot n; an ACTIVE spare takes its ROLE's place (18 R529). -/
def State.slotKey (s : State) (n : Nat) : Option (List Byte) :=
  match [14, 15].find? (fun (i : Fin 16) => s.key.vault[i].state == .active && s.key.vault[i].role.toNat == n) with
  | some i => some s.key.vault[i].key
  | none => let v := s.key.vault[fin 15 n]; if v.state = .active then some v.key else none

/-- Seal key from vault slot 12: bits [127:0] (R473), the slot's first 16 bytes (log entry 26). -/
def State.loadSealKey (s : State) : State :=
  { s with wnt := { s.wnt with sealKey := (s.slotKey 12).map (·.take 16) } }

/-- The operation ends with a result and IP10 (R477). -/
def State.sealEnd (s : State) (res : BitVec 4) : State :=
  (({ s with wnt := { s.wnt with sealing := none, sealRes := res } }).setIp 10).blockDone

/-- SOP written (R474 to R477): isOpen for 2. -/
def State.sealStart (s0 : State) (isOpen : Bool) : State :=
  if s0.wnt.sealing.isSome then s0
  else
    let s := { s0 with wnt := { s0.wnt with auth := false } }
    let alen := (s.iob 0xF202).toNat
    let plen := (s.iob 0xF203).toNat
    if 32 < alen ∨ plen = 0 ∨ 200 < plen then s.sealEnd 6
    else
      let stop : Option (BitVec 4) :=
        if s.wnt.sealKey.isNone || (s.slotKey 12).isNone then some 5 else if s.wnt.sealLock then some 4
        else if !isOpen ∧ s.wnt.seqOut = BitVec.allOnes 64 then some 8 else none
      let s1 := { s with wnt := { s.wnt with sealing := some { isOpen := isOpen, stop := stop } } }
      if isOpen ∨ stop.isSome then s1
      else
        let s2 := s1.putIos 0xF300 (toLE 8 s.wnt.seqOut.toNat ++ toLE 5 s.uid39)
        { s2 with wnt := { s2.wnt with seqOut := s.wnt.seqOut + 1 } }

/-- A refused command: entry and lock (R475). -/
def State.sealRefuse (s : State) (res : BitVec 4) (ctr : DWord) : State :=
  let s1 := s.sayWnt 0x7109 (res.setWidth 32) (lo32 ctr) (lo32 s.wnt.seqIn) 0
  ({ s1 with wnt := { s1.wnt with sealLock := true } }).sealEnd res

/-- The operation ends (R474, R475, R477). -/
def State.sealDone (s : State) : State :=
  match s.wnt.sealing with
  | none => s
  | some op =>
    match op.stop with
    | some r => s.sealEnd r
    | none =>
      let key := s.wnt.sealKey.getD []
      let nonce := mread 0 s.wnt.io 0xF300 13
      let aad := mread 0 s.wnt.io 0xF310 (s.iob 0xF202).toNat
      let plen := (s.iob 0xF203).toNat
      let data := mread 0 s.wnt.io 0xF330 plen
      if !op.isOpen then
        ((s.putIos 0xF330 (ccmCrypt key nonce data)).putIos 0xF3F8 (ccmTag key nonce aad data 8)).sealEnd 1
      else
        let ctr : DWord := BitVec.ofNat 64 (natLE (nonce.take 8))
        let id := natLE (nonce.drop 8)
        if id ≠ s.uid39 + 2 ^ 39 then s.sealRefuse 7 ctr
        else if ctr ≤ s.wnt.seqIn then s.sealRefuse 3 ctr
        else
          let plain := ccmCrypt key nonce data
          if ccmTag key nonce aad plain 8 = mread 0 s.wnt.io 0xF3F8 8 then
            let s1 := s.putIos 0xF330 plain
            ({ s1 with wnt := { s1.wnt with seqIn := ctr, auth := true } }).sealEnd 1
          else (s.putIos 0xF330 (List.replicate plen 0)).sealRefuse 2 ctr

/-! Software entries (R480). -/

/-- CODE's second byte written (R480). STAGE_ENTRY sets REFUSED where staging refuses it. -/
def State.swsEntry (s : State) (v : Byte) : State :=
  let s1 := s.putIob 0xF171 v
  let c : Half := BitVec.ofNat 16 (s1.ioNat 0xF170 2)
  if c < 0xE000 ∨ 0xEFFF < c then { s1 with wnt := { s1.wnt with logStat := s1.wnt.logStat ||| 1 } }
  else
    let p (i : Nat) : Word := BitVec.ofNat 32 (s1.ioNat (0xF160 + 4 * i) 4)
    s1.offer { code := c, source := Src.sws.id, td := true, coarse := s.time.coarse && s.time.rtct != s.time.coarseAt, pf := false,
               hw := false,
               stamp := s.time.rtct, p0 := p 0, p1 := p 1, p2 := p 2, p3 := p 3 }

/-- The core die has powered down: the window, the mailbox and the UARTs (R451, R467, R470, R486). -/
def State.wntCoreDown (s : State) : State :=
  let s1 := { s with wnt := { s.wnt with winValid := false, infull := false,
                                         out := if s.wnt.out.getLsbD 0 then (s.wnt.out &&& 0xE) ||| 8 else s.wnt.out } }
  let s2 := [0, 1].foldl (fun (t : State) (u : Fin 2) =>
    let t1 := t.putSu u { t.wnt.uart[u] with grant := false }
    if t.wnt.uart[u].core then t1.suOwner u false else t1) s1
  s2.setIp 12

/-- The core die is powered: the window is valid and cleared (R451, R486). -/
def State.wntCoreUp (s : State) : State :=
  ({ s with mem := { s.mem with shared := [] }, wnt := { s.wnt with winValid := true } }).setIp 12

/-- USTAT of a sentinel UART; CTS shows the level of UART3_CTS_N. -/
def State.suStat (s : State) (u : Fin 2) : Byte :=
  let x := s.wnt.uart[u]
  (if x.tx.isEmpty then 1 else 0) ||| (if 16 ≤ x.tx.length then 2 else 0) ||| (if x.rx.isEmpty then 0 else 4) |||
  ((x.flags.setWidth 8) <<< 3) ||| (if x.core then 0x40 else 0) ||| (if u == 1 && s.ifc.cts3 then 0x80 else 0)

end Sys2Proof.Machine
end

