-- ==== Sys2Proof/Machine/Esu.lean ====
section
/-! DEFINITION. The entropy source unit (19): health tests, conditioner, consumers, DRBG; and the challenges it gives. -/

namespace Sys2Proof.Machine

/-- Registers of ESU, SEC and DBG that events set. -/
def R.esuEvt : Nat := 0x00120040
def R.dbgEvt : Nat := 0x001B0060

/-- The ESU samples: PERIPH runs (R537). -/
def State.esuOn (s : State) : Bool := s.mode.coreOn && s.time.pwr.getLsbD 4

/-! DRBG (NIST SP 800-90A CTR_DRBG with AES-256, no derivation function). -/

/-- n output blocks from counter V. -/
def drbgBlocks (key : List Byte) : Nat → Nat → List Byte
  | _, 0 => []
  | v, n + 1 => aesEnc key (toBE 16 (v + 1)) ++ drbgBlocks key (v + 1) n

/-- Key and V after an update with 48 bytes of provided data. -/
def drbgUpdate (key : List Byte) (v : Nat) (data : List Byte) : List Byte × List Byte :=
  let t := xorB (drbgBlocks key v 3) data
  (t.take 32, t.drop 32)

/-- The entropy input: the first 256 bits of one block, then the first 128 bits of the next (R548). -/
def drbgEntropy (seed : List (List Byte)) : List Byte := (seed.getD 0 []).take 32 ++ (seed.getD 1 []).take 16

/-- The personalisation string (R548). -/
def State.drbgPers (s : State) : List Byte :=
  toLE 5 s.uid39 ++ List.replicate 3 0 ++ toLE 8 s.time.dt.toNat ++ List.replicate 32 0

/-- Instantiation from the two blocks taken. -/
def State.drbgInst (s : State) : State :=
  let u := drbgUpdate (List.replicate 32 0) 0 (xorB (drbgEntropy s.esu.seed) s.drbgPers)
  { s with esu := { s.esu with key := u.1, v := u.2, drbgRun := true, gens := 0, seedDt := s.time.dt, due := none,
                               seed := [], reseeds := 0 } }

/-- Reseed from the two blocks taken (R549). -/
def State.drbgSeed (s : State) : State :=
  let u := drbgUpdate s.esu.key (natBE s.esu.v) (drbgEntropy s.esu.seed)
  { s with esu := { s.esu with key := u.1, v := u.2, gens := 0, seedDt := s.time.dt, due := none, seed := [],
                               reseeds := satInc s.esu.reseeds } }

/-- A generate call: 512 bits into the DRBG FIFO (R548). -/
def State.drbgGen (s : State) : State :=
  if s.esuOn && s.esu.drbgRun && decide (s.esu.dfifo.length ≤ 16) then
    let v := natBE s.esu.v
    let u := drbgUpdate s.esu.key (v + 4) (List.replicate 48 0)
    { s with esu := { s.esu with key := u.1, v := u.2, gens := s.esu.gens + 1,
                                 dfifo := s.esu.dfifo ++ wordsLE 16 (drbgBlocks s.esu.key v 4) } }
  else s

/-! Consumers. -/

/-- The oldest whole block of the FIFO that no ESU_COND read has started on (R545). -/
def EsuSt.take (e : EsuSt) : Option (List Word × EsuSt) :=
  match e.fifo with
  | [] => none
  | b :: t =>
    if b.length = 8 then some (b, { e with fifo := t })
    else match t with
      | [] => none
      | c :: u => some (c, { e with fifo := b :: u })

/-- The DRBG waits for blocks (R548, R549). -/
def State.drbgWants (s : State) : Bool := s.esu.katDrbg && (!s.esu.drbgRun || s.esu.due.isSome)

/-- One block given to the first waiting consumer (R545). -/
def State.esuGive (s : State) : State :=
  match s.esu.take with
  | none => s
  | some (b, e) =>
    if s.drbgWants then
      let s1 := { s with esu := { e with seed := s.esu.seed ++ [b.flatMap bytesLE] } }
      if s1.esu.seed.length < 2 then s1 else if s.esu.drbgRun then s1.drbgSeed else s1.drbgInst
    else if s.esu.wantSec then
      { s with esu := { e with wantSec := false }, key := { s.key with chal := b, fresh := true } }
    else if s.esu.wantDbg then
      { s with esu := { e with wantDbg := false }, dbg := { s.dbg with chal := b, fresh := true } }
    else s

/-- Every waiting consumer served from the blocks that are there. -/
def State.esuServe (s : State) : State := Nat.repeat State.esuGive 4 s

/-- A held block is released after 41 instants (R543); with the FIFO full it is discarded (R545). -/
def State.blockRelease (s : State) : State :=
  match s.esu.held with
  | [] => s
  | b :: t =>
    if b.age < 41 then s
    else if 4 ≤ s.esu.fifo.length then { s with esu := { s.esu with held := t } }
    else ({ s with esu := { s.esu with held := t, fifo := s.esu.fifo ++ [wordsLE 8 b.out] } }).esuServe

/-- A read of ESU_COND (R546). -/
def State.condRead (s : State) : Word × State :=
  match s.esu.fifo with
  | (w :: []) :: t => (w, { s with esu := { s.esu with fifo := t } })
  | (w :: r) :: t => (w, { s with esu := { s.esu with fifo := r :: t } })
  | _ => (0, s.evt R.esuEvt 3)

/-- A read of ESU_DRBG (R550). -/
def State.drbgRead (s : State) : Word × State :=
  match s.esu.dfifo with
  | [] => (0, s.evt R.esuEvt 3)
  | w :: t => (w, { s with esu := { s.esu with dfifo := t } })

/-- A reseed falls due (R549). -/
def State.reseedDue (s : State) : State :=
  if s.esu.drbgRun ∧ s.esu.due = none then ({ s with esu := { s.esu with due := some s.time.dt } }).esuServe else s

/-- The reseed of 65,536 generates or of 1 s (R549). -/
def State.drbgReseed (s : State) : State :=
  if s.esuOn ∧ (65536 ≤ s.esu.gens ∨ 100000000 ≤ s.since s.esu.seedDt) then s.reseedDue
  else if s.esuOn ∧ s.esu.due ≠ none then s.esuServe else s

/-- A reseed not supplied within 10 ms: the DRBG stops (R549). -/
def State.drbgStop (s : State) : State :=
  if s.esuOn && s.esu.drbgRun && (match s.esu.due with | none => false | some d => decide (1000000 ≤ s.since d)) then
    (({ s with esu := { s.esu with drbgRun := false, due := none, dfifo := [], seed := [] } }).evt R.esuEvt 2).say .esu 0x6105 1 0 0 0
  else s

/-! Sources. -/

/-- One sample of a source: counters, and the failing test (0 none) (R540, R541). -/
def EsuSrc.sample (x : EsuSrc) (b : Bool) : EsuSrc × BitVec 2 :=
  let rep := if 0 < x.rep ∧ b = x.last then x.rep + 1 else 1
  let y : EsuSrc :=
    if x.winN = 0 then { x with last := b, rep := rep, first := b, winN := 1, same := 1 }
    else { x with last := b, rep := rep, winN := x.winN + 1, same := if b = x.first then x.same + 1 else x.same }
  let z : EsuSrc := { y with winN := y.winN % 1024, passed := min (x.passed + 1) 1024 }
  (z, if 41 ≤ rep then 1 else if 795 ≤ y.same then 2 else 0)

/-- A source enters STARTUP: its counters begin again (log entry 32). -/
def EsuSrc.startup (x : EsuSrc) (retest : Bool) : EsuSrc :=
  { x with st := 0, rep := 0, winN := 0, same := 0, passed := 0, say := retest, retest := retest }

/-- Source i fails: ISOLATED, its blocks discarded (R542, R543); bit i of was: it contributed to this instant. -/
def State.srcFail (s : State) (i : Fin 5) (test : BitVec 2) : State :=
  let x := s.esu.src[i]
  let hit (m : BitVec 5) : Bool := m.getLsbD i.val
  let gather := hit s.esu.mask && !s.esu.bits.isEmpty
  let gone := s.esu.held.filter (fun b => hit b.mask)
  let n := gone.length + (if gather then 1 else 0)
  let s1 := { s with esu := { s.esu with
      src := vput s.esu.src i { x with st := 2, test := test, fails := satInc x.fails }, held := s.esu.held.filter (fun b => !hit b.mask),
      bits := if gather then [] else s.esu.bits, mask := if gather then 0 else s.esu.mask } }
  (s1.evt R.esuEvt 0).say .esu 0x6101 (BitVec.ofNat 32 i.val) (test.setWidth 32) (x.st.setWidth 32) (BitVec.ofNat 32 n)

/-- Source i after its sample: failed, HEALTHY after 1,024 samples, or as it was (R542, R552). -/
def State.srcStep (s : State) (i : Fin 5) (r : EsuSrc × BitVec 2) : State :=
  let x := s.esu.src[i]
  let put (y : EsuSrc) (t : State) : State := { t with esu := { t.esu with src := vput t.esu.src i y } }
  if x.st = 2 then put { r.1 with st := 2 } s
  else if r.2 ≠ 0 then (put r.1 s).srcFail i r.2
  else if x.st = 0 ∧ r.1.passed = 1024 then
    let s1 := put { r.1 with st := 1, say := false } s
    if x.say then s1.say .esu 0x6102 (BitVec.ofNat 32 i.val) (bitAt x.retest 0) 0 0 else s1
  else put r.1 s

/-- The sources that are HEALTHY. -/
def EsuSt.healthy (e : EsuSt) : List (Fin 5) := (List.finRange 5).filter (fun i => (e.src[i]).st == 1)

/-- The sources that are ISOLATED. -/
def EsuSt.isolated (e : EsuSt) : BitVec 5 := boolBits 5 ((List.finRange 5).map (fun i => (e.src[i]).st == 2))

/-- A 5-bit set of sources. -/
def srcMask (l : List (Fin 5)) : BitVec 5 := l.foldl (fun m i => setBit m i.val true) 0

/-- Bits of a block in its byte string: bit j in byte j / 8, bit 7 − j mod 8 (R538). -/
def blockBytes : Nat → List Bool → List Byte
  | 0, _ => []
  | n + 1, l => boolBits 8 (l.take 8).reverse :: blockBytes n (l.drop 8)

/-- The block being gathered is complete: conditioned, held; what is left begins the next (R538, R543). -/
def State.blockDone2048 (s : State) (from_ : List (Fin 5)) : State :=
  if s.esu.bits.length < 2048 then s
  else
    let rest := s.esu.bits.drop 2048
    let mask := s.esu.mask
    let b : EsuBlock := { out := sha256 (blockBytes 256 s.esu.bits), mask := mask, age := 0 }
    { s with esu := { s.esu with bits := rest, mask := srcMask (from_.drop (from_.length - rest.length)),
                                 held := s.esu.held ++ [b] } }

/-- A sample instant (R537 to R544), once at its DT: bit i of bits is source i's raw bit. -/
def State.esuSample (s : State) (bits : BitVec 5) : State :=
  if !s.esuOn || s.time.dt.toNat % 100 != 0 || s.esu.last == some s.time.dt then s
  else
    let was := s.esu.healthy
    let s0 := { s with esu := { s.esu with last := some s.time.dt,
                                           held := s.esu.held.map (fun (b : EsuBlock) => { b with age := b.age + 1 }) } }
    let s1 :=
      if s0.esu.condRun then
        { s0 with esu := { s0.esu with bits := s0.esu.bits ++ was.map (fun (i : Fin 5) => bits.getLsbD i.val),
                                       mask := s0.esu.mask ||| srcMask was } }
      else s0
    let s2 := s1.blockDone2048 was
    let s3 := (List.finRange 5).foldl (fun (t : State) (i : Fin 5) => t.srcStep i ((s.esu.src[i]).sample (bits.getLsbD i.val))) s2
    let now := s3.esu.healthy
    if s3.esu.condRun && !was.isEmpty && now.isEmpty then
      (({ s3 with esu := { s3.esu with condRun := false, bits := [], mask := 0 } }).evt R.esuEvt 1).say .esu 0x6103
        (s3.esu.isolated.setWidth 32) 0 0 0
    else if !s3.esu.condRun && s3.esu.katSha && !now.isEmpty then
      { s3 with esu := { s3.esu with condRun := true, bits := [], mask := 0 } }
    else s3

/-- ESU_CTL.RETEST written with its KEY (R551). -/
def State.retest (s : State) : State :=
  if (List.finRange 5).any (fun i => (s.esu.src[i]).st == 0) then s.evt R.esuEvt 4
  else { s with esu := { s.esu with src := s.esu.src.map (fun (x : EsuSrc) => if x.st = 2 then x.startup true else x) } }

/-- ESU_CTL written. -/
def State.esuCtl (s : State) (v : Word) : State :=
  if fld v 16 16 ≠ 0xE5A0 then s.evt R.esuEvt 4
  else
    let s1 := if bit v 0 then s.retest else s
    if bit v 1 then s1.reseedDue else s1

/-- Step 3 and step 4 of a cold start (R554, R555); kat: the known-answer tests pass. -/
def State.esuStart (s : State) (kat : BitVec 2) : State :=
  let s1 := { s with esu := { EsuSt.reset with katSha := kat.getLsbD 0, katDrbg := kat.getLsbD 1, condRun := kat.getLsbD 0 } }
  let s2 := if kat.getLsbD 0 then s1 else s1.say .esu 0x6104 1 0 0 0
  if kat.getLsbD 1 then s2
  else ((s2.say .esu 0x6104 2 0 0 0).evt R.esuEvt 2).say .esu 0x6105 2 0 0 0

/-- The tamper-loop seeds of step 7 (R555): the first word of a block, if one is available; the rest of that block is discarded. -/
def State.esuTamper (s : State) (seed : Option Word) : State :=
  match s.esu.katSha, seed with
  | true, some w =>
    let one (x : Half) : Half := if x = 0 then 1 else x
    { s with wnt := { s.wnt with lfsr := #v[one (fld w 0 16), one (fld w 16 16)] } }
  | _, _ => s

/-- A warm start (R556). -/
def State.esuWarm (s : State) : State :=
  { s with esu := { s.esu with bits := [], mask := 0, held := [], fifo := [], dfifo := [], drbgRun := false, due := none,
                               seed := [], gens := 0, reseeds := 0, key := List.replicate 32 0, v := List.replicate 16 0,
                               wantSec := false, wantDbg := false } }

/-- A challenge is asked for: it waits for a block unless the conditioner is stopped and there is none (R545, R547). -/
def State.askSec (s : State) : State :=
  if !s.esu.condRun ∧ s.esu.take.isNone then { s with key := { s.key with fresh := false } }
  else ({ s with esu := { s.esu with wantSec := true }, key := { s.key with fresh := false } }).esuServe
def State.askDbg (s : State) : State :=
  if !s.esu.condRun ∧ s.esu.take.isNone then { s with dbg := { s.dbg with fresh := false } }
  else ({ s with esu := { s.esu with wantDbg := true }, dbg := { s.dbg with fresh := false } }).esuServe

end Sys2Proof.Machine
end

