-- ==== Sys2Proof/Machine/Flash.lean ====
section
/-! DEFINITION. External flash and inline encryption (18): protected areas, line format, counters, checks. -/

namespace Sys2Proof.Machine

/-- Byte of the flash at a device address: bit 27 selects the chip select (18 R513). -/
def FlashSt.rd (f : FlashSt) (a : Nat) : Byte :=
  if a < 2 ^ 27 then mget 0xFF f.cs0 a else mget 0xFF f.cs1 (a - 2 ^ 27)

/-- Bytes from a device address. -/
def FlashSt.rds (f : FlashSt) (a : Nat) : Nat → List Byte
  | 0 => []
  | n + 1 => f.rd a :: FlashSt.rds f (a + 1) n

/-- Programming only clears bits: the byte becomes the conjunction of old and new. -/
def FlashSt.prog (f : FlashSt) (a : Nat) (b : Byte) : FlashSt :=
  if a < 2 ^ 27 then { f with cs0 := mset 0xFF f.cs0 a (mget 0xFF f.cs0 a &&& b) }
  else { f with cs1 := mset 0xFF f.cs1 (a - 2 ^ 27) (mget 0xFF f.cs1 (a - 2 ^ 27) &&& b) }

/-- Bytes programmed from a device address. -/
def FlashSt.progs (f : FlashSt) (a : Nat) : List Byte → FlashSt
  | [] => f
  | b :: t => FlashSt.progs (f.prog a b) (a + 1) t

/-- n bytes from a device address erased. -/
def FlashSt.erase (f : FlashSt) (a n : Nat) : FlashSt :=
  if a < 2 ^ 27 then { f with cs0 := mclear f.cs0 a n } else { f with cs1 := mclear f.cs1 (a - 2 ^ 27) n }

/-- A protected area (18 Table KEY-2): area code, data part, tag part, counter part, key index, key identifier. -/
structure Area where
  code : Nat
  base : Nat
  limit : Nat
  tag : Nat
  ctr : Nat
  key : Nat
  kid : Nat
  deriving DecidableEq, Repr

/-- Region 0 (03 Table IMG-2). -/
def area0 : Area := { code := 0, base := 0, limit := 0xFFFFFF, tag := 0x1000000, ctr := 0x1400000, key := 0, kid := 0 }

/-- The range regions 1 to 3 in use. -/
def MemCfg.regions (m : MemCfg) : List Area :=
  (List.finRange 3).filterMap (fun r =>
    let g := m.region[r]
    if g.base = 0 ∧ g.limit = 0 ∧ g.tag = 0 ∧ g.ctr = 0 then none
    else some { code := r.val + 1, base := g.base, limit := g.limit, tag := g.tag, ctr := g.ctr, key := r.val + 1, kid := 0 })

/-- The DATA areas in use: tag and counter parts follow the data part. -/
def MemCfg.dataAreas (m : MemCfg) : List Area :=
  (List.finRange 8).filterMap (fun a =>
    let d := m.data[a]
    if d.limit = 0 then none
    else
      let size := d.limit + 1 - d.base
      some { code := 8 + a.val, base := d.base, limit := d.limit, tag := d.limit + 1, ctr := d.limit + 1 + size / 4,
             key := 3 + d.key, kid := d.key })

/-- Every area in use. -/
def State.areas (s : State) : List Area :=
  area0 :: (match s.memCfg with
    | none => []
    | some m => m.regions ++ m.dataAreas)

/-- The area's address lies in its data part. -/
def Area.has (a : Area) (x : Nat) : Bool := decide (a.base ≤ x) && decide (x ≤ a.limit)

/-- Sizes of the tag and counter parts. -/
def Area.inTags (a : Area) (x : Nat) : Bool :=
  let n := a.limit + 1 - a.base
  (decide (a.tag ≤ x) && decide (x < a.tag + n / 4)) || (decide (a.ctr ≤ x) && decide (x < a.ctr + n / 8))

/-- Index of the area's write counter (IEU_WC). -/
def Area.wcIdx (a : Area) : Fin 12 := fin 11 (if a.code < 4 then a.code else a.code - 4)

/-- The area's key, if it is loaded. -/
def State.areaKey (s : State) (a : Area) : Option (List Byte) := s.key.loaded[fin 10 a.key]

/-- Line number and addresses of the tag and counter of the line at x. -/
def Area.line (a : Area) (x : Nat) : Nat := (x - a.base) / 32
def Area.tagAt (a : Area) (x : Nat) : Nat := a.tag + 8 * a.line x
def Area.ctrAt (a : Area) (x : Nat) : Nat := a.ctr + 4 * a.line x

/-- The IV of a line (18 Table KEY-3). -/
def Area.iv (a : Area) (x c : Nat) : List Byte :=
  toBE 4 (x / 32) ++ toBE 4 c ++ [0xA5#8, BitVec.ofNat 8 (16 * a.kid + a.code), 0, 0]

/-- IV byte 9, as LINE_FAIL reports it. -/
def Area.ivByte (a : Area) : Nat := 16 * a.kid + a.code

/-- What reading a line gives. -/
inductive LineRead where
  | unwritten
  | good (data : List Byte)
  | bad
  deriving DecidableEq, Repr

/-- Reading and checking the line at x under a key (18 R519). -/
def FlashSt.readLine (f : FlashSt) (a : Area) (key : List Byte) (x : Nat) : LineRead :=
  let tag := f.rds (a.tagAt x) 8
  if tag = List.replicate 8 0xFF then .unwritten
  else
    let c := natLE (f.rds (a.ctrAt x) 4)
    let ct := f.rds x 32
    if c = 0xFFFFFFFF then .bad
    else if (gcmTag key (a.iv x c) ct).take 8 = tag then .good (gcmCrypt key (a.iv x c) ct)
    else .bad

/-- The counter a line write takes: WC + 1, skipping values whose tag would read all ones (18 R520); n tries. -/
def nextCtr (a : Area) (key : List Byte) (x : Nat) (pt : List Byte) : Nat → Nat → Nat
  | 0, c => c
  | n + 1, c =>
    if (gcmTag key (a.iv x c) (gcmCrypt key (a.iv x c) pt)).take 8 = List.replicate 8 0xFF then nextCtr a key x pt n (c + 1)
    else c

/-- One line programmed under counter c: counter, ciphertext, then tag (18 R522). -/
def FlashSt.writeLine (f : FlashSt) (a : Area) (key : List Byte) (x c : Nat) (pt : List Byte) : FlashSt :=
  let ct := gcmCrypt key (a.iv x c) pt
  ((f.progs (a.ctrAt x) (toLE 4 c)).progs x ct).progs (a.tagAt x) ((gcmTag key (a.iv x c) ct).take 8)

/-- The programmed line reads back as written. -/
def FlashSt.lineOk (f : FlashSt) (a : Area) (key : List Byte) (x c : Nat) (pt : List Byte) : Bool :=
  let ct := gcmCrypt key (a.iv x c) pt
  decide (f.rds (a.ctrAt x) 4 = toLE 4 c) && decide (f.rds x 32 = ct) &&
    decide (f.rds (a.tagAt x) 8 = (gcmTag key (a.iv x c) ct).take 8)

/-- What writing a line gives. -/
inductive LineWrite where
  | ok | progFail | exhausted
  deriving DecidableEq, Repr

/-- One line written by the IEU: the write counter taken, the line programmed and compared. -/
def State.putLine (s : State) (a : Area) (key : List Byte) (x : Nat) (pt : List Byte) : LineWrite × State :=
  let c := nextCtr a key x pt 4 ((s.key.wc[a.wcIdx]).toNat + 1)
  if 0xFFFFFFFE < c then (.exhausted, s)
  else
    let f := s.key.flash.writeLine a key x c pt
    let s' := { s with key := { s.key with flash := f, wc := vput s.key.wc a.wcIdx (BitVec.ofNat 32 c) } }
    (if f.lineOk a key x c pt then .ok else .progFail, s')

/-- One erase unit of an area erased: data, tags and counters (18 R523). -/
def FlashSt.eraseUnit (f : FlashSt) (a : Area) (x : Nat) : FlashSt :=
  ((f.erase x 32768).erase (a.tagAt x) 8192).erase (a.ctrAt x) 4096

/-- n units from x erased. -/
def FlashSt.eraseUnits (f : FlashSt) (a : Area) (x : Nat) : Nat → FlashSt
  | 0 => f
  | n + 1 => FlashSt.eraseUnits (f.eraseUnit a x) a (x + 32768) n

/-- Registers of SEC (18). -/
def R.secEvt : Nat := 0x00100004

/-- A security alarm: counted, its address kept, SEC_EVT.ALARM set, the entry at most once per channel per 1 ms
(18 R524, R517, R533). -/
def State.alarm (s : State) (addr : Word) (chan : Nat) (code : Half) (p0 p1 p2 p3 : Word) : State :=
  let s1 := { s with key := { s.key with alarms := satInc s.key.alarms, alarmAddr := addr } }
  (s1.evt R.secEvt 0).sayRate 100000 chan .sec code p0 p1 p2 p3

/-- LINE_FAIL for the line at x. -/
def State.lineFail (s : State) (a : Area) (x chan : Nat) (halt : Bool) : State :=
  s.alarm (BitVec.ofNat 32 (2 ^ 31 + 2 ^ 28 * a.kid + x)) chan 0x6001 (BitVec.ofNat 32 a.ivByte) (BitVec.ofNat 32 x)
    (BitVec.ofNat 32 chan) (bitAt halt 0)

/-- The area's failed check halts the part (Table KEY-2). -/
def State.haltOnFail (s : State) (a : Area) : Bool :=
  decide (a.code = 0) || (decide (a.code < 4) && (match s.memCfg with
    | none => false
    | some m => m.halt.getLsbD a.code))

/-- The range region that holds a device address. -/
def State.regionAt (s : State) (x : Nat) : Option Area :=
  match s.memCfg with
  | none => none
  | some m => m.regions.find? (fun a => a.has x)

end Sys2Proof.Machine
end

