-- ==== Sys2Proof/Machine/LogUnit.lean ====
section
/-! DEFINITION. The event log (11): staging, flush, erased reserve, fetch window, clear, software entries. -/

namespace Sys2Proof.Machine

/-- Registers of LOG. -/
def R.logEvt : Nat := 0x00090080
def R.logSwe (j : Nat) : Nat := 0x00090060 + 4 * j

/-- Bytes 0 to 27 of an entry (Table LOG-1). -/
def Entry.body (e : Entry) : List Byte :=
  toLE 2 e.code.toNat ++ [e.source,
    (bitAt e.td 0 ||| bitAt e.coarse 1 ||| bitAt e.pf 2 ||| bitAt e.hw 3).setWidth 8] ++
    toLE 8 e.stamp.toNat ++ bytesLE e.p0 ++ bytesLE e.p1 ++ bytesLE e.p2 ++ bytesLE e.p3

/-- The 32 bytes of an entry, CRC last. -/
def Entry.bytes (e : Entry) : List Byte := e.body ++ bytesLE (crc32c e.body)

/-- Number of entries the LOG area holds; 0 with no image. -/
def State.entries (s : State) : Nat :=
  match s.memCfg with
  | none => 0
  | some m => m.entries

/-- Device address of index i. -/
def State.logAddr (s : State) (i : Nat) : Nat :=
  match s.memCfg with
  | none => 0
  | some m => m.logBase + 32 * i

/-- End (exclusive) of the erased reserve that R300 asks for. -/
def State.reserveNeed (s : State) : Nat := min (s.log.wptr + 127) (s.entries - 1) + 1

/-- A flush trigger (R298, R311): starts a flush, or another one after the running flush. -/
def State.flushTrigger (s : State) : State :=
  if s.mode.past11 && s.mode.coreOn && !s.log.flushErr && !s.log.clearing then
    match s.log.flush with
    | some _ => { s with log := { s.log with again := true } }
    | none => { s with log := { s.log with flush := some s.log.staged.length, retried := false } }
  else s

/-- LOGU is the source of STAGE_OVF. -/
def Entry.isOvf (e : Entry) : Bool := e.code == 0x0030 && e.source == Src.logu.id

/-- The staged STAGE_OVF entry has its count incremented; none if there is no such entry. A flush frees its entries as it completes, so
until then the entry is still staged. -/
def bumpOvf : List Entry → Option (List Entry)
  | [] => none
  | e :: t => if e.isOvf then some ({ e with p0 := satInc e.p0 } :: t) else (bumpOvf t).map (e :: ·)

/-- An entry refused by staging: counted, and the STAGE_OVF entry placed or updated (R297). -/
def LogSt.refuse (l : LogSt) (pf : Bool) (e : Entry) : LogSt × Bool :=
  let l1 := { l with lost := satInc l.lost }
  match bumpOvf l.staged with
  | some st => ({ l1 with staged := st }, false)
  | none =>
    if l.staged.length < 128 then
      let o : Entry := { e with code := 0x0030, source := Src.logu.id, pf := pf, hw := true, p0 := 1,
                                 p1 := e.code.setWidth 32, p2 := e.source.setWidth 32, p3 := 0 }
      ({ l1 with staged := l.staged ++ [o] }, true)
    else (l1, false)

/-- Whether an offered entry y goes before the entry x offered earlier: offered in the same WINTER cycle, it comes by an earlier port
(R296), or it is of the same source and instant and earlier in that source's arbiter (02 R52). -/
def goesBefore (y x : Entry × Nat × Nat × Nat) : Bool :=
  y.2.1 == x.2.1 &&
    (decide (y.2.2.1 < x.2.2.1) ||
      (y.2.2.1 == x.2.2.1 && y.1.source == x.1.source && y.1.stamp == x.1.stamp && decide (y.2.2.2 < x.2.2.2)))

/-- The place, among the entries offered, of the one to be staged next. -/
def LogSt.turn (l : LogSt) : Nat :=
  let es := (l.offered.zip l.ports).zipIdx
  match es with
  | [] => 0
  | x :: t => (t.foldl (fun (b y : (Entry × Nat × Nat × Nat) × Nat) => if goesBefore y.1 b.1 then y else b) x).2

/-- STAGE_ENTRY: the next offered entry is staged, refused or counted lost (R296, R297, R301). -/
def State.stageOne (s : State) : State :=
  let i := s.log.turn
  match s.log.offered[i]? with
  | none => s
  | some e =>
    let s0 := { s with log := { s.log with offered := s.log.offered.eraseIdx i, ports := s.log.ports.eraseIdx i } }
    if s0.log.full then { s0 with log := { s0.log with lost := satInc s0.log.lost } }
    else if s0.log.staged.length < 127 then
      let s1 := { s0 with log := { s0.log with staged := s0.log.staged ++ [{ e with pf := e.pf || s.mode.pf }] } }
      if s1.log.staged.length = 96 ∨ e.code.extractLsb' 12 4 = 8 then s1.flushTrigger else s1
    else
      match s0.log.refuse s.mode.pf e with
      | (l, placed) =>
        let s1 := { s0 with log := l }
        if placed then s1.evt R.logEvt 1 else s1

/-- Every offered entry staged, in turn. -/
def State.stageAll (s : State) : State := Nat.repeat State.stageOne s.log.offered.length s

/-- Staged entries written to the LOG region from the write point, n of them, each freed as it is written (R299); the
last index is kept for LOG_FULL (R301). A line that the IEU refuses or cannot program ends it, and so does the boundary register on the
pins (22 R601): the entry stays staged (R311). Answers whether all were written. -/
def State.flushLines (s : State) (a : Area) (key : List Byte) : Nat → State × Bool
  | 0 => (s, true)
  | n + 1 =>
    match s.log.staged with
    | [] => (s, true)
    | e :: rest =>
      if s.bscan then (s, false)
      else if s.log.wptr + 1 < s.entries then
        match s.putLine a key (s.logAddr s.log.wptr) e.bytes with
        | (.ok, s1) => State.flushLines { s1 with log := { s1.log with staged := rest, wptr := s.log.wptr + 1 } } a key n
        | (_, s1) => (s1, false)
      else if s.log.wptr + 1 = s.entries then
        let f : Entry := { e with code := 0x0031, source := Src.logu.id, hw := true, pf := s.mode.pf,
                                   p0 := e.code.setWidth 32, p1 := e.source.setWidth 32,
                                   p2 := BitVec.ofNat 32 s.entries, p3 := 0 }
        match s.putLine a key (s.logAddr s.log.wptr) f.bytes with
        | (.ok, s1) =>
          let lost := s1.log.lost.toNat + s.log.staged.length
          (({ s1 with log := { s1.log with staged := [], wptr := s.log.wptr + 1, full := true,
                                           lost := BitVec.ofNat 32 (min lost 0xFFFFFFFF) } }).evt R.logEvt 2, true)
        | (_, s1) => (s1, false)
      else (s, true)

/-- The area and key of the LOG region. -/
def State.logArea (s : State) : Option (Area × List Byte) :=
  match s.regionAt (s.logAddr 0) with
  | none => none
  | some a => (s.areaKey a).map (fun k => (a, k))

/-- n staged entries flushed, where the LOG region is reachable. -/
def State.flushN (s : State) (n : Nat) : State × Bool :=
  match s.logArea with
  | none => (s, true)
  | some (a, k) => s.flushLines a k n

/-- Erase units of the LOG area erased from the old end of the reserve to the unit end at or above n (R300, R523). -/
def State.extendReserve (s : State) (n : Nat) : State :=
  let e := min ((n + 1023) / 1024 * 1024) s.entries
  if s.log.reserve < e ∧ s.bscan = false then
    match s.logArea with
    | none => s
    | some (a, _) =>
      let from_ := s.log.reserve / 1024
      let f := s.key.flash.eraseUnits a (s.logAddr (1024 * from_)) (e / 1024 - from_)
      { s with key := { s.key with flash := f }, log := { s.log with reserve := e } }
  else s

/-- The log unit stops flushing after a failed retry (R311); a waiting clear begins (R309). -/
def State.flushStop (s : State) : State :=
  ({ s with log := { s.log with flush := none, again := false, retried := false, flushErr := true,
                                clearing := s.log.clearing || s.log.clearWait, clearWait := false } }).evt R.logEvt 3

/-- FLUSH_FAIL (Table LOG-4). -/
def State.sayFlushFail (s : State) (attempt : Word) : State :=
  s.say .logu 0x0034 (BitVec.ofNat 32 s.log.wptr) (s.key.flash.status.setWidth 32) attempt 0

/-- The clear of R309. -/
def State.doClear (s : State) : State :=
  match s.logArea with
  | none => s
  | some (a, k) =>
    let f := s.key.flash.eraseUnits a (s.logAddr 0) (s.entries / 1024)
    let e := s.entry .logu 0x0032 (BitVec.ofNat 32 s.log.wptr) s.log.lost 0 0
    let s1 := { s with key := { s.key with flash := f },
                       log := { s.log with wptr := 1, lost := 0, full := false, clearing := false, clearWait := false,
                                           reserve := s.entries } }
    (s1.putLine a k (s1.logAddr 0) e.bytes).2

/-- A whole flush inside a sequence (Dormant entry, release for return, Safe without a window): what is offered is staged, a clear in
progress ends, and what is staged is written, the reserve extended as it needs (R300); a failed line is retried once
(R311). -/
def State.flushAll (s : State) : State :=
  let s0 := s.stageAll
  if !s0.mode.past11 || s0.log.flushErr then s0
  else
    let s1 := if (s0.log.clearing || s0.log.clearWait) && !s0.bscan then s0.doClear else s0
    let s2 := s1.extendReserve (min (s1.log.wptr + s1.log.staged.length) s1.entries)
    let r := s2.flushN s2.log.staged.length
    let stop (t : State) : State := ({ t with log := { t.log with flush := none, again := false, retried := false } }).evt R.logEvt 0
    if r.2 then stop r.1
    else
      let q := (r.1.sayFlushFail 1).flushN r.1.log.staged.length
      if q.2 then stop q.1 else (q.1.sayFlushFail 2).flushStop

/-- A fetch starts for the entry at the cursor (R305, R309): END while clearing or past the last entry. -/
def State.startFetch (s : State) (c : BitVec 20) : State :=
  let n := s.log.wptr + s.log.staged.length
  let w := if s.log.clearing ∨ n ≤ c.toNat then WinState.ended else WinState.fetching
  { s with log := { s.log with cursor := c, win := w, words := List.replicate 8 0, crcBad := false, inStage := false } }

/-- What the ended fetch shows (R305, R307); ERR where the boundary register has the pins (log entry 109). -/
def State.endFetch (s : State) : State :=
  if s.log.win ≠ .fetching then s
  else
    let c := s.log.cursor.toNat
    if s.log.clearing then { s with log := { s.log with win := .ended } }
    else if c < s.log.wptr ∧ s.bscan = true then { s with log := { s.log with win := .err } }
    else if c < s.log.wptr then
      match s.logArea with
      | none => { s with log := { s.log with win := .ended } }
      | some (a, k) =>
        match s.key.flash.readLine a k (s.logAddr c) with
        | .bad =>
          let s1 := { s with log := { s.log with win := .err } }
          if s.haltOnFail a then (s1.lineFail a (s.logAddr c) 1 true).latchOpen 2
          else s1.lineFail a (s.logAddr c) 1 false
        | .unwritten =>
          { s with log := { s.log with win := .valid, words := List.replicate 8 0xFFFFFFFF, crcBad := true } }
        | .good d =>
          { s with log := { s.log with win := .valid, words := wordsLE 8 d,
                                       crcBad := decide (crc32c (d.take 28) ≠ wordLE (d.drop 28)) } }
    else
      match s.log.staged[c - s.log.wptr]? with
      | none => { s with log := { s.log with win := .ended } }
      | some e => { s with log := { s.log with win := .valid, words := wordsLE 8 e.bytes, inStage := true } }

/-- A read of LOG_WIN7 (R306): the word, and in VALID or ERR the cursor advances and the next fetch starts. -/
def State.readWin7 (s : State) : Word × State :=
  let w := if s.log.win = .valid then s.log.words.getD 7 0 else 0
  if s.log.win = .valid ∨ s.log.win = .err then (w, s.startFetch (s.log.cursor + 1)) else (w, s)

/-- A write of LOG_SWE_CODE (R303). -/
def State.sweCode (s : State) (v : Word) : State :=
  let c := fld v 0 16
  if c.extractLsb' 12 4 = 0xE then
    s.offer { code := c, source := Src.swc.id, td := false, coarse := false, pf := false, hw := false,
              stamp := s.time.dt, p0 := s.reg (R.logSwe 0), p1 := s.reg (R.logSwe 1), p2 := s.reg (R.logSwe 2),
              p3 := s.reg (R.logSwe 3) }
  else s.evt R.logEvt 4

/-- A write of LOG_CTL (R298, R311). -/
def State.logCtl (s : State) (v : Word) : State :=
  if bit v 0 then ({ s with log := { s.log with flushErr := false } }).flushTrigger else s

/-- A write of LOG_CLEAR (R308, R309). -/
def State.logClearWr (s : State) (v : Word) : State :=
  if s.mode.mode = .service ∧ fld v 16 16 = 0x6C0E ∧ fldN v 0 16 = s.log.wptr % 65536 then
    match s.log.flush with
    | some _ => { s with log := { s.log with clearWait := true } }
    | none => { s with log := { s.log with clearing := true } }
  else s.evt R.logEvt 4

/-- A flush has ended: the next one starts if a trigger arrived, a waiting clear begins. -/
def State.afterFlush (s : State) : State :=
  let s1 := { s with log := { s.log with flush := none, retried := false, again := false } }
  if s.log.clearWait then { s1 with log := { s1.log with clearing := true, clearWait := false } }
  else if s.log.again then s1.flushTrigger else s1

end Sys2Proof.Machine
end

