-- ==== Sys2Proof/Machine/Recorder.lean ====
section
/-! DEFINITION. Disturbance recorder and Bramble sequencers (10). -/

namespace Sys2Proof.Machine

/-- Registers of REC and BRM. -/
def R.recCnt : Nat := 0x00080038
def R.recSlotRec (n : Nat) : Nat := 0x00080040 + 4 * n
def R.recEvt : Nat := 0x00080060
def R.brmFire (n : Nat) : Nat := 0x00080130 + 4 * n

/-- The RECORDER section of the loaded image. -/
def State.recCfg (s : State) : Option RecCfg :=
  match s.cfg.img with
  | none => none
  | some i => i.recd

/-- Bytes of a slot, frames of its ring, pre-trigger target (R269, R270). -/
def RecCfg.slotBytes (c : RecCfg) : Nat := 64 * (524288 / (64 * c.nslot))
def RecCfg.nch (c : RecCfg) : Nat := c.ch.length
def RecCfg.cap (c : RecCfg) : Nat := (c.slotBytes - 64) / (4 * c.nch)
def RecCfg.pre (c : RecCfg) : Nat := (c.cap - c.post) * c.prePct / 100

/-- Bytes of a RECORDS cell, and how many fit (R277). -/
def RecCfg.cell (c : RecCfg) : Nat := 4096 * ((64 + c.cap * 4 * c.nch + 4095) / 4096)
def State.cells (s : State) (c : RecCfg) : Nat :=
  match s.memCfg with
  | none => 0
  | some m => if m.recBase = 0 ∧ m.recLimit = 0 then 0 else (m.recLimit + 1 - m.recBase) / c.cell

/-- The recorder runs: Ready, Protect, Service, and Safe while the core die is powered (R275, R292). -/
def State.recRuns (s : State) : Bool := s.running || (s.mode.coreOn && s.mode.mode == .safe)

/-- Value of PRECH_SIG. -/
def State.prech (s : State) : Bool :=
  match s.fabCfg with
  | none => false
  | some c => s.sig c.prech

/-- Status word 7, bits [15:0], which BRM_STAT shows. -/
def State.brmStat (s : State) : Word :=
  (List.finRange 4).foldl (fun w q => w ||| at_ (s.recd.seqs[q]).q.val (4 * q.val) |||
    bitAt (s.recd.seqs[q]).en (4 * q.val + 3)) 0

/-- Status word i (Table REC-1), from the fabric as it stood 30 ticks before the sample (R267). -/
def State.statusWord (s : State) (i : Nat) : Word :=
  let z := s.fabView
  let low (n : Nat) : Word := (z.low >>> n).setWidth 32
  match i with
  | 0 => (low 8 &&& 0xFFFF) ||| (z.trip.setWidth 32 <<< 16) ||| bitAt z.gate 28 ||| bitAt (z.low.getLsbD 0xD0) 29 |||
      bitAt (match s.fabCfg with
        | none => false
        | some c => sigOf z.low z.q c.prech) 30
  | 1 => low 0x20
  | 2 => low 0x40
  | 3 => (low 0x70 &&& 0xFFF) ||| ((low 0x60 &&& 0xFFF) <<< 16)
  | 4 => low 0x80
  | 5 => (low 0xA0 &&& 0xFFF) ||| (z.close.setWidth 32 <<< 16)
  | 6 => low 0xB0
  | _ => s.brmStat ||| at_ z.group.val 16 ||| (match s.fabCfg with
      | none => 0
      | some c => (boolBits 4 ((List.finRange 4).map (fun k => sigOf z.low z.q (c.kdrv[k]).on))).setWidth 32 <<< 20)

/-- Word of a channel list entry (R267). -/
def State.recWord (s : State) (e : Nat) : Word := if e < 16 then s.chain[fin 15 e].out else s.statusWord (e - 16)

/-- Value of an exit's source for sequencer q (Table REC-3), from the fabric as it stood 30 ticks before the sample (R280). -/
def State.exitSrc (s : State) (thr : BitVec 4) (e : ExitCfg) : Bool :=
  let z := s.fabView
  match e.src.toNat with
  | 0 => sigOf z.low z.q (8 + e.index)
  | 1 => sigOf z.low z.q (32 + e.index)
  | 2 => thr.getLsbD e.index.toNat
  | 3 => sigOf z.low z.q e.index
  | _ => s.recd.swtrig.getLsbD e.index.toNat

/-- The filter thresholds after a sample (R281). -/
def State.seqThr (s : State) (c : SeqCfg) (thr : BitVec 4) : BitVec 4 :=
  boolBits _ ((List.finRange 4).map (fun i =>
    let t := c.thr[i]
    let w := s.chain[t.1].out
    if bit w 31 && !bit w 30 then thr.getLsbD i.val
    else if t.2.1 then decide (thValue w < t.2.2.toInt) else decide (t.2.2.toInt < thValue w)))

/-- What one evaluation gives: the sequencer, whether it fired, and its bits of CAUSE_MASK. -/
def State.seqEval (s : State) (c : SeqCfg) (q : Fin 4) (x : SeqSt) : SeqSt × Bool × Word :=
  let st := c.states[x.q]
  let thr := s.seqThr c x.thr
  let dwell := satInc x.dwell
  let hits := (List.finRange 4).filter (fun i =>
    (st.exits[i]).en && (s.exitSrc thr st.exits[i] ^^ (st.exits[i]).invert))
  let mask : Word := hits.foldl (fun w i => w ||| bitAt true (4 * q.val + i.val)) 0
  let hit := decide (st.minDwell ≤ dwell.toNat) && !hits.isEmpty
  let occ := if hit then satInc x.occ else x.occ
  let enter (t : Fin 8) (cause : Word) : SeqSt × Bool × Word :=
    ({ x with q := t, dwell := 0, occ := 0, thr := thr }, (c.states[t]).trigger, cause)
  if hit && decide (st.count ≤ occ.toNat) then
    match hits with
    | i :: _ => enter (st.exits[i]).target mask
    | [] => ({ x with dwell := dwell, occ := occ, thr := thr }, false, 0)
  else if st.maxDwell ≠ 0 ∧ st.maxDwell ≤ dwell.toNat then enter st.fallback (bitAt true (16 + q.val))
  else ({ x with dwell := dwell, occ := occ, thr := thr }, false, 0)

/-- BRM_CTL.EN takes effect (R285). A sequencer that a parity error has stopped stays stopped until a cold start (R290; log entry 96). -/
def SeqSt.enable (x : SeqSt) (en : Bool) (initial : Fin 8) : SeqSt :=
  if en = x.en ∨ x.stopped = true then x
  else if en then { x with en := true, q := initial, dwell := 0, occ := 0, thr := 0 }
  else { x with en := false }

/-- The parity check of a sample fails for a sequencer (R290): it stops as if disabled. -/
def State.seqParity (s : State) (q : Fin 4) : State :=
  let x := s.recd.seqs[q]
  if x.stopped then s
  else ({ s with recd := { s.recd with seqs := vput s.recd.seqs q { x with en := false, stopped := true } } }).say .recd 0x8402
    (BitVec.ofNat 32 q.val) (BitVec.ofNat 32 x.q.val) 0 0

/-- Sequencer configurations of the loaded image. -/
def State.brm (s : State) (q : Fin 4) : Option SeqCfg := s.cfg.img.map (fun i => i.brm[q])

/-- Every enabled sequencer evaluates at a sample: which fired, and CAUSE_MASK (R283, R284). One that this sample enables enters INITIAL,
and no state is left in the sample in which it was entered. -/
def State.seqSample (s : State) : State × BitVec 4 × Word :=
  (List.finRange 4).foldl (fun acc q =>
    match s.brm q with
    | none => acc
    | some c =>
      let x := (s.recd.seqs[q]).enable (s.recd.brmCtl.getLsbD q.val) c.initial
      let r := if x.en && (s.recd.seqs[q]).en then s.seqEval c q x else (x, false, 0)
      let t := { acc.1 with recd := { acc.1.recd with seqs := vput acc.1.recd.seqs q r.1 } }
      let t' := if r.2.1 then t.countReg (R.brmFire q.val) 0xFFFFFFFF else t
      (t', setBit acc.2.1 q.val r.2.1, acc.2.2 ||| (if r.2.1 then r.2.2 else 0))) (s, 0, 0)

/-- Address of slot n in recorder memory. -/
def RecCfg.base (c : RecCfg) (n : Fin 8) : Nat := n.val * c.slotBytes

/-- Bytes of the record header without its CRC (Table REC-2). -/
def State.recHeader (s : State) (c : RecCfg) (n : Fin 8) (x : RecSlot) (unset : Word) : List Byte :=
  [0x42, 0x52, 0x45, 0x43] ++ toLE 2 1 ++ [BitVec.ofNat 8 c.nch, BitVec.ofNat 8 c.rate] ++ bytesLE x.recNo ++
    [BitVec.ofNat 8 n.val, x.flags, x.seqMask.setWidth 8, 0] ++ toLE 8 x.trigDt.toNat ++ bytesLE x.cause ++
    toLE 4 x.preAct ++ toLE 4 c.post ++ bytesLE x.dead ++ bytesLE x.missed ++ bytesLE x.retrig ++ bytesLE unset ++
    (match s.cfg.img with
      | none => [0, 0, 0, 0]
      | some i => i.hash.take 4) ++ toLE 4 x.first

/-- Frames of a record, k of them from ring index j, in time order. -/
def State.recFrames (s : State) (c : RecCfg) (n : Fin 8) (j : Nat) : Nat → List (List Byte)
  | 0 => []
  | k + 1 => mread 0 s.recd.mem (c.base n + 64 + 4 * c.nch * (j % c.cap)) (4 * c.nch) :: State.recFrames s c n (j + 1) k

/-- UNSET of a record (Table REC-2): chain entries with UNSETTLED in some frame. -/
def unsetOf (c : RecCfg) (frames : List (List Byte)) : Word :=
  (List.range c.nch).foldl (fun w i =>
    if c.ch.getD i 0xFF < 16 ∧ frames.any (fun f => (f.getD (4 * i + 3) 0).getLsbD 7) then w ||| bitAt true i else w) 0

/-- Slot n changed. -/
def State.putSlot (s : State) (n : Fin 8) (x : RecSlot) : State := { s with recd := { s.recd with slot := vput s.recd.slot n x } }

/-- REC_CNT fields counted up, saturating. -/
def State.recCount (s : State) (records : Bool) : State :=
  let v := s.reg R.recCnt
  let r : Half := v.extractLsb' 0 16
  let l : Half := v.extractLsb' 16 16
  s.setReg R.recCnt (if records then (l.setWidth 32 <<< 16) ||| (satInc r).setWidth 32
                     else ((satInc l).setWidth 32 <<< 16) ||| r.setWidth 32)

/-- RECORD_LOST (Table REC-4); a record, unlike a slot before its trigger, is counted. -/
def State.recLost (s : State) (n : Fin 8) (recNo reason : Word) : State :=
  let s1 := if recNo = 0 then s else s.recCount false
  (s1.evt R.recEvt 4).say .recd 0x3004 recNo (BitVec.ofNat 32 n.val) reason 0

/-- Slot n seals (R271): header written, SEALED. -/
def State.recSeal (s : State) (c : RecCfg) (n : Fin 8) : State :=
  let x := s.recd.slot[n]
  let unset := unsetOf c (s.recFrames c n x.first (x.preAct + c.post))
  let h := s.recHeader c n x unset
  let mem := mwrite 0 s.recd.mem (c.base n) (h ++ bytesLE (crc32c h))
  let s1 := { s with recd := { s.recd with mem := mem, slot := vput s.recd.slot n { x with st := .sealed, left := 0 },
                                           active := none, order := s.recd.order ++ [n] } }
  let s2 := ((s1.recCount true).setReg (R.recSlotRec n.val) x.recNo).evt R.recEvt 1
  s2.say .recd 0x3002 x.recNo x.retrig unset (x.flags.setWidth 32)

/-- Cells' headers read after a Winter power-on: the highest good REC_NO and its cell (R279). -/
def State.cellScan (s : State) (c : RecCfg) (a : Area) (key : List Byte) (base : Nat) : Nat → Option (Nat × Nat) → Option (Nat × Nat)
  | 0, best => best
  | k + 1, best =>
    let r := State.cellScan s c a key base k best
    let x := base + k * c.cell
    match s.key.flash.readLine a key x, s.key.flash.readLine a key (x + 32) with
    | .good h0, .good h1 =>
      let h := h0 ++ h1
      let no := natLE ((h.drop 8).take 4)
      let newer : Bool := match r with
        | none => true
        | some b => decide (b.1 < no)
      if h.take 4 = [0x42, 0x52, 0x45, 0x43] ∧ bytesLE (crc32c (h.take 60)) = h.drop 60 ∧ newer = true then some (no, k) else r
    | _, _ => r

/-- REC_WPTR and REC_NO made known by the first drain after a Winter power-on (R279). Records triggered before it are numbered from the
reset value on, and keep their numbers (log entry 97). -/
def State.recKnow (s : State) (c : RecCfg) : State :=
  if s.recd.known then s
  else
    let found := match s.memCfg with
      | none => none
      | some m => match s.regionAt m.recBase with
        | none => none
        | some a => match s.areaKey a with
          | none => none
          | some k => s.cellScan c a k m.recBase (s.cells c) none
    match found with
    | none => { s with recd := { s.recd with known := true, wptr := 0 } }
    | some (no, cell) =>
      { s with recd := { s.recd with known := true, recNo := BitVec.ofNat 32 (max (no + 1) s.recd.recNo.toNat),
                                     wptr := if cell + 1 < s.cells c then cell + 1 else 0 } }

/-- The slot armed before its trigger is triggered by the last sample written (R271, R274, R284). -/
def State.recTrigger (s : State) (c : RecCfg) (n : Fin 8) (fired : BitVec 4) (cause : Word) (safe : Bool) : State :=
  let x := s.recd.slot[n]
  let before := x.written - 1
  let pre := min c.pre before
  let no := s.recd.recNo
  let flags : Byte := (bitAt (!s.recd.recorded) 0 ||| bitAt s.recd.disarmed 1 ||| bitAt x.ecc 2 ||| bitAt safe 3).setWidth 8
  let y := { x with st := .post, left := c.post - 1, recNo := no, flags := flags, seqMask := fired, trigDt := s.recd.sampleDt,
                    cause := cause, preAct := pre, dead := s.recd.dead, missed := s.recd.missed, retrig := 0,
                    first := (before - pre) % c.cap }
  let s1 := { s with recd := { s.recd with slot := vput s.recd.slot n y, dead := 0, missed := 0, disarmed := false,
                                           recorded := true, recNo := no + 1 } }
  let s2 := if x.missed = 0 ∧ s.recd.missed = 0 then s1
            else (s1.evt R.recEvt 3).say .recd 0x3003 no s.recd.missed s.recd.dead 0
  let s3 := if c.post ≤ 1 then s2.recSeal c n else s2
  (s3.evt R.recEvt 0).say .recd 0x3001 no (fired.setWidth 32 ||| at_ n.val 8) cause (BitVec.ofNat 32 pre)

/-- A sample's frame written to slot n. -/
def State.recFrame (s : State) (c : RecCfg) (n : Fin 8) : State :=
  let x := s.recd.slot[n]
  let at_ := c.base n + 64 + 4 * c.nch * (x.written % c.cap)
  let mem := mwrite 0 s.recd.mem at_ (c.ch.flatMap (fun e => bytesLE (s.recWord e)))
  { s with recd := { s.recd with mem := mem, slot := vput s.recd.slot n { x with written := x.written + 1 } } }

/-- The lowest free slot of the image's slots. -/
def State.freeSlot (s : State) (c : RecCfg) : Option (Fin 8) :=
  (List.finRange 8).find? (fun n => decide (n.val < c.nslot) && decide ((s.recd.slot[n]).st = .free))

/-- The header of slot n reads 0: it holds no sealed record (R57). -/
def State.noHeader (s : State) (c : RecCfg) (n : Fin 8) : State :=
  { s with recd := { s.recd with mem := mclear s.recd.mem (c.base n) 64 } }

/-- A slot may arm: the recorder is armed, and the mode is Ready, Protect or Service, the steps of a cold start or of the way to Dormant not
among it (R275, R291, 04 R108). -/
def State.recMayArm (s : State) (c : RecCfg) : Bool :=
  s.recd.arm && s.running && (!s.mode.starting || s.mode.kindWarm) && s.mode.m9.isNone && !s.mode.pf && decide (0 < s.cells c)

/-- A slot arms at this sample where none is active and one may (R273, R275, R277). -/
def State.recArmNow (s : State) (c : RecCfg) : State :=
  match s.recd.active with
  | some _ => s
  | none =>
    if s.recMayArm c then
      match s.freeSlot c with
      | none => s
      | some n =>
        let t := s.noHeader c n
        { t with recd := { t.recd with active := some n, armedOnce := true,
                                       slot := vput t.recd.slot n { RecSlot.reset with st := .capture } } }
    else s

/-- One recorder sample (R266 to R274, R283, R284); bad: a sequencer whose parity check fails (R290). -/
def State.recSample (s : State) (bad : Option (Fin 4)) : State :=
  match s.recCfg with
  | none => s
  | some c =>
    if !s.recRuns then s
    else
      let sa := match bad with
        | none => s
        | some q => s.seqParity q
      let s0 := ({ sa with recd := { sa.recd with sampleDt := sa.time.dt } }).recArmNow c
      match s0.seqSample with
      | (s1, fired, cause) =>
        let s2 := { s1 with recd := { s1.recd with swtrig := 0 } }
        match s2.recd.active with
        | none =>
          let r := { s2.recd with dead := if s2.recd.armedOnce then satInc s2.recd.dead else s2.recd.dead,
                                  missed := if s2.recd.armedOnce ∧ fired ≠ 0 then satInc s2.recd.missed else s2.recd.missed }
          { s2 with recd := r }
        | some n =>
          let s3 := s2.recFrame c n
          let x := s3.recd.slot[n]
          if x.st = .post then
            let y := { x with left := x.left - 1, retrig := if fired ≠ 0 then x.retrig + 1 else x.retrig }
            let s4 := s3.putSlot n y
            if y.left = 0 then s4.recSeal c n else s4
          else if fired ≠ 0 then s3.recTrigger c n fired cause false
          else s3

/-- REC_CTL.ARM written 1 (R275). -/
def State.recArm (s : State) : State :=
  match s.recCfg with
  | none => s.evt R.recEvt 5
  | some _ => if s.recd.arm then s else { s with recd := { s.recd with arm := true, disarmed := true } }

/-- The slot before its trigger is discarded for a reason. -/
def State.recDiscard (s : State) (reason : Word) : State :=
  match s.recd.active with
  | none => s
  | some n =>
    if (s.recd.slot[n]).st = .capture then
      ({ s with recd := { s.recd with active := none, slot := vput s.recd.slot n RecSlot.reset } }).recLost n 0 reason
    else s

/-- REC_CTL.ARM written 0 (R275). -/
def State.recDisarm (s : State) : State := ({ s with recd := { s.recd with arm := false } }).recDiscard 1

/-- A record's bytes as the drain writes them: header, frames in time order, zeros to the end of the cell (R278). -/
def State.recBytes (s : State) (c : RecCfg) (n : Fin 8) : List Byte :=
  let x := s.recd.slot[n]
  let body := mread 0 s.recd.mem (c.base n) 64 ++ (s.recFrames c n x.first (x.preAct + c.post)).flatten
  body ++ List.replicate (c.cell - body.length) 0

/-- An uncorrectable error of recorder memory at a byte offset (R289; log entry 96): REC_ECC once for a slot's record, FLAGS.ECC in its
header, one sealed already included. -/
def State.recEcc (s : State) (off : Nat) : State :=
  match s.recCfg with
  | none => s
  | some c =>
    let n : Fin 8 := fin 7 (off / c.slotBytes)
    let x := s.recd.slot[n]
    if x.ecc || decide (c.nslot * c.slotBytes ≤ off) then s
    else
      let s1 := s.putSlot n { x with ecc := true, flags := x.flags ||| 4 }
      let sealed := decide (x.st = .sealed)
      let h := (mread 0 s.recd.mem (c.base n) 60).set 13 (x.flags ||| 4)
      let s2 := if sealed then { s1 with recd := { s1.recd with mem := mwrite 0 s1.recd.mem (c.base n) (h ++ bytesLE (crc32c h)) } } else s1
      s2.say .recd 0x8401 (BitVec.ofNat 32 n.val) (BitVec.ofNat 32 (off - c.base n)) (bitAt sealed 0) 0

/-- Lines written by the mover from a device address; false where a program failed or the key is exhausted. -/
def State.putLines (s : State) (a : Area) (key : List Byte) : Nat → Nat → List Byte → State × Bool
  | 0, _, _ => (s, true)
  | k + 1, x, l =>
    match s.putLine a key x (l.take 32) with
    | (.ok, s1) => State.putLines s1 a key k (x + 32) (l.drop 32)
    | (_, s1) => (s1, false)

/-- Erase units that begin inside a range, n units from the first (R523). -/
def FlashSt.eraseInside (f : FlashSt) (a : Area) (x len : Nat) : FlashSt :=
  let from_ := a.base + (x - a.base + 32767) / 32768 * 32768
  f.eraseUnits a from_ ((x + len - from_ + 32767) / 32768)

/-- The record of slot n written to the next cell; false where it failed. -/
def State.drainWrite (s : State) (c : RecCfg) (n : Fin 8) : State × Bool :=
  match s.memCfg with
  | none => (s, false)
  | some m => match s.regionAt m.recBase with
    | none => (s, false)
    | some a => match s.areaKey a with
      | none => (s, false)
      | some k =>
        let x := m.recBase + s.recd.wptr * c.cell
        let s1 := { s with key := { s.key with flash := s.key.flash.eraseInside a x c.cell } }
        s1.putLines a k (c.cell / 32) x (s.recBytes c n)

/-- REC_WPTR advanced, RECORDS_WRAP after the last cell (R278). -/
def State.wptrNext (s : State) (c : RecCfg) (recNo : Word) : State :=
  if s.recd.wptr + 1 < s.cells c then { s with recd := { s.recd with wptr := s.recd.wptr + 1 } }
  else ({ s with recd := { s.recd with wptr := 0 } }).say .mov 0x3006 recNo (BitVec.ofNat 32 (s.cells c)) 0 0

/-- The drained or lost slot is freed. -/
def State.freeDrained (s : State) (c : RecCfg) (n : Fin 8) : State :=
  let t := s.noHeader c n
  ({ t with recd := { t.recd with order := t.recd.order.drop 1, retried := false,
                                  slot := vput t.recd.slot n RecSlot.reset } }).setReg (R.recSlotRec n.val) 0

/-- The drain of the oldest sealed slot ends: written (took us microseconds), or failed with an xSPI status and retried once in the
next cell (R278, R288), as it does while the boundary register has the pins (22 R601); ue: it met an uncorrectable error at an offset of
the slot (R289). It pauses in a warm start (Table REC-6). -/
def State.drained (sa : State) (us : Word) (fail0 : Option Byte) (ue : Option (BitVec 19)) : State :=
  match sa.recCfg, sa.recd.order with
  | some c, n :: _ =>
    if !sa.mode.coreOn || (sa.mode.starting && !sa.mode.past13) then sa
    else
      let fail := if sa.bscan then some (fail0.getD sa.key.flash.status) else fail0
      let sb := if sa.bscan then sa else sa.recKnow c
      let s := match ue with
        | none => sb
        | some o => sb.recEcc (c.base n + o.toNat % c.slotBytes)
      let no := (s.recd.slot[n]).recNo
      let cell := BitVec.ofNat 32 s.recd.wptr
      let w : State × Bool := match fail with
        | none => s.drainWrite c n
        | some _ => (s, false)
      if w.2 then
        ((w.1.freeDrained c n).evt R.recEvt 2 |>.say .mov 0x3005 no cell us 0).wptrNext c no
      else if s.recd.retried then (w.1.freeDrained c n).recLost n no 4
      else
        let st : Word := match fail with
          | none => 0
          | some b => b.setWidth 32
        (({ w.1 with recd := { w.1.recd with retried := true } }).say .mov 0x3007 no cell st 0).wptrNext c no
  | _, _ => sa

/-- Safe entry (R292): a slot before its trigger is triggered by its last sample (log entry 98); no further slot arms. -/
def State.recSafe (s : State) : State :=
  match s.recCfg, s.recd.active with
  | some c, some n =>
    if (s.recd.slot[n]).st = .capture then s.recTrigger c n 0 (bitAt true 20) true else s
  | _, _ => s

/-- Every sealed or capturing slot lost as the readout window ends (R292). -/
def State.recWindowEnd (s : State) : State :=
  (List.finRange 8).foldl (fun t n =>
    let x := t.recd.slot[n]
    if x.st = .sealed ∨ x.st = .post then (t.putSlot n RecSlot.reset).recLost n x.recNo 3
    else if x.st = .capture then (t.putSlot n RecSlot.reset).recLost n 0 3
    else t) { s with recd := { s.recd with active := none, order := [], retried := false } }

/-- BRM_CTL written (R285). -/
def State.brmCtlWrite (s : State) (v : Word) : State := { s with recd := { s.recd with brmCtl := fld v 0 4 } }

/-- BRM_SWTRIG written (R282). -/
def State.brmSwtrig (s : State) (v : Word) : State := { s with recd := { s.recd with swtrig := s.recd.swtrig ||| fld v 0 8 } }

end Sys2Proof.Machine
end

