-- ==== Sys2Proof/Machine/Keys.lean ====
section
/-! DEFINITION. Mover jobs, key vault, authentication for Service and for the debug port (18, 22 R606). -/

namespace Sys2Proof.Machine

/-- Registers of SEC, the vault and the mover. -/
def R.vaultKey (j : Nat) : Nat := 0x00110100 + 4 * j
def R.vaultKcv : Nat := 0x00110124
def R.movEvt : Nat := 0x00190040
def R.movSrc (c : Nat) : Nat := 0x00190100 + 32 * c
def R.movDst (c : Nat) : Nat := 0x00190104 + 32 * c
def R.movLen (c : Nat) : Nat := 0x00190108 + 32 * c
def R.movCtl (c : Nat) : Nat := 0x0019010C + 32 * c

/-- Provisioning (22 R609). -/
def State.provisioning (s : State) : Bool :=
  s.dbg.lock == 0 && s.mode.mode == .safe && s.mode.safePri == 1 && s.cfg.img.isNone && s.mode.coreOn

/-- Software channels accept GO (18 R535, 22 R611, 04 R108, 05 step 3). -/
def State.movOpen (s : State) : Bool :=
  s.mode.coreOn && !s.mode.pf && s.mode.m9.isNone && (s.mode.past13 || (s.provisioning && s.mode.past7))

/-- Channel c changed. -/
def State.putMov (s : State) (c : Fin 8) (m : MovSt) : State := { s with key := { s.key with mov := vput s.key.mov c m } }

/-- The internal end of a software job lies where Table KEY-4 has it: the vector store, or recorder memory as a source. -/
def internalOk (a : Word) (len : Nat) (src : Bool) : Bool :=
  let x := a.toNat
  decide (x % 32 = 0) &&
    ((decide (0x20000000 ≤ x) && decide (x + len ≤ 0x2007A000)) ||
     (src && decide (0x28000000 ≤ x) && decide (x + len ≤ 0x28080000)))

/-- GO written with OP op, PUSH and RING (R526). The external end of an ERASE is MOV_DST (log entry 33). -/
def State.movGo (s : State) (c : Fin 8) (op : BitVec 2) (push : Bool) (ring : Fin 64) : State :=
  let m := s.key.mov[c]
  if c.val < 3 then if s.mode.coreOn then s.putMov c { m with result := 5 } else s
  else
    let s1 := s.setReg (R.movCtl c.val) (at_ op.toNat 1 ||| bitAt push 3 ||| at_ ring.val 8)
    let src := s.reg (R.movSrc c.val)
    let dst := s.reg (R.movDst c.val)
    let len := fldN (s.reg (R.movLen c.val)) 0 25
    let ok :=
      !m.busy && decide (len ≤ 16777216) &&
      (if op = 1 then decide (len % 32 = 0 ∧ src.toNat % 32 = 0) && internalOk dst len false
       else if op = 2 then decide (len % 32 = 0 ∧ dst.toNat % 32 = 0) && internalOk src len true
       else decide (op = 3 ∧ len % 32768 = 0 ∧ dst.toNat % 32768 = 0))
    if !s.movOpen then s1
    else if ok then s1.putMov c { MovSt.reset with busy := true, op := op, src := src, dst := dst, len := len, push := push, ring := ring }
    else s1.putMov c { m with result := 5 }

/-- What the IEU makes of a transfer (R517, R89): the area and its key, or the reason of its refusal. -/
inductive Resolve where
  | ok (a : Area) (key : List Byte)
  | refused (reason : Nat)
  deriving DecidableEq, Repr

/-- Base of a slot of region 0 (03 Table IMG-2): A false, B true. -/
def slotBase (slot : Bool) : Nat := if slot then 0x800000 else 0

/-- The slot that is not loaded: A when none is (22 R610). -/
def State.inactive (s : State) : Bool :=
  match s.cfg.img with
  | none => false
  | some i => !i.slot

/-- The transfer of len bytes at a mover address is resolved (R517). -/
def State.resolve (s : State) (ext : Word) (len : Nat) (store : Bool) : Resolve :=
  let k := fldN ext 28 3
  let x := fldN ext 0 28
  let fits (a : Area) : Bool := a.has x && (if k = 0 then decide (a.code < 4) else decide (8 ≤ a.code ∧ a.kid = k))
  match (if bit ext 31 then s.areas.find? fits else none) with
  | none => .refused (if s.areas.any (fun a => a.inTags x) then 6 else 1)
  | some a =>
    if a.limit + 1 < x + len then .refused 2
    else match s.areaKey a with
      | none => .refused 3
      | some key =>
        let b := slotBase s.inactive
        if store ∧ a.code = 0 ∧ ¬(s.cfg.stage = .opened ∧ b ≤ x ∧ x + len ≤ b + 0x800000) then .refused 4 else .ok a key

/-- A refused transfer (R517). -/
def State.refuseAccess (s : State) (ext : Word) (reason chan : Nat) : State :=
  s.alarm ext chan 0x6002 ext (BitVec.ofNat 32 reason) (BitVec.ofNat 32 chan) 0

/-- Bytes at an internal source. -/
def State.internalRead (s : State) (a : Word) (n : Nat) : List Byte :=
  if a.toNat < 0x28000000 then mread 0 s.mem.vs (a.toNat - 0x20000000) n else mread 0 s.recd.mem (a.toNat - 0x28000000) n

/-- A job's progress: state, bytes done, RESULT (0: goes on), ERASED. -/
structure JobRun where
  s : State
  done : Nat
  result : BitVec 3
  erased : Bool

/-- One line of a READ job (R519, R524). -/
def JobRun.readLine (j : JobRun) (c : Nat) (a : Area) (key : List Byte) (x dst : Nat) : JobRun :=
  let put (l : List Byte) : State := { j.s with mem := { j.s.mem with vs := mwrite 0 j.s.mem.vs dst l } }
  match j.s.key.flash.readLine a key x with
  | .unwritten => { j with s := put (List.replicate 32 0xFF), done := j.done + 32, erased := true }
  | .good d => { j with s := put d, done := j.done + 32 }
  | .bad =>
    if j.s.haltOnFail a then { j with s := (j.s.lineFail a x c true).latchOpen 2, result := 3 }
    else { j with s := j.s.lineFail a x c false, result := 3 }

/-- n lines of a READ job. -/
def JobRun.reads (c : Nat) (a : Area) (key : List Byte) : Nat → Nat → Nat → JobRun → JobRun
  | 0, _, _, j => j
  | n + 1, x, dst, j =>
    let k := j.readLine c a key x dst
    if k.result = 0 then JobRun.reads c a key n (x + 32) (dst + 32) k else k

/-- n lines of a WRITE job (R522). -/
def JobRun.writes (c : Nat) (a : Area) (key : List Byte) (ext : Word) : Nat → Nat → Word → JobRun → JobRun
  | 0, _, _, j => j
  | n + 1, x, src, j =>
    match j.s.putLine a key x (j.s.internalRead src 32) with
    | (.ok, s1) => JobRun.writes c a key ext n (x + 32) (src + 32) { j with s := s1, done := j.done + 32 }
    | (.progFail, s1) => { j with s := s1, result := 4 }
    | (.exhausted, s1) => { j with s := s1.refuseAccess ext 5 c, result := 3 }

/-- The first n bytes of a job carried out. -/
def State.jobRun (s : State) (c : Fin 8) (m : MovSt) (n : Nat) : JobRun :=
  let ext := if m.op = 1 then m.src else m.dst
  let x := fldN ext 0 28
  match s.resolve ext m.len (m.op != 1) with
  | .refused r => { s := s.refuseAccess ext r c.val, done := 0, result := 3, erased := false }
  | .ok a key =>
    let j : JobRun := { s := s, done := 0, result := 0, erased := false }
    if m.op = 1 then JobRun.reads c.val a key (n / 32) x (m.dst.toNat - 0x20000000) j
    else if m.op = 2 then JobRun.writes c.val a key ext (n / 32) x m.src j
    else
      let f := s.key.flash.eraseUnits a x (n / 32768)
      { j with s := { s with key := { s.key with flash := f } }, done := n / 32768 * 32768 }

/-- MOV_STAT of a channel. -/
def MovSt.stat (m : MovSt) : Word :=
  bitAt m.busy 0 ||| at_ m.result.toNat 1 ||| bitAt m.erased 4 ||| bitAt m.abortLate 5

/-- A running job writes or erases region 0 (03 R93). -/
def State.slotJob (s : State) : Bool :=
  (List.finRange 8).any (fun c =>
    let m := s.key.mov[c]
    m.busy && m.op != 1 && decide (fldN m.dst 0 28 ≤ 0xFFFFFF))

/-- CLOSE takes effect: STATE becomes CLOSED; a check is abandoned with RESULT 0xFF (03 R93). -/
def State.stageShut (s : State) : State :=
  { s with cfg := { s.cfg with stage := .closed, closing := false,
                               result := if s.cfg.stage = .checking then 0xFF else s.cfg.result } }

/-- A job ends with its result: registers, JOB_ERR (Table KEY-10), event, ring item (R526). -/
def State.jobEnd (s : State) (c : Fin 8) (m : MovSt) : State :=
  let s0 := s.putMov c { m with busy := false, abort := false }
  let s1 := if s0.cfg.closing && !s0.slotJob then s0.stageShut else s0
  let s2 :=
    if m.result = 4 ∨ m.result = 6 then
      s1.say .mov 0x9101 (BitVec.ofNat 32 c.val) (m.result.setWidth 32) (s1.key.flash.status.setWidth 32) (BitVec.ofNat 32 m.done)
    else s1
  let s3 := s2.evt R.movEvt c.val
  if m.push then (s3.ringItemPush m.ring 1 [at_ c.val 16 ||| 2, ({ m with busy := false } : MovSt).stat]).2 else s3

/-- MOVER_JOB_END: the running job of channel c ends as res says. An end after n bytes needs an abort and counts whole
lines or units; no xSPI transaction completes while the boundary register has the pins. -/
def State.moverJobEnd (s : State) (c : Fin 8) (res : MovEnd) : State :=
  let m := s.key.mov[c]
  if !m.busy || !s.mode.coreOn then s
  else
    let fin_ (j : JobRun) (result : BitVec 3) (late : Bool) : State :=
      j.s.jobEnd c { m with done := j.done, erased := j.erased, result := if j.result = 0 then result else j.result,
                             abortLate := late && j.result = 0 }
    match res with
    | .whole => if s.bscan then s else fin_ (s.jobRun c m m.len) 1 m.abort
    | .atLine n => if s.bscan || !m.abort || decide (m.len ≤ n) then s else fin_ (s.jobRun c m n) 2 false
    | .xspiErr n st =>
      let s1 := { s with key := { s.key with flash := { s.key.flash with status := st } } }
      fin_ (s1.jobRun c m (if s.bscan then 0 else min n m.len)) 6 false

/-- MOV_ABORT written (R527). -/
def State.movAbort (s : State) (c : Fin 8) (v : Word) : State :=
  let m := s.key.mov[c]
  if fld v 16 16 = 0x3D9A ∧ m.busy ∧ 3 ≤ c.val then s.putMov c { m with abort := true } else s

/-- Every running software job ends ABORTED (18 R528, 22 R611). -/
def State.abandonJobs (s : State) : State :=
  (List.finRange 8).foldl (fun (t : State) (c : Fin 8) =>
    let m := t.key.mov[c]
    if m.busy then t.jobEnd c { m with result := 2 } else t) s

/-- Every running software job completes (04 R114, R122). -/
def State.finishJobs (s : State) : State :=
  (List.finRange 8).foldl (fun (t : State) (c : Fin 8) => if (t.key.mov[c]).busy then t.moverJobEnd c .whole else t) s

/-! Vault. -/

/-- The key bytes in VAULT_KEY0 to VAULT_KEY7. -/
def State.vaultKeyIn (s : State) : List Byte := (List.range 8).flatMap (fun j => bytesLE (s.reg (R.vaultKey j)))

/-- VAULT_KEY0 to VAULT_KEY7 cleared after a command (R530). -/
def State.clearVaultKey (s : State) : State := (List.range 8).foldl (fun t j => t.setReg (R.vaultKey j) 0) s

/-- Check value of 32 key bytes (R530). -/
def kcv (key : List Byte) : Word := wordLE (sha256 key)

/-- A vault command may act: Service, or the debug port in provisioning (R530, 22 R609). -/
def State.vaultOpen (s : State) (m : Master) : Bool :=
  s.mode.mode == .service || (m == .debug && s.provisioning)

/-- The entry of a command. -/
def State.sayVault (s : State) (slot : Fin 16) (op res : Nat) (role : BitVec 4) : State :=
  s.say .sec 0x6004 (BitVec.ofNat 32 slot.val) (BitVec.ofNat 32 op) (BitVec.ofNat 32 res) (role.setWidth 32)

/-- A refused command. -/
def State.vaultRefuse (s : State) (slot : Fin 16) (op res : Nat) (role : BitVec 4) : State :=
  ({ s with key := { s.key with vres := BitVec.ofNat 3 res } }).clearVaultKey.sayVault slot op res role

/-- ROLE may be staged in a spare: an ACTIVE slot that the other spare does not name (R530). -/
def State.roleOk (s : State) (slot : Fin 16) (role : BitVec 4) : Bool :=
  slot.val < 14 ||
    (decide (role.toNat < 14) && (s.key.vault[fin 15 role.toNat]).state == .active &&
      (if slot.val = 14 then (s.key.vault[15]).role else (s.key.vault[14]).role) != role)

/-- VAULT_CMD STAGE (R530). A command while another programs has no effect (log entry 35). -/
def State.vaultStage (s : State) (m : Master) (key : Half) (slot : Fin 16) (role : BitVec 4) : State :=
  if s.key.vop.isSome || !s.mode.coreOn then s
  else if !s.vaultOpen m || key != 0x7A11 then s.vaultRefuse slot 1 2 role
  else if (s.key.vault[slot]).state ≠ .empty then s.vaultRefuse slot 1 3 role
  else if kcv s.vaultKeyIn ≠ s.reg R.vaultKcv then s.vaultRefuse slot 1 4 role
  else if !s.roleOk slot role then s.vaultRefuse slot 1 5 role
  else
    let op : VaultOp := { slot := slot, revoke := false, role := if slot.val < 14 then 0xF else role, key := s.vaultKeyIn }
    ({ s with key := { s.key with vop := some op } }).clearVaultKey

/-- VAULT_CMD REVOKE (R530). -/
def State.vaultRevoke (s : State) (m : Master) (key : Half) (slot : Fin 16) : State :=
  let v := s.key.vault[slot]
  if s.key.vop.isSome || !s.mode.coreOn then s
  else if !s.vaultOpen m || key != 0x7A11 then s.vaultRefuse slot 2 2 0
  else if v.state ≠ .staged ∧ v.state ≠ .active then s.vaultRefuse slot 2 3 0
  else
    let op : VaultOp := { slot := slot, revoke := true, role := 0, key := [] }
    ({ s with key := { s.key with vop := some op } }).clearVaultKey

/-- Slot n changed. -/
def State.putSlotV (s : State) (n : Fin 16) (v : VaultSlot) : State := { s with key := { s.key with vault := vput s.key.vault n v } }

/-- Programming ends (R530). -/
def State.vaultDone (s : State) (ok : Bool) : State :=
  match s.key.vop with
  | none => s
  | some o =>
    if !s.mode.coreOn then s
    else
      let s1 := { s with key := { s.key with vop := none, vres := if ok then 1 else 6 } }
      let s2 :=
        if !ok then s1
        else if o.revoke then s1.putSlotV o.slot { s1.key.vault[o.slot] with state := .revoked }
        else s1.putSlotV o.slot { state := .staged, key := o.key, role := o.role }
      (s2.evt R.secEvt 2).sayVault o.slot (if o.revoke then 2 else 1) (if ok then 1 else 6) o.role

/-- Bits of the slots in a state. -/
def State.slotMask (s : State) (st : SlotState) : Word :=
  boolBits 32 ((List.finRange 16).map (fun n => (s.key.vault[n]).state == st))

/-- Every slot still STAGED or ACTIVE becomes REVOKED (22 R613). -/
def State.revokeAll (s : State) : State :=
  { s with key := { s.key with vault := s.key.vault.map (fun (v : VaultSlot) =>
      if v.state = .staged ∨ v.state = .active then { v with state := .revoked } else v) } }

/-- Step 7: slots failing their word check are REVOKED (Table KEY-10), a programming left unfinished among them. -/
def State.vaultCheck (s : State) (bad : BitVec 16) : State :=
  let b := match s.key.vop with
    | none => bad
    | some o => setBit bad o.slot.val true
  let s1 := { s with key := { s.key with vop := none } }
  (List.finRange 16).foldl (fun (t : State) (n : Fin 16) =>
    if b.getLsbD n.val && (t.key.vault[n]).state != .revoked then
      (t.putSlotV n { t.key.vault[n] with state := .revoked }).sayVault n 0 6 (t.key.vault[n]).role
    else t) s1

/-- Step 7: STAGED slots become ACTIVE; the slot a new spare names becomes REVOKED (Table KEY-6). -/
def State.vaultActivate (s : State) : State :=
  (List.finRange 16).foldl (fun (t : State) (n : Fin 16) =>
    let v := t.key.vault[n]
    if v.state = .staged then
      let t1 := t.putSlotV n { v with state := .active }
      if 14 ≤ n.val ∧ v.role.toNat < 14 then
        let r := fin 15 v.role.toNat
        if (t1.key.vault[r]).state = .active then t1.putSlotV r { t1.key.vault[r] with state := .revoked } else t1
      else t1
    else t) s

/-- Step 7 (R531, R535): transitions, checks, keys loaded, seal key, KEYS_LOADED. Write counters follow. -/
def State.keyStep (s : State) (bad : BitVec 16) : State :=
  let s0 := if s.dbg.lock = 3 then s.revokeAll else s
  let s1 := (s0.vaultCheck bad).vaultActivate
  let s2 := { s1 with key := { s1.key with loaded := Vector.ofFn (fun i => s1.slotKey i.val), rebuilt := false } }
  s2.loadSealKey

/-- IEU_STAT. -/
def State.ieuStat (s : State) : Word :=
  boolBits 32 ((List.finRange 11).map (fun i => (s.key.loaded[i]).isSome)) ||| bitAt s.key.rebuilt 16

/-- The largest counter word of an area other than all ones, n lines from line j (R521). -/
def FlashSt.topCtr (f : FlashSt) (a : Area) (j : Nat) : Nat → Nat
  | 0 => 0
  | n + 1 =>
    let c := natLE (f.rds (a.ctr + 4 * j) 4)
    max (if c = 0xFFFFFFFF then 0 else c) (FlashSt.topCtr f a (j + 1) n)

/-- Step 7: the write counters (R521; a sum above 32 bits saturates, log entry 108); copies: the retained copies that fail. -/
def State.wcStep (s0 : State) (bad : BitVec 2) : State :=
  let copies := if s0.key.wcKept then bad else 3
  let s := { s0 with key := { s0.key with wcKept := true } }
  if copies = 3 then
    s.areas.foldl (fun (t : State) (a : Area) =>
      let c := BitVec.ofNat 32 (min 0xFFFFFFFF (t.key.flash.topCtr a 0 ((a.limit + 1 - a.base) / 32) + 2 ^ 20))
      ({ t with key := { t.key with wc := vput t.key.wc a.wcIdx c, rebuilt := true } }).say .sec 0x6006
        (BitVec.ofNat 32 a.code) c 0 0) s
  else if copies ≠ 0 then s.say .sec 0x6007 (if copies.getLsbD 0 then 0 else 1) 0 0 0
  else s

/-! Authentication (R532, 22 R606). -/

/-- Result of a token's verification: 1 OK, 2 key hash, 3 signature. -/
def State.tokenCheck (s : State) (tag : List Byte) (slot : Nat) (chal token : List Word) : Nat :=
  let be (i : Nat) : List Byte := ((token.drop i).take 8).flatMap bytesBE
  let msg := tag ++ toLE 5 s.uid39 ++ chal.flatMap bytesLE ++ bytesLE (token.getD 32 0)
  if s.slotKey slot ≠ some (sha256 (0x04#8 :: be 0 ++ be 8)) then 2
  else if ecdsaVerify (natBE (be 0)) (natBE (be 8)) (natBE (be 16)) (natBE (be 24)) msg then 1 else 3

/-- Bytes of "ASVC" and "ADBG". -/
def tagSvc : List Byte := [0x41, 0x53, 0x56, 0x43]
def tagDbg : List Byte := [0x41, 0x44, 0x42, 0x47]

/-- DURATION lies in 1 to 28,800. -/
def durOk (d : Word) : Bool := decide (1 ≤ d.toNat) && decide (d.toNat ≤ 28800)

/-- DT at the end of a lock that a failure begins now. -/
def State.lockEnd (s : State) : DWord := s.time.dt + 100000000

/-- The Service verification or GO ends with a result; a verification that fails locks the unit for 1 s (log entry 102). -/
def State.secResult (s : State) (r : BitVec 3) : State :=
  let bad := r == 2 || r == 3
  let s1 := { s with key := { s.key with authRes := r, authBusy := false, authLock := s.key.authLock || bad,
                                         lockEnd := if bad then s.lockEnd else s.key.lockEnd } }
  (s1.evt R.secEvt 1).say .sec 0x6005 (r.setWidth 32) (s.key.token.getD 32 0) (s.key.chal.getD 0 0) 0

/-- SEC_AUTH_CTL.GO (R532). -/
def State.secGo (s : State) : State :=
  if !s.mode.coreOn || s.key.authBusy then s
  else if s.key.authLock then { s with key := { s.key with authRes := 5 } }
  else
    let s1 := { s with key := { s.key with fresh := false } }
    if !s.key.fresh then s1.secResult 4
    else if !durOk (s.key.token.getD 32 0) then s1.secResult 6
    else { s1 with key := { s1.key with authBusy := true } }

/-- The Service verification ends (R532). -/
def State.secVerify (s : State) : State :=
  if !s.key.authBusy then s
  else
    let r := s.tokenCheck tagSvc 11 s.key.chal s.key.token
    let d := (s.key.token.getD 32 0).toNat
    let s1 :=
      if r = 1 then { s with key := { s.key with authValid := true, authEnd := s.time.dt + BitVec.ofNat 64 (d * 100000000) } }
      else s
    s1.secResult (BitVec.ofNat 3 r)

/-- AUTH_VALID ends with no M7 within DURATION (R532). -/
def State.secExpiry (s : State) : State :=
  if s.key.authValid ∧ s.mode.mode ≠ .service ∧ s.key.authEnd ≤ s.time.dt then { s with key := { s.key with authValid := false } } else s

/-- DBG_EVT bit and result of a failed unlock (22 R606). -/
def State.dbgResult (s : State) (r : BitVec 3) : State :=
  let bad := r == 2 || r == 3
  let s1 := { s with dbg := { s.dbg with authRes := r, authBusy := false, authLock := s.dbg.authLock || bad,
                                         lockEnd := if bad then s.lockEnd else s.dbg.lockEnd } }
  if r = 1 then s1
  else (s1.evt R.dbgEvt 1).sayRate 100000000 0 .sec 0x6013 (r.setWidth 32) (s.dbg.chal.getD 0 0) 0 0

/-- DBG_AUTH_CTL.GO (22 R606). -/
def State.dbgGo (s : State) : State :=
  if !s.mode.coreOn || s.dbg.authBusy then s
  else if s.dbg.authLock then { s with dbg := { s.dbg with authRes := 5 } }
  else
    let s1 := { s with dbg := { s.dbg with fresh := false } }
    if !s.dbg.fresh then s1.dbgResult 4
    else if !durOk (s.dbg.token.getD 32 0) then s1.dbgResult 6
    else { s1 with dbg := { s1.dbg with authBusy := true } }

/-- The unlock verification ends (22 R606). -/
def State.dbgVerify (s : State) : State :=
  if !s.dbg.authBusy then s
  else
    let r := s.tokenCheck tagDbg 13 s.dbg.chal s.dbg.token
    let d := s.dbg.token.getD 32 0
    let s1 := s.dbgResult (BitVec.ofNat 3 r)
    if r = 1 then
      (({ s1 with dbg := { s1.dbg with unlocked := true, unlockEnd := s.time.dt + BitVec.ofNat 64 (d.toNat * 100000000) } }).evt
        R.dbgEvt 0).say .sec 0x6011 d (s.dbg.chal.getD 0 0) 0 0
    else s1

end Sys2Proof.Machine
end

