-- ==== Sys2Proof/Machine/Usage.lean ====
section
/-! DEFINITION. Hour meters, hire permit, IMMOB, theft inputs and the VBAT cut (17 R488 to R506). -/

namespace Sys2Proof.Machine

def R.hmtPreset : Nat := 0x000F8020
def R.hmtEvt : Nat := 0x000F8050

/-- UEVT bit i set, and IP15 (R512). -/
def State.setUevt (s : State) (i : Nat) : State :=
  ({ s with use := { s.use with uevt := s.use.uevt ||| ((1 : BitVec 6) <<< i) } }).setIp 15

/-- DENIED on the writing side (R490, R503). -/
def State.useDenied (s : State) (core : Bool) : State := if core then s.evt R.hmtEvt 4 else s.setUevt 5

/-- Meter m changed. -/
def State.putMeter (s : State) (m : Fin 4) (x : MeterSt) : State := { s with use := { s.use with meter := vput s.use.meter m x } }

/-- The part is in Ready, Protect or Service as SYS_MODE shows it. -/
def State.modeRps (s : State) : Bool :=
  s.mode.mode == .ready || s.mode.mode == .protect || s.mode.mode == .service

/-- The gate of meter m is active (Table USE-1; SEL 2: the 32,768 qualifying ticks are not counted). -/
def State.gate (s : State) (m : Fin 4) : Bool :=
  let x := s.use.meter[m]
  if x.sel = 1 then s.wnt.wake.getLsbD x.pin.toNat != x.inv
  else if x.sel = 2 then s.modeRps && decide (32768 < x.qual)
  else if x.sel = 3 then s.mode.mode == .protect
  else if x.sel = 4 then s.use.hmctl.getLsbD m.val
  else false

/-- The four gates. -/
def State.gates (s : State) : BitVec 4 := boolBits _ ((List.finRange 4).map s.gate)

/-- A meter counts one second (R488). -/
def MeterSt.second (x : MeterSt) : MeterSt := { x with ticks := 0, sec := satInc x.sec }

/-- One RTC tick of meter m: SIG is sampled, and the tick counts while the gate is active (R488, R489). -/
def State.meterTick (s : State) (m : Fin 4) : State :=
  let x := s.use.meter[m]
  let on := s.modeRps && s.running && s.sig x.sig
  let s1 := s.putMeter m { x with qual := if x.sel = 2 ∧ on then min (x.qual + 1) 32769 else 0 }
  let y := s1.use.meter[m]
  if s1.gate m then s1.putMeter m (if y.ticks = BitVec.allOnes 15 then y.second else { y with ticks := y.ticks + 1 })
  else s1

/-- All four meters at an RTC tick. -/
def State.meterTicks (s : State) : State := (List.finRange 4).foldl State.meterTick s

/-- HMT_CFG word of a meter. -/
def MeterSt.cfg (x : MeterSt) : Word :=
  x.sel.setWidth 32 ||| (x.pin.setWidth 32 <<< 4) ||| bitAt x.inv 6 ||| (x.sig.setWidth 32 <<< 16)

/-- A write of a meter's gate configuration (R490). -/
def State.hmCfg (s : State) (m : Fin 4) (core : Bool) (sel : BitVec 3) (pin : BitVec 2) (inv : Bool) (sig : BitVec 10) :
    State :=
  if (if core then s.mode.mode == .service else s.wnt.auth) then
    let x := s.use.meter[m]
    let y := { x with sel := sel, pin := pin, inv := inv, sig := sig,
                      qual := if sel = x.sel ∧ sig = x.sig then x.qual else 0 }
    (s.putMeter m y).sayWnt 0x7147 (BitVec.ofNat 32 m.val) x.cfg y.cfg 0
  else s.useDenied core

/-- A preset request (R490). -/
def State.presetReq (s : State) (m : Fin 4) (v : Word) (core : Bool) : State :=
  if (if core then s.mode.mode == .service else s.wnt.auth) then
    { s with use := { s.use with presets := s.use.presets ++ [{ meter := m, value := v, core := core }] } }
  else s.useDenied core

/-- HMT_PRESET_GO written (R490, HMT_PRESET_GO). -/
def State.presetGo (s : State) (v : Word) : State :=
  if fld v 16 16 = 0x4D48 then s.presetReq (fin 3 (fldN v 0 2)) (s.reg R.hmtPreset) true else s.useDenied true

/-- The oldest preset applies at the RTC tick (R490). -/
def State.presetApply (s : State) : State :=
  match s.use.presets with
  | [] => s
  | p :: t =>
    let s1 := { s with use := { s.use with presets := t } }
    let x := s.use.meter[p.meter]
    if x.sec < p.value then
      let s2 := s1.putMeter p.meter { x with sec := p.value, ticks := 0 }
      ({ s2 with use := { s2.use with lost := false } }).sayWnt 0x7146 (BitVec.ofNat 32 p.meter.val) x.sec p.value 0
    else s1.useDenied p.core

/-! IMMOB, theft, hire. -/

/-- THEFT_CFG of input i. -/
def State.thCfg (s : State) (i : Nat) : Byte := s.iob (0xF448 + i)

/-- IMMOB as its inputs set it (R501). -/
def State.immobLevel (s : State) : Bool :=
  s.use.immobCtl.getLsbD 0 || (s.use.immobCtl.getLsbD 1 && !s.use.permit) ||
  (s.use.immobCtl.getLsbD 2 && (List.range 8).any (fun i => s.use.thStat.getLsbD i && (s.thCfg i).getLsbD 2))

/-- IMMOB follows a change (R501). -/
def State.immobEval (s : State) : State :=
  let l := s.immobLevel
  if l = s.use.immob then s
  else
    (((({ s with use := { s.use with immob := l } }).sayTick 0 0x7145 (if l then 1 else 0)
      (s.use.immobCtl.setWidth 32) 0 0).evt R.hmtEvt 3).setUevt 4)

/-- The event of theft input i fires (R504). -/
def State.theftFires (s : State) (i : Fin 8) : Bool :=
  (s.thCfg i.val).getLsbD 0 && !((s.thCfg i.val).getLsbD 1 && s.use.permit)

/-- The event of theft input i (R504). -/
def State.theft (s : State) (i : Fin 8) : State :=
  if !s.theftFires i then s
  else
    let cnt := satInc s.use.thCnt[i]
    let new := !s.use.thStat.getLsbD i.val
    let st := s.use.thStat ||| ((1 : Byte) <<< i.val)
    let s1 := ({ s with use := { s.use with thStat := st, thCnt := vput s.use.thCnt i cnt } }).setUevt 0 |>.evt R.hmtEvt 1
    (if new then s1.sayWnt 0x7142 (BitVec.ofNat 32 i.val) (st.setWidth 32) (if s.use.permit then 1 else 0)
        (cnt.setWidth 32) else s1).immobEval

/-- The inputs 0, 1 and 5 that take their event from WAKE pin n (Table USE-2). -/
def State.theftWake (s : State) (n : Fin 4) : State :=
  [0, 1, 5].foldl (fun (t : State) (i : Fin 8) =>
    if fldN ((t.thCfg i.val).setWidth 32) 4 2 = n.val then t.theft i else t) s

/-- WAKE: the debounced level of a pin changes (R461). -/
def State.wakeEdge (s : State) (n : Fin 4) (level : Bool) : State :=
  if s.wnt.wake.getLsbD n.val = level then s
  else
    let s1 := { s with wnt := { s.wnt with wake := setBit s.wnt.wake n.val level } }
    let c := s.iob (0xF030 + 4 * n.val)
    if edgeOn (fldN (c.setWidth 32) 0 2) level then
      let cnt := satInc (s.iob (0xF032 + 4 * n.val))
      let s2 := s1.putIob (0xF032 + 4 * n.val) cnt
      let s3 := if c.getLsbD 2 then s2.setIp 2 else s2
      let recent := s.wnt.wakeSaid[n].filter (fun r => decide ((s.time.rtct - r).toNat < 32768))
      let s4 := if recent.length < 8 then
          ({ s3 with wnt := { s3.wnt with wakeSaid := vput s3.wnt.wakeSaid n (s.time.rtct :: recent) } }).sayWnt 0x7101
            (BitVec.ofNat 32 n.val) (if level then 1 else 2) (((c >>> 2) &&& 3).setWidth 32) (cnt.setWidth 32)
        else s3
      let s5 := if c.getLsbD 3 then s4.coreWake n.val else s4
      s5.theftWake n
    else s1

/-- A tamper check with its theft input (R462, R504). -/
def State.tamper (s : State) (x : Fin 2) (kind : BitVec 2) : State :=
  let r := s.tamperCheck x kind
  if r.2 then r.1.theft (fin 7 (2 + x.val)) else r.1

/-- An evaluation of the permit becomes due; a reason already due stays (R499, log entry 27). -/
def State.hireDue (s : State) (r : Option (BitVec 3)) : State :=
  { s with use := { s.use with due := match s.use.due, r with
      | some (some x), _ => some (some x)
      | _, r => some r } }

/-- The permit as its controls and UTC set it (R499). -/
def State.permitNow (s : State) : Bool :=
  s.use.en && !s.use.hold && decide ((s.use.start.toNat : Int) ≤ s.utc) && decide (s.utc < (s.use.till.toNat : Int))

/-- The permit is evaluated (R499; HIRE of Table USE-4). -/
def State.hireEval (s : State) : State :=
  let new := s.permitNow
  let why := s.use.due.bind id
  let changed := new != s.use.permit
  let s1 := { s with use := { s.use with due := none, permit := new } }
  let s2 := if why.isSome || changed then
      s1.sayTick 0 0x7144 (if new then 1 else 0) ((why.getD (if new then 0 else 1)).setWidth 32)
        (BitVec.ofNat 32 s.use.start.toNat) (BitVec.ofNat 32 s.use.till.toNat)
    else s1
  if changed then ((s2.evt R.hmtEvt 0).setUevt 3).immobEval else s2

/-- HMT_WITHDRAW written (R500). -/
def State.withdraw (s : State) (v : Word) : State :=
  if fld v 16 16 = 0x0FF5 ∧ bit v 0 ∧ !s.use.hold then
    ({ s with use := { s.use with hold := true } }).hireDue (some 3)
  else s

/-- A write moves only in free directions: bits that may rise and bits that may fall (R503). -/
def freeMove (old new up down : Byte) : Bool := (new &&& ~~~old &&& ~~~up) == 0 && (old &&& ~~~new &&& ~~~down) == 0

/-- HIRE_CTL written by the sentinel (R499, R503). -/
def State.hireCtl (s : State) (v : Byte) : State :=
  let old : Byte := (if s.use.en then 1 else 0) ||| (if s.use.hold then 2 else 0)
  if (freeMove old (v &&& 3) 2 1 && !v.getLsbD 7) || s.wnt.auth then
    let en := v.getLsbD 0
    let hold := v.getLsbD 1
    let ap := v.getLsbD 7
    let why : Option (BitVec 3) :=
      if s.use.en ∧ !en then some 4 else if hold ∧ !s.use.hold then some 2 else if en ∧ !s.use.en then some 7
      else if s.use.hold ∧ !hold then some 6 else if ap then some 5 else none
    ({ s with use := { s.use with
        en := en, hold := hold,
        start := if ap then BitVec.ofNat 48 (s.ioNat 0xF430 6) else s.use.start,
        till := if ap then BitVec.ofNat 48 (s.ioNat 0xF436 6) else s.use.till } }).hireDue why
  else s.setUevt 5

/-- IMMOB_CTL written (R501, R503). -/
def State.immobWrite (s : State) (v : Byte) : State :=
  if freeMove (s.use.immobCtl.setWidth 8) (v &&& 7) 7 0 || s.wnt.auth then
    ({ s with use := { s.use with immobCtl := v.setWidth 3 } }).immobEval
  else s.setUevt 5

/-- THEFT_CFG written (R503, Table USE-7). -/
def State.theftCfg (s : State) (i : Nat) (v : Byte) : State :=
  let old := s.thCfg i
  let new := v &&& 0x37
  if (freeMove (old &&& 7) (new &&& 7) 5 2 && ((old ^^^ new) &&& 0x30 == 0 || !old.getLsbD 0)) || s.wnt.auth then
    (s.putIob (0xF448 + i) new).immobEval
  else s.setUevt 5

/-- THEFT_STAT written: W1C with AUTH (R506). -/
def State.theftClear (s : State) (v : Byte) : State :=
  let m := v &&& s.use.thStat
  if m = 0 then s
  else if s.wnt.auth then
    let cnt := Vector.ofFn (fun (i : Fin 8) => if m.getLsbD i.val then (0 : Byte) else s.use.thCnt[i])
    (({ s with use := { s.use with thStat := s.use.thStat &&& ~~~m, thCnt := cnt } }).sayWnt 0x7143 (m.setWidth 32)
      0 0 0).immobEval
  else s.setUevt 5

/-- THEFT_SET written: inputs 6 and 7 (R504). -/
def State.theftSet (s : State) (v : Byte) : State :=
  let s1 := if v.getLsbD 6 then s.theft 6 else s
  if v.getLsbD 7 then s1.theft 7 else s1

/-- VBAT falls below 3.3 V (R505). VBAT_CUT is delivered before THEFT, by its code (16 R481). -/
def State.vbatCut (s : State) : State :=
  if s.use.cut then s
  else
    let th : Byte := if s.theftFires 4 then s.use.thStat ||| 0x10 else s.use.thStat
    let s1 := ({ s with use := { s.use with cut := true, cutAt := s.time.rtct }, pwr := { s.pwr with vbatValid := false } }).sayWnt
      0x7140 (BitVec.ofNat 32 s.mode.mode.code) (if s.use.permit then 1 else 0) (th.setWidth 32) s.use.meter[0].sec
    ((s1.theft 4).setUevt 1).evt R.hmtEvt 2

/-- VBAT has been at or above 3.8 V for 164 RTC ticks (R505). -/
def State.vbatRestore (s : State) : State :=
  if !s.use.cut then s
  else
    (({ s with use := { s.use with cut := false } }).sayWnt 0x7141
      (BitVec.ofNat 32 ((s.time.rtct - s.use.cutAt).toNat / 32768)) 0 0 0).setUevt 2

/-- The Winter status word (16 Table SNT-4). -/
def State.winterStatus (s : State) : Word :=
  bitAt s.use.permit 0 ||| bitAt s.use.immob 1 ||| bitAt (s.wnt.st == .awake) 2 ||| bitAt (s.wnt.st == .halted) 3 |||
  (s.wnt.wake.setWidth 32 <<< 4) ||| bitAt s.wnt.loops[0].broken 8 ||| bitAt s.wnt.loops[1].broken 9 |||
  bitAt s.time.coarse 10 ||| bitAt s.wnt.uart[0].core 12 ||| bitAt s.wnt.uart[1].core 13 |||
  (s.wgpio.setWidth 32 <<< 16) ||| (s.gates.setWidth 32 <<< 20) ||| ((s.iob 0xF180).setWidth 32 <<< 24)

end Sys2Proof.Machine
end

