-- ==== Sys2Proof/Machine/Umu.lean ====
section
/-! DEFINITION. The UMU: energy, tariffs, demand, billing, schedule, sorter, checkpoints (17 R491 to R498, R510). -/

namespace Sys2Proof.Machine

def R.umuSel : Nat := 0x000F0030
def R.umuEvt : Nat := 0x000F0040

/-- The UMU section of the loaded image. -/
def State.umuCfg (s : State) : Option UmuCfg := s.cfg.img.bind Image.umu

/-- An UMU entry stamped as its input. -/
def State.sayUmu (s : State) (code : Half) (stamp : DWord) (p0 p1 p2 p3 : Word) : State :=
  s.offer { s.entry .umu code p0 p1 p2 p3 with stamp := stamp }

/-- Saturating addition of signed 64-bit values. -/
def satAdd64 (a : DWord) (b : Int) : DWord :=
  BitVec.ofInt 64 (max (-(2 ^ 63)) (min (2 ^ 63 - 1) (a.toInt + b)))

/-- Schedule word i. -/
def schedWord (l : Schedule) (i : Nat) : Word := l.getD i 0

/-- A holiday word is a valid date (R495). -/
def dateOk (w : Word) : Bool :=
  let y := fldN w 16 16
  let m := fldN w 8 8
  let d := fldN w 0 8
  decide (1 ≤ y) && decide (1 ≤ m) && decide (m ≤ 12) && decide (1 ≤ d) && decide (d ≤ (monthLens y).getD (m - 1) 0)

/-- A schedule may be applied (R495); a holiday word 0 is unused. -/
def schedOk (l : Schedule) : Bool :=
  (l.take 64).all (fun w => !bit w 15 || decide (fldN w 0 11 ≤ 1439)) &&
  ((l.drop 64).take 32).all (fun w => w == 0 || dateOk w)

/-- Day type of a local second (R492). -/
def dayType (l : Schedule) (sec : Int) : Nat :=
  let c := calendar sec
  let date : Word := at_ (2000 + c.getD 5 0) 16 ||| at_ (c.getD 4 0) 8 ||| at_ (c.getD 3 0) 0
  if ((l.drop 64).take 32).contains date then fldN (schedWord l 97) 0 2 else fldN (schedWord l 96) (2 * c.getD 6 0) 2

/-- The point with the largest MINUTE, the higher index among equals. -/
def lastPoint (l : List Word) : Option Word :=
  l.foldl (fun m w => match m with
    | none => some w
    | some x => if fldN x 0 11 ≤ fldN w 0 11 then some w else some x) none

/-- Tariff in force at a local second (R492). -/
def tariffAt (l : Schedule) (sec : Int) : Fin 8 :=
  let pts := ((l.drop (16 * dayType l sec)).take 16).filter (fun w => bit w 15)
  let m := (max 0 sec).toNat / 60 % 1440
  match lastPoint (pts.filter (fun w => decide (fldN w 0 11 ≤ m))) with
  | some w => fin 7 (fldN w 12 3)
  | none =>
    match lastPoint pts with
    | some w => fin 7 (fldN w 12 3)
    | none => 0

/-- CRC-32C of a schedule: its words little-endian (log entry 28). -/
def schedCrc (l : Schedule) : Word := crc32c (l.flatMap bytesLE)

/-- The scan period in microseconds. -/
def State.periodUs (s : State) : Nat :=
  match s.cfg.img with
  | none => 0
  | some i => 125 * 2 ^ i.scan.period.toNat

/-- A commit's energy (R491). -/
def State.umuEnergy (s : State) (power : List Word) : State :=
  match s.umuCfg with
  | none => s
  | some c =>
    (List.finRange 4).foldl (fun (t : State) (g : Fin 4) =>
      if (c.group[g]) = 0 then t
      else
        let de : Int := ((List.range s.part.feeders).map (fun n : Nat =>
          if (c.group[g]).getLsbD n then (power.getD n 0).toInt * (s.periodUs : Int) else (0 : Int))).foldl (· + ·) 0
        let r := t.umu.data.res[g] + de
        let mj := r.tdiv 1000
        let i := fin 31 (8 * g.val + t.umu.tariff.val)
        let d := t.umu.data
        { t with umu := { t.umu with data := { d with
            res := vput d.res g (r - 1000 * mj), acc := vput d.acc i (satAdd64 d.acc[i] mj),
            eint := satAdd64 d.eint mj } } }) s

/-- The UMU's data as a checkpoint copy, alternating (R498). -/
def State.umuCheckpoint (s : State) (clean : Bool) : State :=
  if !s.umu.live || s.umu.ue then s
  else
    let h := match s.cfg.img with
      | none => s.umu.data.hash
      | some i => i.hash
    let c : Checkpoint := { seq := s.umu.ckSeq + 1, clean := clean, data := { s.umu.data with hash := h } }
    { s with umu := { s.umu with ckSeq := c.seq, ckNext := !s.umu.ckNext,
                                 ck0 := if s.umu.ckNext then s.umu.ck0 else some c, ck1 := if s.umu.ckNext then some c else s.umu.ck1 } }

/-- An interval closes (R493): D, attributed to the tariff in force, and UMU_INTERVAL. -/
def State.umuClose (s : State) (stamp : DWord) (lost : Bool) (day : Nat) : State :=
  match s.umuCfg with
  | none => s
  | some c =>
    let d := s.umu.data
    let q : Int := d.eint.toInt.tdiv (60000 * c.demandMin)
    let w : Word := BitVec.ofInt 32 (max (-(2 ^ 31) + 1) (min (2 ^ 31 - 1) q))
    let t := s.umu.tariff
    let md := match d.md[t] with
      | none => some (w, d.start)
      | some x => if x.1.toInt < w.toInt then some (w, d.start) else some x
    let s1 := { s with umu := { s.umu with data := { d with md := vput d.md t md } } }
    (((s1.sayUmu 0x7001 stamp (at_ t.val 0 ||| bitAt lost 8 ||| bitAt s.umu.part 9 ||| at_ day 16) (lo32 d.eint)
      (hi32 d.eint) w).evt R.umuEvt 0)).umuCheckpoint false

/-- A billing close (R494). -/
def State.umuBill (s : State) (stamp : DWord) : State :=
  let d := s.umu.data
  (({ s with umu := { s.umu with data := { d with mdp := d.md, md := Vector.replicate 8 none, bill := d.bill + 1 } } }).sayUmu
    0x7003 stamp ((d.bill + 1).setWidth 32) 0 0 0).evt R.umuEvt 2

/-- One input of the sorter. -/
def State.umuInput (s : State) (x : UmuIn) : State :=
  match x with
  | .commit _ p =>
    let s1 := if s.umu.opened then s.umuEnergy p else s
    { s1 with umu := { s1.umu with closed := false } }
  | .bill b _ => s.umuBill b

/-- Every held input is processed in order. -/
def State.umuDrain (s : State) : State :=
  s.umu.held.foldl State.umuInput { s with umu := { s.umu with held := [] } }

/-- A held input precedes a boundary stamped b: a commit with c ≤ b + 2 (R496), a billing close written before the boundary was held
(R494). -/
def UmuIn.before (b : DWord) (x : UmuBound) : UmuIn → Bool
  | .commit c _ => decide (c.toNat ≤ b.toNat + 2)
  | .bill _ r => decide (r.toNat < x.rtct.toNat)

/-- No held boundary precedes a billing close; false of a commit. -/
def State.umuBillReady (s : State) : UmuIn → Bool
  | .commit _ _ => false
  | .bill _ r => s.umu.bounds.all (fun x => decide (r.toNat < x.rtct.toNat))

/-- The billing closes that now follow every input held before them (R494). -/
def State.umuBills (s : State) : State :=
  let l := s.umu.held.takeWhile s.umuBillReady
  l.foldl State.umuInput { s with umu := { s.umu with held := s.umu.held.drop l.length } }

/-- An RTCT stamp as DT, by the sync pair (02 R49); before the first pair by the law of the load (02 R50). -/
def State.toDt (s : State) (x : DWord) : DWord :=
  s.time.syncDt + BitVec.ofInt 64 (((x.toNat : Int) - s.time.syncRtc.toNat) * 100000000 / 32768)

/-- An input stamped x has been held for its time (R496). -/
def State.umuDue (s : State) (x : DWord) : Bool := decide (x.toNat + 5000 ≤ s.time.dt.toNat)

/-- A boundary stamped b is processed, with the inputs that precede it (R492, R493, R495, R496). -/
def State.umuBoundaryAt (s : State) (b : DWord) (x : UmuBound) : State :=
  match s.umuCfg with
  | none => s
  | some c =>
    if !s.umu.live || !s.umu.opened then s
    else
      let pre := s.umu.held.filter (UmuIn.before b x)
      let post := s.umu.held.filter (fun y => !y.before b x)
      let s1 := pre.foldl State.umuInput { s with umu := { s.umu with held := post } }
      let sec := x.sec
      let close := decide ((max 0 sec).toNat / 60 % 60 % c.demandMin = 0)
      let s2 := if close then
          let t := s1.umuClose b false (dayType s1.umu.data.sched (sec - 1))
          { t with umu := { t.umu with part := false, data := { t.umu.data with eint := 0, start := BitVec.ofInt 32 x.utc } } }
        else s1
      let s3 := match s2.umu.pend with
        | none => s2
        | some p =>
          if p.1 ≤ b then
            ({ s2 with umu := { s2.umu with pend := none, data := { s2.umu.data with sched := p.2 } } }).sayUmu 0x7005 b
              (schedCrc p.2) 0 0 0
          else s2
      let new := tariffAt s3.umu.data.sched sec
      let s4 := if new = s3.umu.tariff then s3
        else
          (({ s3 with umu := { s3.umu with tariff := new } }).sayUmu 0x7002 b (BitVec.ofNat 32 s3.umu.tariff.val)
            (BitVec.ofNat 32 new.val) (BitVec.ofNat 32 (dayType s3.umu.data.sched sec))
            (BitVec.ofNat 32 ((max 0 sec).toNat / 60 % 1440))).evt R.umuEvt 1
      { s4 with umu := { s4.umu with closed := close } }

/-- The oldest boundaries are processed while ok of their stamps. -/
def State.umuBounds (s : State) (ok : DWord → Bool) : State :=
  let l := s.umu.bounds.takeWhile (fun x => ok (s.toDt x.rtct))
  l.foldl (fun t x => t.umuBoundaryAt (t.toDt x.rtct) x) { s with umu := { s.umu with bounds := s.umu.bounds.drop l.length } }

/-- The oldest boundary is processed once it has been held for its time. -/
def State.umuBoundary (s : State) : State :=
  match s.umu.bounds with
  | [] => s
  | x :: t =>
    if s.umuDue (s.toDt x.rtct) then
      (({ s with umu := { s.umu with bounds := t } }).umuBoundaryAt (s.toDt x.rtct) x).umuBills
    else s

/-- The oldest held input is processed if it is a commit held for its time, with the boundaries that it follows and the billing closes
that follow it (R494, R496). -/
def State.umuCommitInput (s : State) : State :=
  match s.umu.held with
  | .commit c p :: t =>
    if !s.umuDue c then s
    else
      let s1 := s.umuBounds (fun b => decide (b.toNat + 2 < c.toNat))
      (({ s1 with umu := { s1.umu with held := t } }).umuInput (.commit c p)).umuBills
  | _ => s

/-- Every input that has been held for its time is processed: before a checkpoint of a core-die power-down. -/
def State.umuSettle (s : State) : State :=
  let s1 := s.umuBounds s.umuDue
  let l := s1.umu.held.takeWhile (fun x => match x with
    | .bill b r => s1.umuBillReady (.bill b r)
    | .commit c _ => s.umuDue c)
  l.foldl State.umuInput { s1 with umu := { s1.umu with held := s1.umu.held.drop l.length } }

/-- An RTC tick edge at which the local seconds become a multiple of 60 is a boundary (R491). -/
def State.umuEdge (s : State) : State :=
  if s.umu.live && s.umu.opened && decide (s.time.rtct.toNat % 32768 = 0) && decide (s.localSec % 60 = 0) then
    { s with umu := { s.umu with bounds := s.umu.bounds ++ [{ rtct := s.time.rtct, utc := s.utc, sec := s.localSec }] } }
  else s

/-- A commit reaches the sorter, stamped with the apply tick (R491). -/
def State.umuCommit (s : State) (power : List Word) : State :=
  if s.umuCfg.isSome && s.umu.live && s.umu.opened then
    { s with umu := { s.umu with held := s.umu.held ++ [.commit s.time.dt power] } }
  else s

/-- The power-fail reaches the UMU, stamped p (R496, R497): held boundaries with b ≤ p + 2 and every commit go before it, later ones are
discarded. -/
def State.umuPowerFail (s : State) (p : DWord) : State :=
  if !s.umu.live then s
  else
    let s1 := (s.umuBounds (fun b => decide (b.toNat ≤ p.toNat + 2))).umuDrain
    let s2 := if s1.umu.opened && !s1.umu.closed then s1.umuClose p true (dayType s1.umu.data.sched s.localSec) else s1
    { s2 with umu := { s2.umu with opened := false, bounds := [] } }

/-- UMU_BILL_CTL written (R494). -/
def State.umuBillWrite (s : State) (v : Word) : State :=
  if fld v 16 16 = 0x8B1D ∧ s.modeRps ∧ s.umuCfg.isSome then
    if !bit v 0 then s
    else if s.umu.held.isEmpty && s.umu.bounds.isEmpty then s.umuBill s.time.dt
    else { s with umu := { s.umu with held := s.umu.held ++ [.bill s.time.dt s.time.rtct] } }
  else s.evt R.umuEvt 4

/-- A staged schedule word as it is held: the fields of its image encoding. -/
def schedMask (i : Nat) (v : Word) : Word :=
  if i < 64 then v &&& 0x0000F7FF else if i < 96 then v else if i = 96 then v &&& 0x00003FFF else v &&& 3

/-- UMU_SCHED_DATA written (R495). -/
def State.schedDataWrite (s : State) (v : Word) : State :=
  if s.mode.mode = .service ∧ s.umuCfg.isSome then
    let i := fldN (s.reg R.umuSel) 0 7
    if i < 98 then { s with umu := { s.umu with staged := s.umu.staged.set i (schedMask i v) } } else s
  else s.evt R.umuEvt 4

/-- UMU_SCHED_CTL written: APPLY and REVERT (R495; REVERT under the same KEY, log entry 29). -/
def State.schedCtlWrite (s : State) (v : Word) : State :=
  if fld v 16 16 = 0x5C4E ∧ s.mode.mode = .service ∧ s.umuCfg.isSome then
    let s1 := if bit v 0 then
        (if schedOk s.umu.staged then
          { s with umu := { s.umu with pend := some (s.time.dt + 100000, s.umu.staged) } }
        else s.evt R.umuEvt 4)
      else s
    if bit v 1 then { s1 with umu := { s1.umu with staged := s1.umu.data.sched } } else s1
  else s.evt R.umuEvt 4

/-- The newest good checkpoint copy: bad says which copies fail their CRC. -/
def UmuSt.newest (u : UmuSt) (bad : BitVec 2) : Option Checkpoint :=
  let g (b : Bool) (c : Option Checkpoint) : Option Checkpoint := if b then none else c
  match g (bad.getLsbD 0) u.ck0, g (bad.getLsbD 1) u.ck1 with
  | some a, some b => some (if a.seq.toNat < b.seq.toNat then b else a)
  | some a, none => some a
  | none, b => b

/-- An uncorrectable error of the UMU state (R509, 20 Table SAF-3): the next start finds the newest copy as one with CLEAN 0, and nothing
of the state reaches a copy before it. -/
def State.umuUe (s : State) : State :=
  let newest := (s.umu.newest 0).map Checkpoint.seq
  let mark (c : Option Checkpoint) : Option Checkpoint :=
    c.map (fun k => if some k.seq = newest then { k with clean := false } else k)
  if s.umu.live then { s with umu := { s.umu with ue := true, ck0 := mark s.umu.ck0, ck1 := mark s.umu.ck1 } } else s

/-- Step 13 restores the UMU (R509, R510): the image's schedule and hash, and which copies fail their CRC. -/
def State.umuRestore (s : State) (bad : BitVec 2) : State :=
  match s.umuCfg, s.cfg.img with
  | some c, some im =>
    let failed := (bad.getLsbD 0 && s.umu.ck0.isSome) || (bad.getLsbD 1 && s.umu.ck1.isSome)
    let cp := s.umu.newest bad
    let same := match cp with
      | none => false
      | some k => k.data.hash == im.hash
    let base := match cp with
      | none => UmuData.reset
      | some k => k.data
    let sched := if same then base.sched else c.sched
    let stale := match cp with
      | none => false
      | some k => !k.clean
    let res : Word := if cp.isNone then 3 else if failed then 2 else if stale then 1 else 0
    let seq := match cp with
      | none => 0
      | some k => k.seq
    (({ s with umu := { s.umu with
        live := true, ue := false, opened := true, part := true, lost := cp.isNone, stale := stale, held := [], bounds := [],
          closed := false,
        pend := none, staged := c.sched, tariff := tariffAt sched s.localSec,
        data := { base with sched := sched, hash := im.hash, eint := 0, start := BitVec.ofInt 32 s.utc } } }).say .umu
      0x7004 res seq (if same then 0 else 1) 0).evt R.umuEvt 3
  | _, _ => s

/-- The core die goes down: what PERIPH held is lost; the checkpoints stay. -/
def State.umuDown (s : State) : State :=
  { s with umu := { s.umu with live := false, ue := false, opened := false, held := [], bounds := [], pend := none, data := UmuData.reset,
                               tariff := 0, stale := false, lost := false, part := false, closed := false } }

end Sys2Proof.Machine
end

