-- ==== Sys2Proof/Machine/Sentinel.lean ====
section
/-! DEFINITION. The sentinel core: its memory map and I/O registers (16 Tables SNT-1, SNT-11; 17 Table USE-7), its
instructions and their flags (Table SNT-2, R454), interrupts and sleep. -/

namespace Sys2Proof.Machine

/-- Bits an I/O register keeps as written (Tables SNT-11, USE-7); 0 for every other address. -/
def ioMask (a : Nat) : Byte :=
  if a = 0xF000 then 0x01 else if a = 0xF002 ∨ a = 0xF003 ∨ a = 0xF006 then 0xFF
  else if 0xF010 ≤ a ∧ a ≤ 0xF015 then 0xFF else if 0xF020 ≤ a ∧ a ≤ 0xF025 then 0xFF else if a = 0xF026 then 0x02
  else if 0xF028 ≤ a ∧ a ≤ 0xF02B then 0xFF else if a = 0xF02C then 0x03
  else if 0xF030 ≤ a ∧ a ≤ 0xF03F then (if a % 4 = 0 then 0x0F else if a % 4 = 1 then 0xFF else 0)
  else if a = 0xF040 ∨ a = 0xF044 then 0x0F
  else if a = 0xF050 ∨ a = 0xF051 then 0x0F else if a = 0xF053 then 0xFF
  else if a = 0xF060 then 0x07 else if a = 0xF061 then 0xFF
  else if a = 0xF072 then 0x3B else if a = 0xF07A then 0x3F
  else if a = 0xF073 ∨ a = 0xF074 ∨ a = 0xF07B ∨ a = 0xF07C then 0xFF
  else if 0xF130 ≤ a ∧ a ≤ 0xF151 then 0xFF
  else if 0xF160 ≤ a ∧ a ≤ 0xF171 then 0xFF else if a = 0xF180 then 0xFF
  else if a = 0xF202 ∨ a = 0xF203 then 0xFF else if 0xF300 ≤ a ∧ a ≤ 0xF3FF then 0xFF
  else if 0xF424 ≤ a ∧ a ≤ 0xF427 then 0xFF else if 0xF430 ≤ a ∧ a ≤ 0xF43B then 0xFF
  else 0

/-- Byte i of a number. -/
def byteOf (n i : Nat) : Byte := BitVec.ofNat 8 (n / 256 ^ i)

/-- Value read at an I/O address, without its side effect. -/
def State.ioPeek (s : State) (a : Nat) : Byte :=
  if a = 0xF001 then
    (if s.mode.coreOn then 1 else 0) ||| (if s.wnt.winErr then 2 else 0) ||| (if s.time.coarse then 4 else 0) |||
    (if s.wnt.calOk then 8 else 0) ||| (if s.wnt.tdeny then 16 else 0) ||| ((s.wnt.rstCause.setWidth 8) <<< 5)
  else if a = 0xF004 then s.wnt.ip.setWidth 8
  else if a = 0xF005 then (s.wnt.ip >>> 8).setWidth 8
  else if a = 0xF008 then s.time.rtct.setWidth 8
  else if 0xF009 ≤ a ∧ a ≤ 0xF00F then byteOf s.wnt.rtctLatch.toNat (a - 0xF008)
  else if 0xF010 ≤ a ∧ a ≤ 0xF015 then byteOf s.wnt.timeofs.toNat (a - 0xF010)
  else if a = 0xF016 then s.wnt.loc
  else if a = 0xF018 then BitVec.ofNat 8 ((calendar s.localSec).getD 0 0)
  else if 0xF019 ≤ a ∧ a ≤ 0xF01E then s.wnt.calLatch.getD (a - 0xF018) 0
  else if 0xF028 ≤ a ∧ a ≤ 0xF02B then byteOf s.wnt.wtCnt.toNat (a - 0xF028)
  else if 0xF030 ≤ a ∧ a ≤ 0xF03F ∧ a % 4 = 0 then
    (s.iob a &&& 0x0F) ||| (if s.wnt.wake.getLsbD ((a - 0xF030) / 4) then 0x10 else 0)
  else if a = 0xF041 ∨ a = 0xF045 then
    let l := s.wnt.loops[fin 1 ((a - 0xF041) / 4)]
    (if l.broken then 1 else 0) ||| ((l.kind.setWidth 8) <<< 1)
  else if a = 0xF052 then s.wgpio.setWidth 8
  else if a = 0xF062 then s.wnt.spwData
  else if a = 0xF063 then (if s.wnt.spwBusy then 1 else 0) ||| (if s.wnt.spwOvr then 2 else 0)
  else if a = 0xF070 ∨ a = 0xF078 then (s.wnt.uart[fin 1 ((a - 0xF070) / 8)]).rx.getD 0 0
  else if a = 0xF071 ∨ a = 0xF079 then s.suStat (fin 1 ((a - 0xF070) / 8))
  else if 0xF100 ≤ a ∧ a ≤ 0xF11F then byteOf (s.wnt.mbin.getD ((a - 0xF100) / 4) 0).toNat (a % 4)
  else if a = 0xF120 then (if s.wnt.infull then 1 else 0)
  else if a = 0xF153 then s.wnt.out.setWidth 8
  else if a = 0xF172 then s.wnt.logStat.setWidth 8
  else if a = 0xF201 then
    (if s.wnt.sealing.isSome then 1 else 0) ||| ((s.wnt.sealRes.setWidth 8) <<< 1) ||| (if s.wnt.auth then 0x20 else 0)
  else if 0xF204 ≤ a ∧ a ≤ 0xF20B then byteOf s.wnt.seqOut.toNat (a - 0xF204)
  else if 0xF20C ≤ a ∧ a ≤ 0xF213 then byteOf s.wnt.seqIn.toNat (a - 0xF20C)
  else if 0xF214 ≤ a ∧ a ≤ 0xF218 then byteOf s.uid39 (a - 0xF214)
  else if 0xF400 ≤ a ∧ a ≤ 0xF41F then
    let x := s.use.meter[fin 3 ((a - 0xF400) / 8)]
    let k := a % 8
    if k = 0 then x.sec.setWidth 8
    else if k < 4 then byteOf x.latch.toNat k
    else if k = 4 then x.sel.setWidth 8 ||| ((x.pin.setWidth 8) <<< 3) ||| (if x.inv then 0x20 else 0)
    else if k = 6 then x.sig.setWidth 8 else if k = 7 then (x.sig >>> 8).setWidth 8 else 0
  else if a = 0xF420 then s.use.hmctl.setWidth 8
  else if a = 0xF421 then s.gates.setWidth 8
  else if a = 0xF43C then (if s.use.en then 1 else 0) ||| (if s.use.hold then 2 else 0)
  else if a = 0xF43D then
    (if s.use.permit then 1 else 0) ||| (if s.utc < (s.use.start.toNat : Int) then 2 else 0) |||
    (if (s.use.till.toNat : Int) ≤ s.utc then 4 else 0)
  else if a = 0xF440 then s.use.immobCtl.setWidth 8
  else if a = 0xF441 then (if s.use.immob then 1 else 0)
  else if a = 0xF450 then s.use.thStat
  else if 0xF458 ≤ a ∧ a ≤ 0xF45F then s.use.thCnt[fin 7 (a - 0xF458)]
  else if a = 0xF460 then s.use.uevt.setWidth 8
  else if a = 0xF461 then (if s.use.cut then 1 else 0)
  else s.iob a

/-- A read of an I/O address with its side effect (Tables SNT-11, USE-7). -/
def State.ioRead (s : State) (a : Nat) : Byte × State :=
  let v := s.ioPeek a
  let w := s.wnt
  (v,
    if a = 0xF008 then { s with wnt := { w with rtctLatch := s.time.rtct } }
    else if a = 0xF018 then { s with wnt := { w with calLatch := (calendar s.localSec).map (BitVec.ofNat 8) } }
    else if 0xF030 ≤ a ∧ a ≤ 0xF03F ∧ a % 4 = 2 then s.putIob a 0
    else if a = 0xF070 ∨ a = 0xF078 then
      let u := fin 1 ((a - 0xF070) / 8)
      if w.uart[u].core then s else s.putSu u { w.uart[u] with rx := w.uart[u].rx.drop 1 }
    else if 0xF400 ≤ a ∧ a ≤ 0xF41F ∧ a % 8 = 0 then
      let m := fin 3 ((a - 0xF400) / 8)
      s.putMeter m { s.use.meter[m] with latch := s.use.meter[m].sec }
    else s)

/-- SSTAT.TDENY set. -/
def State.denyTime (s : State) : State := { s with wnt := { s.wnt with tdeny := true } }

/-- The sixth TIMEOFS byte written (R458, R503). -/
def State.timeofsWrite (s0 : State) (v : Byte) : State :=
  let s := s0.putIob 0xF015 v
  let n : BitVec 48 := BitVec.ofNat 48 (s.ioNat 0xF010 6)
  let u := n.toInt + (s.time.rtct.toNat / 32768 : Nat)
  if s.wnt.auth ∧ 0 ≤ u ∧ u ≤ utcMax then
    let old := s.wnt.timeofs
    ((({ s with wnt := { s.wnt with timeofs := n } }).sayWnt 0x7105 (old.setWidth 32) (n.setWidth 32)
      (s.wnt.loc.setWidth 32) 0).alarmEval).hireDue none
  else s.denyTime

/-- LOCAL written (R458, R503). -/
def State.localWrite (s : State) (v : Byte) : State :=
  if s.wnt.auth ∧ -48 ≤ v.toInt ∧ v.toInt ≤ 56 then { s with wnt := { s.wnt with loc := v } } else s.denyTime

/-- The sixth ALARM byte written (R459, log entry 30). -/
def State.alarmWrite (s0 : State) (v : Byte) : State :=
  let s := s0.putIob 0xF025 v
  ({ s with wnt := { s.wnt with alarm := BitVec.ofNat 48 (s.ioNat 0xF020 6), fired := false } }).alarmEval

/-- The fourth WTMR byte written (R460). -/
def State.wtmrWrite (s0 : State) (v : Byte) : State :=
  let s := s0.putIob 0xF02B v
  let n : Word := BitVec.ofNat 32 (s.ioNat 0xF028 4)
  { s with wnt := { s.wnt with wtCnt := n, wtVal := n } }

/-- SPWDATA written (R464). -/
def State.spwWrite (s : State) (v : Byte) : State :=
  if s.wnt.spwBusy then { s with wnt := { s.wnt with spwOvr := true } }
  else { s with wnt := { s.wnt with spwBusy := true, spwTx := v } }

/-- MBSTAT.ACK (R468). -/
def State.mbAck (s : State) : State :=
  ({ s with wnt := { s.wnt with infull := false } }).sntEv 0

/-- SOP written with a value (R474 to R476): 1 SEAL, 2 OPEN; another value starts nothing and clears AUTH. -/
def State.sopWrite (s : State) (v : Byte) : State :=
  if v = 1 then s.sealStart false else if v = 2 then s.sealStart true
  else if s.wnt.sealing.isSome then s else { s with wnt := { s.wnt with auth := false } }

/-- A byte queued to a sentinel UART's transmit FIFO (R466; dropped when the FIFO is full or the core die owns it). -/
def State.suWrite (s : State) (u : Fin 2) (v : Byte) : State :=
  let x := s.wnt.uart[u]
  if x.core ∨ 16 ≤ x.tx.length then s else s.putSu u { x with tx := x.tx ++ [v] }

/-- A sentinel store to an I/O address. -/
def State.ioWrite (s : State) (a : Nat) (v : Byte) : State :=
  let w := s.wnt
  if a = 0xF000 then
    let s1 := (s.putIob a (v &&& 1)).rcCheck
    if v.getLsbD 1 then s1.coreWake 8 else s1
  else if a = 0xF001 then
    { s with wnt := { w with winErr := w.winErr && !v.getLsbD 1, tdeny := w.tdeny && !v.getLsbD 4 } }
  else if a = 0xF004 then { s with wnt := { w with ip := w.ip &&& ~~~(v.setWidth 16) } }
  else if a = 0xF005 then { s with wnt := { w with ip := w.ip &&& ~~~((v.setWidth 16) <<< 8) } }
  else if a = 0xF015 then s.timeofsWrite v
  else if a = 0xF016 then s.localWrite v
  else if a = 0xF025 then s.alarmWrite v
  else if a = 0xF02B then s.wtmrWrite v
  else if a = 0xF050 ∨ a = 0xF051 then (s.putIob a (v &&& 0x0F)).wgpioEdges s.wgpio
  else if a = 0xF062 then s.spwWrite v
  else if a = 0xF063 then { s with wnt := { w with spwOvr := w.spwOvr && !v.getLsbD 1 } }
  else if a = 0xF070 ∨ a = 0xF078 then s.suWrite (fin 1 ((a - 0xF070) / 8)) v
  else if a = 0xF071 ∨ a = 0xF079 then
    let u := fin 1 ((a - 0xF070) / 8)
    s.putSu u { w.uart[u] with flags := w.uart[u].flags &&& ~~~((v >>> 3).setWidth 3) }
  else if a = 0xF072 ∨ a = 0xF07A then s.uctlWrite (fin 1 ((a - 0xF070) / 8)) (v &&& ioMask a)
  else if a = 0xF120 then (if v.getLsbD 1 then s.mbAck else s)
  else if a = 0xF152 then (if v = 1 then s.outMail else if v = 2 then s.outRing else s)
  else if a = 0xF153 then s.setOut (w.out &&& ~~~(v.setWidth 4 &&& 0xE))
  else if a = 0xF171 then s.swsEntry v
  else if a = 0xF172 then { s with wnt := { w with logStat := w.logStat &&& ~~~(v.setWidth 2) } }
  else if a = 0xF200 then s.sopWrite v
  else if 0xF400 ≤ a ∧ a ≤ 0xF41F ∧ a % 8 = 4 then
    s.hmCfg (fin 3 ((a - 0xF400) / 8)) false (v.setWidth 3) ((v >>> 3).setWidth 2) (v.getLsbD 5)
      (s.use.meter[fin 3 ((a - 0xF400) / 8)]).sig
  else if 0xF400 ≤ a ∧ a ≤ 0xF41F ∧ 6 ≤ a % 8 then
    let m := fin 3 ((a - 0xF400) / 8)
    let x := s.use.meter[m]
    s.hmCfg m false x.sel x.pin x.inv
      (if a % 8 = 6 then (x.sig &&& 0x300) ||| v.setWidth 10 else (x.sig &&& 0x0FF) ||| ((v.setWidth 10) <<< 8))
  else if a = 0xF420 then { s with use := { s.use with hmctl := v.setWidth 4 } }
  else if a = 0xF428 then s.presetReq (fin 3 (v.toNat % 4)) (BitVec.ofNat 32 (s.ioNat 0xF424 4)) false
  else if a = 0xF43C then s.hireCtl v
  else if a = 0xF440 then s.immobWrite v
  else if 0xF448 ≤ a ∧ a ≤ 0xF44F then s.theftCfg (a - 0xF448) v
  else if a = 0xF450 then s.theftClear v
  else if a = 0xF451 then s.theftSet v
  else if a = 0xF460 then { s with use := { s.use with uevt := s.use.uevt &&& ~~~(v.setWidth 6) } }
  else if ioMask a = 0 then s
  else s.putIob a (v &&& ioMask a)

/-- The sentinel runs instructions: AWAKE, past its boot check, no SLEEP or WFI that still waits. -/
def State.sntRuns (s : State) : Bool :=
  s.wnt.st == .awake && !s.wnt.boot && !s.wnt.sleep && (!s.wnt.wfi || s.sntPending != 0)

/-- A write of an I/O register by a running sentinel, as the register rows name it. -/
def State.sntWrites (s : State) (a : Nat) (v : Byte) : State := if s.sntRuns then s.ioWrite a v else s

/-- An interrupt entry is due (R455). -/
def State.sntDue (s : State) : Bool := s.wnt.flags.getLsbD 4 && s.sntPending != 0

/-! Memory (Table SNT-1). -/

/-- A sentinel load of a byte; none: the access faults. -/
def State.sntLoad (s : State) (a : Nat) : Option (Byte × State) :=
  if a < 0x4000 then some (mget 0 s.mem.scode a, s)
  else if a < 0x6000 then some (mget 0 s.mem.sdata (a - 0x4000), s)
  else if a < 0x8000 then
    some (if s.wnt.winValid then (mget 0 s.mem.shared (a - 0x6000), s)
          else (0, { s with wnt := { s.wnt with winErr := true } }))
  else if a < 0xF000 then none
  else some (s.ioRead a)

/-- A sentinel store faults at this address. -/
def sntNoStore (a : Nat) : Bool := decide (a < 0x4000) || (decide (0x8000 ≤ a) && decide (a < 0xF000))

/-- A sentinel store of a byte at an address that does not fault. -/
def State.sntStore (s : State) (a : Nat) (v : Byte) : State :=
  if sntNoStore a then s
  else if a < 0x6000 then { s with mem := { s.mem with sdata := mset 0 s.mem.sdata (a - 0x4000) v } }
  else if a < 0x8000 then
    if s.wnt.winValid then { s with mem := { s.mem with shared := mset 0 s.mem.shared (a - 0x6000) v } }
    else { s with wnt := { s.wnt with winErr := true } }
  else s.ioWrite a v

/-- Outcome of an instruction: the next address, or a fault and its cause. -/
inductive SntRes where
  | go (s : State) (next : Half)
  | fault (s : State) (cause : Nat)

/-- An instruction of len bytes whose encoding is legal or not: fetch, execution, fault (R450, R453, R483). The command
stands for the fetch of these bytes. -/
def State.snt (s : State) (len : Nat) (legal : Bool) (f : State → Half → SntRes) : State :=
  if !s.sntRuns || s.sntDue then s
  else
    let s1 := { s with wnt := { s.wnt with wfi := false } }
    if 0x4000 < s.wnt.pc.toNat + len then s1.sntFault 1
    else if !legal then s1.sntFault 2
    else
      match f s1 (s.wnt.pc + BitVec.ofNat 16 len) with
      | .go t n => { t with wnt := { t.wnt with pc := if t.wnt.boot then t.wnt.pc else n } }
      | .fault t c => t.sntFault c

/-! Registers and operands. -/

/-- Register n. -/
def State.sb (s : State) (n : Fin 8) : Byte := s.wnt.b[n]

/-- Register n written. -/
def State.putB (s : State) (n : Fin 8) (v : Byte) : State := { s with wnt := { s.wnt with b := vput s.wnt.b n v } }

/-- Pointer pair n: b(2n + 1):b(2n). -/
def State.sq (s : State) (n : Fin 4) : Half :=
  (s.sb (fin 7 (2 * n.val + 1)) ++ s.sb (fin 7 (2 * n.val)) : BitVec 16)

/-- Pointer pair n written. -/
def State.putQ (s : State) (n : Fin 4) (v : Half) : State :=
  (s.putB (fin 7 (2 * n.val)) (v.setWidth 8)).putB (fin 7 (2 * n.val + 1)) ((v >>> 8).setWidth 8)

/-- Operand fields of a byte: format r, and the two operands of rr (rb: register, bit). -/
def opR (o : Byte) : Fin 8 := fin 7 (o.toNat % 8)
def opR1 (o : Byte) : Fin 8 := fin 7 (o.toNat / 8 % 8)
/-- The same operands as pairs. -/
def opQ (o : Byte) : Fin 4 := fin 3 (o.toNat % 8)
def opQ1 (o : Byte) : Fin 4 := fin 3 (o.toNat / 8 % 8)

/-- Legal operand bytes (R453): one register; one pair; two registers; register and pair; pair and register; two pairs. -/
def okR (o : Byte) : Bool := decide (o.toNat < 8)
def okQ (o : Byte) : Bool := decide (o.toNat < 4)
def okRR (o : Byte) : Bool := decide (o.toNat < 64)
def okRQ (o : Byte) : Bool := decide (o.toNat < 64) && decide (o.toNat % 8 < 4)
def okQR (o : Byte) : Bool := decide (o.toNat < 64) && decide (o.toNat / 8 < 4)
def okQQ (o : Byte) : Bool := decide (o.toNat < 64) && decide (o.toNat / 8 < 4) && decide (o.toNat % 8 < 4)

/-! Flags (R454). -/

/-- Flags with C, Z, N, V replaced where given; I kept. -/
def setFlagsCZNV (f : BitVec 5) (c : Option Bool) (z n : Bool) (v : Option Bool) : BitVec 5 :=
  let b (i : Nat) (x : Bool) : BitVec 5 := if x then (1 : BitVec 5) <<< i else 0
  b 0 (c.getD (f.getLsbD 0)) ||| b 1 z ||| b 2 n ||| b 3 (v.getD (f.getLsbD 3)) ||| b 4 (f.getLsbD 4)

/-- FLAGS written. -/
def State.putF (s : State) (f : BitVec 5) : State := { s with wnt := { s.wnt with flags := f } }

/-- Flag C. -/
def State.fc (s : State) : Bool := s.wnt.flags.getLsbD 0

/-- Z and N of a result, with C and V as given. -/
def State.flagsOf {w : Nat} (s : State) (r : BitVec w) (c v : Option Bool) : State :=
  s.putF (setFlagsCZNV s.wnt.flags c (r == 0) r.msb v)

/-- A sum with carry: result, C, V. -/
def addC {w : Nat} (a b : BitVec w) (c : Bool) : BitVec w × Bool × Bool :=
  let k := if c then 1 else 0
  let r := a + b + BitVec.ofNat w k
  (r, decide (2 ^ w ≤ a.toNat + b.toNat + k), a.msb == b.msb && r.msb != a.msb)

/-- A difference with borrow: result, borrow, V. -/
def subC {w : Nat} (a b : BitVec w) (c : Bool) : BitVec w × Bool × Bool :=
  let k := if c then 1 else 0
  let r := a - b - BitVec.ofNat w k
  (r, decide (a.toNat < b.toNat + k), a.msb != b.msb && r.msb != a.msb)

/-- Operations of 0x20 to 0x2F. -/
inductive SntAlu where
  | add | adc | sub | sbc | and | or | xor | cmp
  deriving DecidableEq, Repr

/-- Register rd takes rd op y, with the flags (R454). -/
def State.sntAlu (s : State) (op : SntAlu) (rd : Fin 8) (y : Byte) : State :=
  let x := s.sb rd
  let arith (r : Byte × Bool × Bool) (w : Bool) : State :=
    (if w then s.putB rd r.1 else s).flagsOf r.1 (some r.2.1) (some r.2.2)
  let logic (r : Byte) : State := (s.putB rd r).flagsOf r none (some false)
  match op with
  | .add => arith (addC x y false) true
  | .adc => arith (addC x y s.fc) true
  | .sub => arith (subC x y false) true
  | .sbc => arith (subC x y s.fc) true
  | .and => logic (x &&& y)
  | .or => logic (x ||| y)
  | .xor => logic (x ^^^ y)
  | .cmp => arith (subC x y false) false

/-- The same with two register operands, and with an immediate. -/
def State.sntAluR (s : State) (op : SntAlu) (o : Byte) : State :=
  s.snt 2 (okRR o) (fun s n => .go (s.sntAlu op (opR1 o) (s.sb (opR o))) n)
def State.sntAluI (s : State) (op : SntAlu) (o i : Byte) : State :=
  s.snt 3 (okR o) (fun s n => .go (s.sntAlu op (opR o) i) n)

/-- Operations of 0x30 to 0x39. -/
inductive SntUn where
  | inc | dec | neg | not | shl | shr | sar | rlc | rrc | swap
  deriving DecidableEq, Repr

/-- Register rd takes the operation's result, with the flags (R454). -/
def State.sntUn (s : State) (op : SntUn) (rd : Fin 8) : State :=
  let x := s.sb rd
  let put (r : Byte) (c v : Option Bool) : State := (s.putB rd r).flagsOf r c v
  let sh (r : Byte) (c : Bool) : State := put r (some c) (some false)
  match op with
  | .inc => put (x + 1) none (some (x == 0x7F))
  | .dec => put (x - 1) none (some (x == 0x80))
  | .neg => let r := subC 0 x false; put r.1 (some r.2.1) (some r.2.2)
  | .not => put (~~~x) none (some false)
  | .shl => sh (x <<< 1) (x.getLsbD 7)
  | .shr => sh (x >>> 1) (x.getLsbD 0)
  | .sar => sh (x.sshiftRight 1) (x.getLsbD 0)
  | .rlc => sh ((x <<< 1) ||| (if s.fc then 1 else 0)) (x.getLsbD 7)
  | .rrc => sh ((x >>> 1) ||| (if s.fc then 0x80 else 0)) (x.getLsbD 0)
  | .swap => put ((x <<< 4) ||| (x >>> 4)) none none

/-- An instruction of one register. -/
def State.sntUnR (s : State) (op : SntUn) (o : Byte) : State := s.snt 2 (okR o) (fun s n => .go (s.sntUn op (opR o)) n)

/-- 16-bit arithmetic on a pair: the result written or not, with the flags. -/
def State.sntPair (s : State) (q : Fin 4) (r : Half × Bool × Bool) (w : Bool) : State :=
  (if w then s.putQ q r.1 else s).flagsOf r.1 (some r.2.1) (some r.2.2)

/-! Stack (Table SNT-2; R483 cause 3). -/

/-- Addresses a push or pop may use. -/
def stackOk (a : Half) : Bool := decide (0x4000 ≤ a.toNat) && decide (a.toNat < 0x6000)

/-- A byte pushed; none: fault. -/
def State.push (s : State) (v : Byte) : Option State :=
  let a := s.wnt.sp - 1
  if stackOk a then some { s.sntStore a.toNat v with wnt := { (s.sntStore a.toNat v).wnt with sp := a } } else none

/-- A byte popped; none: fault. -/
def State.pop (s : State) : Option (Byte × State) :=
  let a := s.wnt.sp
  if stackOk a then some (mget 0 s.mem.sdata (a.toNat - 0x4000), { s with wnt := { s.wnt with sp := a + 1 } }) else none

/-- A half-word pushed, high byte first. -/
def State.pushH (s : State) (v : Half) : SntRes :=
  match s.push ((v >>> 8).setWidth 8) with
  | none => .fault s 3
  | some s1 =>
    match s1.push (v.setWidth 8) with
    | none => .fault s1 3
    | some s2 => .go s2 0

/-- A half-word popped. -/
def State.popH (s : State) (k : Half → State → SntRes) : SntRes :=
  match s.pop with
  | none => .fault s 3
  | some (l, s1) =>
    match s1.pop with
    | none => .fault s1 3
    | some (h, s2) => k (h ++ l : BitVec 16) s2

/-- The next address replaced in a result that did not fault. -/
def SntRes.to (r : SntRes) (n : Half) : SntRes :=
  match r with
  | .go s _ => .go s n
  | .fault s c => .fault s c

/-- A load of a byte into register rd, then k. -/
def State.loadB (s : State) (a : Nat) (rd : Fin 8) (k : State → SntRes) : SntRes :=
  match s.sntLoad a with
  | none => .fault s 1
  | some (v, t) => k (t.putB rd v)

/-- A store of a byte, then k. -/
def State.storeB (s : State) (a : Nat) (v : Byte) (k : State → SntRes) : SntRes :=
  if sntNoStore a then .fault s 1 else k (s.sntStore a v)

/-- A 16-bit load (R452). -/
def State.loadH (s : State) (a : Half) (q : Fin 4) (n : Half) : SntRes :=
  match s.sntLoad a.toNat with
  | none => .fault s 1
  | some (l, t) =>
    match t.sntLoad (a + 1).toNat with
    | none => .fault s 1
    | some (h, u) => .go (u.putQ q (h ++ l : BitVec 16)) n

/-- A 16-bit store (R452); an access with a byte that faults stores nothing (log entry 31). -/
def State.storeH (s : State) (a v n : Half) : SntRes :=
  if sntNoStore a.toNat || sntNoStore (a + 1).toNat then .fault s 1
  else .go ((s.sntStore a.toNat (v.setWidth 8)).sntStore (a + 1).toNat ((v >>> 8).setWidth 8)) n

/-- A branch of two bytes taken on a condition. -/
def State.sntBranch (s : State) (rel : Byte) (c : BitVec 5 → Bool) : State :=
  s.snt 2 true (fun s n => .go s (if c s.wnt.flags then n + rel.signExtend 16 else n))

/-- Entry through a vector: PC and FLAGS pushed, I cleared (R455). -/
def State.sntVector (s : State) (pc : Half) (v : Nat) : SntRes :=
  match s.pushH pc with
  | .fault t c => .fault t c
  | .go t _ =>
    match t.push (t.wnt.flags.setWidth 8) with
    | none => .fault t 3
    | some u => .go (u.putF (u.wnt.flags &&& 0x0F)) (BitVec.ofNat 16 (4 * v))

/-- Interrupt entry: the lowest pending enabled source (R455). -/
def State.sntEnter (s : State) : State :=
  if !s.sntRuns || !s.sntDue then s
  else
    let p := s.sntPending
    let i := ((List.range 16).find? (fun i => p.getLsbD i)).getD 0
    let s1 := { s with wnt := { s.wnt with wfi := false } }
    match s1.sntVector s.wnt.pc i with
    | .go t n => { t with wnt := { t.wnt with pc := n } }
    | .fault t c => t.sntFault c

/-- A wake event of the sleeping sentinel (R456). -/
def State.sntWake (s : State) : State := if s.wnt.st = .asleep ∧ s.sntPending ≠ 0 then s.sntTo .awake else s

end Sys2Proof.Machine
end

