-- ==== Sys2Proof/Machine/Live.lean ====
section
/-! DEFINITION. Registers whose word the part computes from its state at every read: the live and image words of the
register chapters, by block. -/

namespace Sys2Proof.Machine

/-- A byte list's word j. -/
def wordOf (l : List Byte) (j : Nat) : Word := wordLE (l.drop (4 * j))

/-- Whole seconds until a DT, rounded up (log entry 48). -/
def State.secondsTo (s : State) (t : DWord) : Nat :=
  if s.time.dt < t then ((t - s.time.dt).toNat + 99999999) / 100000000 else 0

/-- The step of the cold start that loads a block's image fields has run: until then they read 0 (00 R22; the steps: log entry 86). -/
def State.blockOn (s : State) (step : Nat) : Bool := s.mode.kindWarm || decide (step ≤ s.mode.done)

/-! SYS, ISL, CFG, PWR. -/

/-- No trip is latched (08 R214). -/
def State.noLatchedTrip (s : State) : Bool :=
  match s.fabCfg with
  | none => true
  | some c => (c.latched s.fab.trip) == 0

/-- The M5 guards: [0] hire permit, [1] PRECH_SIG, [2] no latched trip, [3] no Safe cause pending. -/
def State.guards (s : State) : BitVec 4 :=
  boolBits 4 [s.hirePermit, s.prech, s.noLatchedTrip, s.mode.safePend.isEmpty]

/-- SYS_MODE (Table MODE-11); a start in progress shows the mode in which it will end. -/
def State.sysMode (s : State) : Word :=
  at_ s.mode.mode.code 0 ||| bitAt s.mode.starting 3 ||| at_ s.mode.prev.code 8 ||| (s.guards.setWidth 32 <<< 16)

/-- SYS_START (Table MODE-15). -/
def State.sysStart (s : State) : Word :=
  bitAt s.mode.kindWarm 0 ||| bitAt s.mode.clsWarm 1 ||| at_ s.mode.wcause.toNat 4 ||| bitAt s.mode.cal 8 |||
  at_ s.mode.harv.toNat 9 ||| at_ s.mode.wcount.toNat 16

/-- Live words of SYS. -/
def State.liveSys (s : State) (o : Nat) : Option Word :=
  match o with
  | 0x00 => some (if s.part = .tsj5140 then 0x35140000 else 0x35120000)
  | 0x04 => some (if s.part = .tsj5140 then 0x00080C10 else 0x00040608)
  | 0x10 => some s.sysMode
  | 0x14 => some 0
  | 0x18 => some (at_ s.mode.result.toNat 0 ||| at_ s.mode.failed.toNat 8 ||| at_ s.mode.seq.toNat 24)
  | 0x1C => some 0
  | 0x20 => some s.sysStart
  | 0x24 => some (lo32 s.mode.startDt)
  | 0x28 => some (hi32 s.mode.startDt)
  | 0x2C => some s.mode.startTime
  | 0x30 => some (s.mode.safePri.setWidth 32)
  | 0x34 => some s.mode.safeMask
  | _ => none

/-- Live words of ISL. -/
def State.liveIsl (s : State) (o : Nat) : Option Word :=
  match o with
  | 0x00 => some (s.time.pwr.setWidth 32 ||| (s.time.clkOk.setWidth 32 <<< 8) ||| bitAt s.time.coarse 17)
  | 0x04 => some (match s.cfg.img with
      | none => 0xFD
      | some i => i.pwren.setWidth 32 ||| bitAt i.periphHalf 8)
  | 0x10 => some (lo32 s.time.dt)
  | 0x14 => some (hi32 s.time.dt)
  | 0x18 => some (lo32 s.time.syncRtc)
  | 0x1C => some (hi32 s.time.syncRtc)
  | 0x20 => some (lo32 s.time.syncDt)
  | 0x24 => some (hi32 s.time.syncDt)
  | _ => none

/-- Live words of CFG. -/
def State.liveCfg (s : State) (o : Nat) : Option Word :=
  let img (f : Image → Word) : Option Word := some (match s.cfg.img with
    | none => 0
    | some i => f i)
  if o = 0 then
    some (bitAt (match s.cfg.img with | none => false | some i => i.slot) 0 ||| bitAt s.cfg.fallback 1 |||
      (s.cfg.refuseA.setWidth 32 <<< 8) ||| (s.cfg.refuseB.setWidth 32 <<< 16))
  else if o = 4 then img (fun i => i.seq)
  else if 0x10 ≤ o ∧ o < 0x30 then img (fun i => wordOf i.hash ((o - 0x10) / 4))
  else if 0x30 ≤ o ∧ o < 0x40 then img (fun i => wordOf i.build ((o - 0x30) / 4))
  else if o = 0x40 then some 0
  else if o = 0x44 then
    some (at_ (match s.cfg.stage with | .closed => 0 | .opened => 1 | .checking => 2 | .checked => 3) 0 |||
      (s.cfg.result.setWidth 32 <<< 8) ||| bitAt s.cfg.denied 16)
  else if o = 0x50 then img (fun i => at_ i.scan.wcet 0 ||| at_ i.scan.period.toNat 30)
  else none

/-- Live words of PWR. -/
def State.livePwr (s : State) (o : Nat) : Option Word :=
  let p := s.pwr
  match o with
  | 0x00 => some (bitAt p.vbatValid 0 ||| bitAt p.surge 1 ||| bitAt p.bakSrc 2 ||| bitAt p.vbakOk 3 ||| bitAt p.chgActive 4 |||
      bitAt p.chgDone 5 ||| at_ p.rails.toNat 8 ||| at_ p.twarn.toNat 16)
  | 0x04 => some (at_ p.vbatMv.toNat 0 ||| at_ p.vbakMv.toNat 16)
  | 0x08 => some (at_ p.tjf.toNat 0 ||| at_ p.tjc0.toNat 8 ||| at_ p.tjc1.toNat 16)
  | 0x18 => some (at_ p.pfCount.toNat 0 ||| at_ p.lastFlush.toNat 16)
  | _ => none

/-! AFE, FLT, FAB. -/

/-- Live words of AFE. AFE_CH_CTL shows a change from its acceptance on, before its output boundary (log entry 81). -/
def State.liveAfe (s : State) (o : Nat) : Option Word :=
  let a := s.afe
  if o < 0x40 then some ((a.pend[fin 15 (o / 4)]).getD a.ctl[fin 15 (o / 4)])
  else if o < 0x80 then
    let n := fin 15 ((o - 0x40) / 4)
    let w := s.chain[s.chanChain n].out
    let on := s.chanEn n
    some (bitAt (on && bit w 31) 0 ||| bitAt (on && bit w 30) 1 ||| bitAt (a.owPos.getLsbD n.val) 2 |||
      bitAt (a.owNeg.getLsbD n.val) 3 ||| bitAt (a.owLatch.getLsbD n.val) 4 ||| (a.modrst[n].setWidth 32 <<< 8))
  else if o < 0xC0 then
    let c := s.corr (fin 15 ((o - 0x80) / 4))
    some (ofInt32 c.1 &&& 0xFFFFFF)
  else if o < 0x100 then
    let c := s.corr (fin 15 ((o - 0xC0) / 4))
    some (ofInt32 c.2 &&& 0xFFFFFF)
  else if o = 0x100 then
    some ((s.mode.calTjf.setWidth 32) ||| bitAt a.calPass 8 ||| at_ (min (s.since s.mode.calDt / 6000000000) 65535) 16)
  else if o = 0x114 then
    some (a.owOpen.setWidth 32 ||| bitAt a.burst.isSome 16 ||| bitAt a.owDenied 17 ||| bitAt a.owDone 18 ||| bitAt a.owAband 19)
  else if 0x140 ≤ o ∧ o < 0x160 then some a.cmpCtl[fin 7 ((o - 0x140) / 4)]
  else if 0x160 ≤ o ∧ o < 0x180 then some (s.setWord s.fab.group (144 + (o - 0x160) / 4) &&& 0x03FF03FF)
  else if o = 0x180 then
    some (a.above.setWidth 32 ||| (a.below.setWidth 32 <<< 8) ||| (s.degraded.setWidth 32 <<< 16))
  else if 0x200 ≤ o ∧ o < 0x250 then some (a.sar[fin 19 ((o - 0x200) / 4)].setWidth 32)
  else none

/-- A coefficient as it sits in the 24 bits of coefficient memory (FLT_COEF_DATA). -/
def State.coefData (s : State) : Word :=
  let sel := s.reg 0x00050150
  let k := fldN sel 0 4
  let t := fldN sel 8 7
  match s.chainCfg (fin 15 k) with
  | none => 0
  | some _ => if t < 96 ∧ k < s.part.channels then ((s.chain[fin 15 k]).coef.getD t 0) &&& 0xFFFFFF else 0

/-- Rate code of a chain. -/
def rateCode (c : ChainCfg) : Nat :=
  match c.rate with
  | 4000 => 0 | 8000 => 1 | 16000 => 2 | 32000 => 3 | _ => 4

/-- Live words of FLT. -/
def State.liveFlt (s : State) (o : Nat) : Option Word :=
  let k := fin 15 (o % 0x40 / 4)
  let st := s.chain[k]
  let cfg (f : ChainCfg → Word) : Option Word := some (match s.chainCfg k with
    | none => 0
    | some c => if s.mode.past8 then f c else 0)
  if o < 0x40 then
    cfg (fun c => if (s.feeder k).isSome then
        at_ c.cicDec 0 ||| at_ c.hbCount 9 ||| at_ c.firDec 11 ||| at_ c.taps 14 ||| at_ (rateCode c) 21 ||| bitAt true 24
      else at_ c.cicDec 0 ||| at_ c.hbCount 9 ||| at_ c.firDec 11 ||| at_ c.taps 14 ||| at_ (rateCode c) 21)
  else if o < 0x80 then
    cfg (fun c => at_ c.shift0 0 ||| at_ c.hbShift1 8 ||| at_ c.hbShift2 16 ||| at_ c.finalShift 24)
  else if o < 0xC0 then cfg (fun c => at_ (c.unsettled % 65536) 0)
  else if o < 0x100 then
    some (at_ (st.remain % 65536) 0 ||| bitAt st.aligned 16 ||| bitAt (bit st.out 28) 17 ||| (st.clears.setWidth 32 <<< 24))
  else if o < 0x140 then some st.out
  else if o = 0x140 then some 0
  else if o = 0x154 then some s.coefData
  else none

/-- FAB_STAT. -/
def State.fabStat (s : State) : Word :=
  at_ s.fab.group.val 0 ||| bitAt s.modeGate 2 ||| bitAt s.fab.hire 8 ||| bitAt s.prech 9 ||| bitAt s.fab.grpReq.isSome 15 |||
  (match s.fab.grpReq with
    | none => 0
    | some g => at_ g.val 16)

/-- FAB_TRIP_STAT, FAB_CLOSE_STAT, FAB_INT_STAT, FAB_BST_STAT, FAB_RB_STAT. -/
def State.fabTripStat (s : State) : Word :=
  s.fab.trip.setWidth 32 ||| (match s.fabCfg with
    | none => 0
    | some c => (c.latched s.fab.trip).setWidth 32 <<< 16)
def State.fabCloseStat (s : State) : Word :=
  s.fab.close.setWidth 32 ||| (match s.fabCfg with
    | none => 0
    | some c => (boolBits 12 ((List.finRange 12).map (fun n => s.permit c n))).setWidth 32 <<< 16)
def State.fabIntStat (s : State) : Word := s.fab.started.setWidth 32 ||| (s.fab.operate.setWidth 32 <<< 16)
def State.fabBstStat (s : State) : Word := s.fab.bstRaw.setWidth 32 ||| (s.fab.bst.setWidth 32 <<< 16)
def State.fabRbStat (s : State) : Word :=
  let r := s.readBack
  (r.setWidth 12).setWidth 32 ||| ((r.extractLsb' 12 12).setWidth 32 <<< 16) ||| ((r.extractLsb' 24 4).setWidth 32 <<< 28)

/-- FAB_KDRV_Id, FAB_CELL_STATj, AFE_CMP_STAT. -/
def State.kdrvWord (s : State) (d : Fin 4) : Word :=
  s.fab.kdrvMa[d].setWidth 32 ||| bitAt (s.fab.kdrvOc.getLsbD d.val) 16 ||| bitAt (s.fab.kdrvOpen.getLsbD d.val) 17
def State.cellWord (s : State) (j : Nat) : Word := s.fab.q.extractLsb' (32 * j) 32
def State.cmpStat (s : State) : Word :=
  s.afe.above.setWidth 32 ||| (s.afe.below.setWidth 32 <<< 8) ||| (s.degraded.setWidth 32 <<< 16)

/-- Live words of FAB. -/
def State.liveFab (s : State) (o : Nat) : Option Word :=
  let f := s.fab
  if o = 0 then some s.fabStat
  else if o = 0x14 then
    let sel := s.reg R.fabSetSel
    some (if fldN sel 8 8 < 160 then s.setWord (fin 3 (fldN sel 0 2)) (fldN sel 8 8) else 0)
  else if 0x20 ≤ o ∧ o < 0x30 then some f.crc[fin 3 ((o - 0x20) / 4)]
  else if o = 0x40 then some s.fabTripStat
  else if o = 0x44 then some s.fabCloseStat
  else if o = 0x48 then some 0
  else if o = 0x50 then some s.fabRbStat
  else if o = 0x54 then some (f.safeLvl.setWidth 32 ||| bitAt f.safeValid 31)
  else if o = 0x60 then some (lo32 f.tu)
  else if o = 0x64 then some (hi32 f.tu)
  else if o = 0x68 then some s.fabIntStat
  else if o = 0x6C then some f.timers
  else if 0x100 ≤ o ∧ o < 0x160 then
    let a := f.integ[fin 11 ((o - 0x100) / 8)].acc
    some (if o % 8 = 0 then BitVec.ofNat 32 a else BitVec.ofNat 32 (a / 2 ^ 32 % 65536))
  else if 0x200 ≤ o ∧ o < 0x280 then some f.timer[fin 31 ((o - 0x200) / 4)].cnt
  else if 0x280 ≤ o ∧ o < 0x2A0 then some (s.cellWord ((o - 0x280) / 4))
  else if o = 0x340 then some s.fabBstStat
  else if 0x360 ≤ o ∧ o < 0x370 then some (s.kdrvWord (fin 3 ((o - 0x360) / 4)))
  else none

/-! SCN, REC, LOG. -/

/-- SCN_STAT (Table SCAN-7). -/
def State.scnStat (s : State) : Word :=
  at_ (match s.scan.phase with | .idle => 0 | .latch => 1 | .execute => 2 | .commit => 3) 0 ||| bitAt s.scan.run 3 |||
  bitAt s.scan.reexec 4 ||| bitAt s.scan.ovrPrev 8 ||| at_ (min 3 (s.scan.hist.foldl (· + ·) 0)) 16

/-- Live words of SCN. -/
def State.liveScn (s : State) (o : Nat) : Option Word :=
  match o with
  | 0x00 => some s.scnStat
  | 0x24 => some (at_ ((List.range 512).countP (fun l => s.scan.dirty.getLsbD l)) 0 ||| bitAt s.scan.good 16)
  | _ => none

/-- REC_STAT (Table REC-8). -/
def State.recStat (s : State) : Word :=
  let r := s.recd
  let sealed : BitVec 8 := boolBits 8 (r.slot.toList.map (fun x => x.st == .sealed))
  let nslot := match s.recCfg with
    | none => 0
    | some c => c.nslot
  let free := (List.finRange 8).countP (fun n => decide (n.val < nslot) && (r.slot[n]).st == .free)
  let state := match r.active with
    | none => if r.arm then 3 else 0
    | some n => if (r.slot[n]).st = .post then 2 else 1
  let noCells := match s.recCfg with
    | none => true
    | some c => s.cells c == 0
  at_ (match r.active with | none => 0 | some n => n.val) 0 ||| at_ state 4 ||| at_ free 8 ||| (sealed.setWidth 32 <<< 16) |||
  at_ (match r.order with | [] => 0 | n :: _ => n.val) 24 ||| bitAt (!r.order.isEmpty) 27 ||| bitAt noCells 28

/-- Live words of REC and BRM. -/
def State.liveRec (s : State) (o : Nat) : Option Word :=
  let cfg (f : RecCfg → Word) : Option Word := some (match s.recCfg with
    | none => 0
    | some c => if s.blockOn 13 then f c else 0)
  let q := s.recd.seqs[fin 3 (o % 16 / 4)]
  match o with
  | 0x00 => cfg (fun c => at_ c.nslot 0 ||| at_ c.rate 4 ||| at_ c.nch 8 ||| at_ c.prePct 16)
  | 0x04 => cfg (fun c => at_ c.post 0)
  | 0x08 => cfg (fun c => at_ c.slotBytes 0)
  | 0x0C => cfg (fun c => at_ c.cap 0)
  | 0x10 => cfg (fun c => at_ c.pre 0)
  | 0x14 => cfg (fun c => at_ c.cell 0)
  | 0x18 => cfg (fun c => at_ (s.cells c % 65536) 0)
  | 0x20 => some (bitAt s.recd.arm 0)
  | 0x24 => some s.recStat
  | 0x28 => some s.recd.recNo
  | 0x2C => some (at_ (s.recd.wptr % 65536) 0)
  | 0x30 => some s.recd.dead
  | 0x34 => some s.recd.missed
  | 0x100 => some (s.recd.brmCtl.setWidth 32)
  | 0x104 => some (s.brmStat &&& 0xFFFF)
  | 0x110 | 0x114 | 0x118 | 0x11C => some (q.dwell.setWidth 32 ||| (q.occ.setWidth 32 <<< 16))
  | 0x120 => some (s.recd.swtrig.setWidth 32)
  | _ => none

/-- Live words of LOG. -/
def State.liveLog (s : State) (o : Nat) : Option Word :=
  let l := s.log
  if o = 0 then
    some (at_ l.staged.length 0 ||| bitAt l.full 8 ||| bitAt l.clearing 9 ||| bitAt l.flushErr 10 |||
      bitAt (decide (s.reserveNeed ≤ l.reserve)) 11)
  else if o = 4 then some (if s.mode.past11 then BitVec.ofNat 32 s.entries else 0)
  else if o = 8 then
    some (match s.memCfg with
      | none => 0
      | some m => if s.mode.past11 then BitVec.ofNat 32 m.logBase else 0)
  else if o = 0xC then some (BitVec.ofNat 32 l.wptr)
  else if o = 0x10 then some l.lost
  else if o = 0x20 then some (l.cursor.setWidth 32)
  else if o = 0x24 then
    some (at_ (match l.win with | .ended => 0 | .fetching => 1 | .valid => 2 | .err => 3) 0 ||| bitAt l.inStage 2 ||| bitAt l.crcBad 3)
  else if o = 0x30 ∨ o = 0x34 ∨ o = 0x70 then some 0
  else if 0x40 ≤ o ∧ o < 0x60 then some (if l.win = .valid then l.words.getD ((o - 0x40) / 4) 0 else 0)
  else none

/-! EXC, ICU, SCH, RING. -/

/-- Live words of EXC and ICU. -/
def State.liveExc (s : State) (o : Nat) : Option Word :=
  if o = 0x10 then some (match s.arbiter 0 with
    | none => 0
    | some (n, l) => at_ n 0 ||| bitAt true 7 ||| at_ l.toNat 8)
  else if 0x100 ≤ o ∧ o < 0x110 then
    some (boolBits 32 ((List.range 32).map (fun b => s.irqPend (32 * ((o - 0x100) / 4) + b))))
  else if 0x110 ≤ o ∧ o < 0x120 then some (s.core.act.extractLsb' (8 * (o - 0x110)) 32)
  else none

/-- The RUNNING slot's thread. -/
def State.selfThread (s : State) : Option ThreadSt := s.sch.run.map (fun t => s.sch.thread[t])

/-- SCH_SLOTt. -/
def ThreadSt.word (x : ThreadSt) : Word := at_ x.prio.toNat 0 ||| at_ x.state.toNat 4 ||| bitAt x.all 6

/-- Ticks left of a wait (SCH_SLOT_TMOt). -/
def State.tmoLeft (s : State) (x : ThreadSt) : Nat :=
  match x.tmo with
  | none => 0
  | some t => t - s.tickNow

/-- Slots that are READY. -/
def State.readyMask (s : State) : DWord := boolBits 64 (s.sch.thread.toList.map (fun x => x.state == 1))

/-- Live words of SCH. -/
def State.liveSch (s : State) (o : Nat) : Option Word :=
  let h := s.sch
  let t := fin 63 (o % 0x100 / 4)
  let self (f : ThreadSt → Word) : Option Word := some (match s.selfThread with
    | none => 0
    | some x => f x)
  let slot (x : Option (Fin 64)) : Nat := match x with
    | none => 0x40
    | some t => t.val
  if o = 0 then some (bitAt h.en 0)
  else if o = 8 then
    some (at_ (slot h.run) 0 ||| at_ (slot h.sel) 8 ||| bitAt h.valid 15 |||
      at_ (match s.selfThread with | none => 0 | some x => x.prio.toNat) 16 ||| bitAt h.wb.isSome 23 |||
      at_ (match h.wb with | none => 0 | some t => t.val) 24)
  else if o = 0x10 then self (fun x => x.mask)
  else if o = 0x14 ∨ o = 0x18 then some 0
  else if o = 0x1C then self (fun x => x.res.setWidth 32)
  else if o = 0x20 then self (fun x => x.matched)
  else if o = 0x24 then some (BitVec.ofNat 32 (s.tickNow - h.tick0))
  else if o = 0x40 then some (lo32 s.readyMask)
  else if o = 0x44 then some (hi32 s.readyMask)
  else if o = 0x50 then some (lo32 h.ringEvt)
  else if o = 0x54 then some (hi32 h.ringEvt)
  else if 0x100 ≤ o ∧ o < 0x200 then some (h.thread[t]).word
  else if 0x200 ≤ o ∧ o < 0x300 then some (h.thread[t]).mask
  else if 0x300 ≤ o ∧ o < 0x400 then some (BitVec.ofNat 32 (s.tmoLeft h.thread[t]))
  else if 0x400 ≤ o ∧ o < 0x500 then some (h.thread[t]).flags
  else if 0x500 ≤ o ∧ o < 0x600 then some (h.thread[t]).flags
  else none

/-- Live words of the rings. -/
def State.liveRing (s : State) (o : Nat) : Option Word :=
  let r := fin 63 (o / 64)
  let x := s.sch.ring[r]
  let c := s.ringCfg r
  let k := o % 64
  let on := s.blockOn 13
  if k = 0 then
    some (if on then bitAt x.ien 1 ||| bitAt x.flagEn 2 ||| at_ c.thread.val 8 ||| at_ c.bit.val 16 ||| at_ c.role 24 else 0)
  else if k = 4 then some (at_ x.chip.length 0 ||| (x.stat.setWidth 32 <<< 8) ||| at_ x.lens.length 16)
  else if k = 8 then some (at_ (min x.used 65535) 0 ||| at_ (min (s.ringFree r) 65535) 16)
  else if k = 0xC ∨ k = 0x10 then some 0
  else if 0x18 ≤ k ∧ k < 0x34 then some (x.item.getD ((k - 0x18) / 4) 0)
  else if k = 0x34 then some (x.refused.setWidth 32 ||| (x.dropped.setWidth 32 <<< 16))
  else if k = 0x38 then some (if on then BitVec.ofNat 32 c.spill else 0)
  else if k = 0x3C then some (if on then BitVec.ofNat 32 c.words else 0)
  else none

/-! ZVE, SNT, UMU, HMT. -/

/-- ZVE_STAT (Table ZVE-12); the idle self-test is one step of the model. -/
def State.zveStat (s : State) : Word :=
  let z := s.zve
  at_ z.held 0 ||| (match z.run with
    | none => 0
    | some r => bitAt true 16 ||| (match r.chain.links.getLast? with
      | none => 0
      | some l => l.tag.setWidth 32 <<< 8)) |||
  at_ z.coverage 17 ||| at_ (min 7 z.nRetired) 19 ||| bitAt (z.queue.any (fun c => c.susp)) 22 ||| (z.tag.setWidth 32 <<< 24)

/-- ZVE_SHADOW: the shadow and the lane it checks at this rotation step. -/
def State.zveShadow (s : State) : Word :=
  let z := s.zve
  let none5 : Nat := 0x1F
  match z.find 1 with
  | none => at_ none5 0 ||| at_ none5 8 ||| at_ z.step 16
  | some p =>
    let chk := if h : z.step < 16 then (z.map[z.step]'h).val else match z.find 2 with
      | none => none5
      | some q => q.val
    at_ p.val 0 ||| at_ chk 8 ||| at_ z.step 16

/-- Live words of ZVE. -/
def State.liveZve (s : State) (o : Nat) : Option Word :=
  let z := s.zve
  let lanes : DWord := (List.finRange 18).foldl (fun (w : DWord) (p : Fin 18) =>
    w ||| (((z.lane[p]).setWidth 64 : DWord) <<< (2 * p.val))) 0
  match o with
  | 0x00 => some s.zveStat
  | 0x08 => some 0
  | 0x10 => some (lo32 lanes)
  | 0x14 => some (hi32 lanes)
  | 0x18 | 0x1C | 0x20 | 0x24 =>
    let j := (o - 0x18) / 4
    some ((List.range 4).foldl (fun w i => w ||| at_ (z.map[fin 15 (4 * j + i)]).val (8 * i)) 0)
  | 0x28 => some s.zveShadow
  | 0x30 => some (lo32 z.busy)
  | 0x34 => some (hi32 z.busy)
  | _ => none

/-- UTC seconds in 48 bits. -/
def State.utc48 (s : State) : DWord := (BitVec.ofInt 48 s.utc).setWidth 64

/-- Live words of SNT. -/
def State.liveSnt (s : State) (o : Nat) : Option Word :=
  let w := s.wnt
  match o with
  | 0x00 => some (bitAt (w.st == .awake) 0 ||| bitAt (w.st == .halted) 1 ||| bitAt ((s.iob 0xF000).getLsbD 0) 2 ||| bitAt w.infull 3 |||
      bitAt (w.out.getLsbD 0) 4 ||| bitAt w.uart[0].core 8 ||| bitAt w.uart[1].core 9 ||| at_ w.rstCause.toNat 12 |||
      ((s.iob 0xF180).setWidth 32 <<< 24))
  | 0x30 | 0x60 => some 0
  | 0x78 => some (BitVec.ofNat 32 s.uid39)
  | 0x7C => some (BitVec.ofNat 32 (s.uid39 / 2 ^ 32))
  | 0x88 => some (lo32 s.utc48)
  | 0x8C => some (hi32 s.utc48)
  | 0x90 => some s.winterStatus
  | 0x94 => some (w.loc.setWidth 32)
  | _ => none

/-- A maximum-demand pair's words. -/
def mdWord (x : Option (Word × Word)) (start : Bool) : Word :=
  match x with
  | none => if start then 0 else 0x80000000
  | some d => if start then d.2 else d.1

/-- Live words of UMU and HMT. -/
def State.liveUmu (s : State) (o : Nat) : Option Word :=
  let u := s.umu
  let d := u.data
  let cfg (f : UmuCfg → Word) : Option Word := some (match s.umuCfg with
    | none => 0
    | some c => if s.blockOn 13 then f c else 0)
  let start := o % 8 == 4
  if o = 0 then
    some (at_ u.tariff.val 0 ||| at_ (if s.umuCfg.isSome then dayType d.sched s.localSec else 0) 4 ||| bitAt u.lost 8 |||
      bitAt u.stale 9 |||
      bitAt (u.opened && u.part) 10 ||| bitAt u.pend.isSome 11 ||| bitAt s.umuCfg.isSome 12)
  else if o = 4 then cfg (fun c => at_ c.demandMin 0)
  else if o = 8 then cfg (fun c => c.group[0].setWidth 32 ||| (c.group[1].setWidth 32 <<< 16))
  else if o = 0xC then cfg (fun c => c.group[2].setWidth 32 ||| (c.group[3].setWidth 32 <<< 16))
  else if o = 0x10 then some (lo32 d.eint)
  else if o = 0x14 then some (hi32 d.eint)
  else if o = 0x18 then some d.start
  else if o = 0x20 then some (d.bill.setWidth 32)
  else if o = 0x24 ∨ o = 0x38 then some 0
  else if o = 0x34 then some (u.staged.getD (fldN (s.reg R.umuSel) 0 7) 0)
  else if o = 0x3C then some (schedCrc d.sched)
  else if 0x100 ≤ o ∧ o < 0x200 then
    let a := d.acc[fin 31 ((o - 0x100) / 8)]
    some (if start then hi32 a else lo32 a)
  else if 0x200 ≤ o ∧ o < 0x240 then some (mdWord d.md[fin 7 ((o - 0x200) / 8)] start)
  else if 0x240 ≤ o ∧ o < 0x280 then some (mdWord d.mdp[fin 7 ((o - 0x240) / 8)] start)
  else if 0x8000 ≤ o ∧ o < 0x8010 then some (s.use.meter[fin 3 ((o - 0x8000) / 4)]).sec
  else if 0x8010 ≤ o ∧ o < 0x8020 then some (s.use.meter[fin 3 ((o - 0x8010) / 4)]).cfg
  else if o = 0x8024 ∨ o = 0x8040 then some 0
  else if o = 0x8028 then
    some (s.gates.setWidth 32 ||| bitAt s.use.lost 4 ||| bitAt s.time.coarse 5 ||| bitAt s.use.permit 8 ||| bitAt s.use.immob 9 |||
      bitAt s.use.cut 10 ||| (s.use.thStat.setWidth 32 <<< 16))
  else if o = 0x8030 then some (lo32 (s.use.start.setWidth 64))
  else if o = 0x8034 then some (hi32 (s.use.start.setWidth 64))
  else if o = 0x8038 then some (lo32 (s.use.till.setWidth 64))
  else if o = 0x803C then some (hi32 (s.use.till.setWidth 64))
  else none

/-! SEC, IEU and vault, ESU, SAF, XSPI and mover, interfaces, DBG. -/

/-- Live words of SEC. -/
def State.liveSec (s : State) (o : Nat) : Option Word :=
  let k := s.key
  if o = 0 then
    some (bitAt k.authValid 0 ||| bitAt k.authBusy 1 ||| bitAt k.authLock 2 |||
      at_ (if k.authValid && s.mode.mode != .service then min 65535 (s.secondsTo k.authEnd) else 0) 16)
  else if o = 0xC then some k.alarms
  else if o = 0x10 then some k.alarmAddr
  else if 0x20 ≤ o ∧ o < 0x40 then some (k.chal.getD ((o - 0x20) / 4) 0)
  else if o = 0x44 then some (k.token.getD (fldN (s.reg 0x00100040) 0 6) 0)
  else if o = 0x48 then some 0
  else if o = 0x4C then some (k.authRes.setWidth 32)
  else none

/-- VAULT_STATE code of a slot. -/
def SlotState.code : SlotState → Nat
  | .empty => 0 | .staged => 1 | .active => 2 | .revoked => 3

/-- Live words of IEU and vault. -/
def State.liveVault (s : State) (o : Nat) : Option Word :=
  let k := s.key
  if o = 0 then some s.ieuStat
  else if 0x10 ≤ o ∧ o < 0x40 then some k.wc[fin 11 ((o - 0x10) / 4)]
  else if o = 0x40 then some ((List.finRange 16).foldl (fun w n => w ||| at_ (k.vault[n]).state.code (2 * n.val)) 0)
  else if o = 0x44 then some ((k.vault[14]).role.setWidth 32 ||| ((k.vault[15]).role.setWidth 32 <<< 8))
  else if 0x80 ≤ o ∧ o < 0xC0 then
    let v := k.vault[fin 15 ((o - 0x80) / 4)]
    some (if v.state = .empty then 0 else kcv v.key)
  else if o = 0x120 then some 0
  else if 0x100 ≤ o ∧ o < 0x120 then some 0
  else if o = 0x128 then some (bitAt k.vop.isSome 0 ||| at_ k.vres.toNat 1)
  else none

/-- Live words of ESU. -/
def State.liveEsu (s : State) (o : Nat) : Option Word :=
  let e := s.esu
  if o = 0 then
    some ((srcMask e.healthy).setWidth 32 ||| (e.isolated.setWidth 32 <<< 8) ||| bitAt e.condRun 16 ||| bitAt e.drbgRun 17 |||
      bitAt e.katSha 18 ||| bitAt e.katDrbg 19)
  else if o = 4 then some 0
  else if o = 0xC then some (at_ (e.fifo.foldl (fun n b => n + b.length) 0) 0)
  else if o = 0x14 then some (at_ e.dfifo.length 0 ||| (e.reseeds.setWidth 32 <<< 16))
  else if 0x20 ≤ o ∧ o < 0x34 then
    let x := e.src[fin 4 ((o - 0x20) / 4)]
    some (x.st.setWidth 32 ||| (x.test.setWidth 32 <<< 2) ||| (x.fails.setWidth 32 <<< 8))
  else none

/-- Live words of SAF. -/
def State.liveSaf (s : State) (o : Nat) : Option Word :=
  let f := s.saf
  match o with
  | 0x00 => some (bitAt f.deg.isSome 0 ||| bitAt (!s.wdtHeld) 8 ||| bitAt (!s.wdtHeld && f.first) 9 ||| bitAt f.monOk 10)
  | 0x10 => some (match f.deg with
      | none => 0
      | some (t, h) => BitVec.ofNat 32 (s.secondsTo (t + BitVec.ofNat 64 (h * 360000000000))))
  | 0x20 => some (f.cfgClosed.setWidth 32 ||| (f.cfgOpen.setWidth 32 <<< 8) ||| bitAt f.lock 31)
  | 0x24 | 0x30 => some 0
  | 0x28 => some (f.good.setWidth 32 ||| (f.viol.setWidth 32 <<< 8) ||| (f.last.setWidth 32 <<< 16) ||| bitAt f.next 19)
  | 0x2C => some (if f.held then 0 else BitVec.ofNat 32 s.wdtE)
  | 0x40 => some (f.ecc0.setWidth 32 ||| (f.ecc1.setWidth 32 <<< 16))
  | 0x44 => some (f.ecc2.setWidth 32 ||| (f.ecc3.setWidth 32 <<< 16))
  | _ => none

/-- Live words of XSPI and the mover. -/
def State.liveMov (s : State) (o : Nat) : Option Word :=
  let f := s.key.flash
  let busy (cs1 : Bool) : Bool := s.key.mov.toList.any (fun m =>
    m.busy && ((if m.op = 1 then m.src else m.dst).toNat % 2 ^ 28 ≥ 2 ^ 27) == cs1)
  if o = 0 then
    some (bitAt f.ok0 0 ||| bitAt f.ok1 1 ||| bitAt (busy false || s.log.flush.isSome || s.log.clearing) 2 |||
      bitAt (busy true) 3 ||| bitAt f.discErr 4 ||| (f.status.setWidth 32 <<< 8))
  else if o = 4 then some (at_ f.size0 0 ||| at_ f.size1 8)
  else if 0x100 ≤ o ∧ o < 0x200 then
    let m := s.key.mov[fin 7 ((o - 0x100) / 32)]
    let k := o % 32
    if k = 0x10 then some m.stat else if k = 0x14 then some (BitVec.ofNat 32 m.done) else if k = 0x18 then some 0
    else none
  else none

/-- Pair of a CAN controller at a register offset. -/
def CanSt.pair (c : CanSt) (o : Nat) : DWord :=
  match o with
  | 0x30 => c.rxpend
  | 0x38 => c.txreq
  | 0x40 => c.txabort
  | _ => c.txdone

/-- Live words of a CAN controller. -/
def State.liveCan (s : State) (k : Fin 2) (o : Nat) : Option Word :=
  let c := s.ifc.can[k]
  if o = 0x10 then some (at_ c.st.toNat 0 ||| at_ c.lec.toNat 8 ||| at_ (min c.tec 255) 16 ||| at_ (min c.recv 255) 24)
  else if o = 0x14 then some (c.lost.setWidth 32)
  else if 0x30 ≤ o ∧ o < 0x50 then
    let p := c.pair (o / 8 * 8)
    some (if o % 8 = 0 then lo32 p else hi32 p)
  else none

/-- The core die owns UART u's pins (R587). -/
def State.uartOwned (s : State) (u : Fin 4) : Bool :=
  if u.val < 2 then true else (s.wnt.uart[fin 1 (u.val - 2)]).core

/-- The boundary register has the interfaces' pins, or the interface's own enable is 0. -/
def State.ifcOn (s : State) (ctl : Nat) : Bool := s.running && !s.mode.pf && !s.bscan && bit (s.reg ctl) 0

/-- Live words of a UART, an SPI master, an I2C controller. -/
def State.liveUart (s : State) (u : Fin 4) (o : Nat) : Option Word :=
  let x := s.ifc.uart[u]
  if o = 8 then
    some (at_ x.tx.length 0 ||| at_ x.rx.length 8 |||
      bitAt (s.ifcOn (0x00160000 + 0x1000 * u.val) && s.uartOwned u && !x.tx.isEmpty) 16 ||| bitAt (s.uartOwned u) 17 |||
      bitAt (decide (u.val = 3) && s.ifc.cts3) 18)
  else if o = 0x1C then some (x.lost.setWidth 32)
  else none
def State.liveSpi (s : State) (k : Fin 2) (o : Nat) : Option Word :=
  let x := s.ifc.spi[k]
  if o = 4 then
    some (at_ x.tx.length 0 ||| at_ x.rx.length 8 ||| bitAt (s.ifcOn (0x00170000 + 0x1000 * k.val) && !x.tx.isEmpty) 16)
  else if o = 8 then some 0
  else none
def State.liveI2c (s : State) (k : Fin 2) (o : Nat) : Option Word :=
  let x := s.ifc.i2c[k]
  if o = 4 then some 0
  else if o = 0xC then
    some (bitAt x.busy 0 ||| bitAt x.nack 1 ||| bitAt x.arb 2 ||| bitAt x.stuck 3 ||| at_ x.cmd.length 8 ||| at_ x.rx.length 16)
  else none

/-- GPIO levels (R592): an output shows its own level. -/
def State.gpioIn (s : State) : BitVec 12 :=
  let dir : Byte := fld (s.reg 0x001A0000) 0 8
  let out : Byte := fld (s.reg 0x001A0004) 0 8
  let core : Byte := (out &&& dir) ||| (s.ifc.gin &&& ~~~dir)
  core.setWidth 12 ||| (s.wgpio.setWidth 12 <<< 8)

/-- Live words of GPIO. -/
def State.liveGpio (s : State) (o : Nat) : Option Word :=
  match o with
  | 0x08 | 0x0C => some 0
  | 0x10 => some (s.gpioIn.setWidth 32)
  | _ => none

/-- Live words of DBG. -/
def State.liveDbg (s : State) (o : Nat) : Option Word :=
  let d := s.dbg
  if o = 0 then
    some (at_ d.lock.toNat 0 ||| bitAt d.unlocked 2 ||| bitAt s.core.halt 3 ||| bitAt s.provisioning 4 ||| bitAt s.bscan 5 |||
      bitAt d.authLock 6 ||| at_ (if d.unlocked then min 65535 (s.secondsTo d.unlockEnd) else 0) 16)
  else if o = 4 ∨ o = 0x48 ∨ o = 0x50 ∨ o = 0x54 then some 0
  else if 0x20 ≤ o ∧ o < 0x40 then some (d.chal.getD ((o - 0x20) / 4) 0)
  else if o = 0x44 then some (d.token.getD (fldN (s.reg 0x001B0040) 0 6) 0)
  else if o = 0x4C then some (d.authRes.setWidth 32)
  else none

/-- The word of a register that is not stored as written, by its offset. -/
def State.live (s : State) (o : Nat) : Option Word :=
  let x := o % 0x10000
  match o / 0x10000 with
  | 0x00 => s.liveSys x
  | 0x01 => s.liveIsl x
  | 0x02 => s.liveCfg x
  | 0x03 => s.livePwr x
  | 0x04 => s.liveAfe x
  | 0x05 => s.liveFlt x
  | 0x06 => s.liveFab x
  | 0x07 => s.liveScn x
  | 0x08 => s.liveRec x
  | 0x09 => s.liveLog x
  | 0x0A => s.liveExc x
  | 0x0B => s.liveSch x
  | 0x0C => s.liveRing x
  | 0x0D => s.liveZve x
  | 0x0E => s.liveSnt x
  | 0x0F => s.liveUmu x
  | 0x10 => s.liveSec x
  | 0x11 => s.liveVault x
  | 0x12 => s.liveEsu x
  | 0x13 => s.liveSaf x
  | 0x14 => s.liveCan 0 x
  | 0x15 => s.liveCan 1 x
  | 0x16 => s.liveUart (fin 3 (x / 0x1000)) (x % 0x1000)
  | 0x17 => s.liveSpi (fin 1 (x / 0x1000)) (x % 0x1000)
  | 0x18 => s.liveI2c (fin 1 (x / 0x1000)) (x % 0x1000)
  | 0x19 => s.liveMov x
  | 0x1A => s.liveGpio x
  | 0x1B => s.liveDbg x
  | _ => none

/-- The word a register shows. -/
def State.word (s : State) (o : Nat) : Word := (s.live o).getD (s.reg o)

end Sys2Proof.Machine
end

