-- ==== Sys2Proof/Machine/Iface.lean ====
section
/-! DEFINITION. The external interfaces: CAN, UART, SPI, I2C and GPIO (21). -/

namespace Sys2Proof.Machine

/-- Register at an offset of CAN controller k, UART u, SPI master k, I2C controller k; of message buffer b. -/
def R.can (k : Fin 2) (o : Nat) : Nat := 0x00140000 + 0x10000 * k.val + o
def R.uart (u : Fin 4) (o : Nat) : Nat := 0x00160000 + 0x1000 * u.val + o
def R.spi (k : Fin 2) (o : Nat) : Nat := 0x00170000 + 0x1000 * k.val + o
def R.i2c (k : Fin 2) (o : Nat) : Nat := 0x00180000 + 0x1000 * k.val + o
def R.mb (k : Fin 2) (b : Fin 64) (o : Nat) : Nat := R.can k (0x100 + 128 * b.val + o)
def R.gpio (o : Nat) : Nat := 0x001A0000 + o

/-- Registers of PERIPH can be reached: the core die is powered and no power-fail has stopped it. -/
def State.regsOn (s : State) : Bool := s.mode.coreOn && !s.mode.pf

/-! CAN. -/

/-- CAN controller k changed. -/
def State.putCan (s : State) (k : Fin 2) (c : CanSt) : State := { s with ifc := { s.ifc with can := vput s.ifc.can k c } }

/-- The controller takes part in bus traffic. -/
def State.canOn (s : State) (k : Fin 2) : Bool :=
  s.ifcOn (R.can k 0) && ((s.ifc.can[k]).st == 0 || (s.ifc.can[k]).st == 1)

/-- Ranges of a nominal bit timing word: SJW at most TSEG2, TSEG1 at least 2, at most 1 Mbit/s (R579). -/
def nbtOk (v : Word) : Bool :=
  let pre := fldN v 0 8 + 1
  let t1 := fldN v 8 8 + 1
  let t2 := fldN v 16 7 + 1
  decide (2 ≤ t1 ∧ fldN v 24 7 + 1 ≤ t2 ∧ 40 ≤ pre * (1 + t1 + t2))

/-- Ranges of a data bit timing word: at most 8 Mbit/s. -/
def dbtOk (v : Word) : Bool :=
  let pre := fldN v 0 5 + 1
  let t1 := fldN v 8 5 + 1
  let t2 := fldN v 16 4 + 1
  decide (fldN v 24 4 + 1 ≤ t2 ∧ 5 ≤ pre * (1 + t1 + t2))

/-- CAN_NBT or CAN_DBT written (R579). -/
def State.canTiming (s : State) (k : Fin 2) (data : Bool) (v : Word) : State :=
  if bit (s.reg (R.can k 0)) 0 || !(if data then dbtOk v else nbtOk v) then s.evt (R.can k 0x20) 6
  else if data then s.setReg (R.can k 8) (v &&& 0x8F0F1F1F) else s.setReg (R.can k 4) (v &&& 0x7F7FFFFF)

/-- CAN_CTL written: EN 0 gives INIT, EN 1 leaves it with both counters 0 (log entry 52), or asks for the recovery from
bus-off (R578). -/
def State.canCtl (s : State) (k : Fin 2) (v : Word) : State :=
  let c := s.ifc.can[k]
  let s1 := s.setReg (R.can k 0) (v &&& 0x1F)
  if !bit v 0 then s1.putCan k { c with st := 3, recSw := false }
  else if c.st = 3 then s1.putCan k { c with st := 0, tec := 0, recv := 0, recSw := false }
  else if c.st = 2 then s1.putCan k { c with recSw := true }
  else s1

/-- The controller stops and enters INIT: EN is 0 (R576). -/
def State.canInit (s : State) (k : Fin 2) : State := s.canCtl k (s.reg (R.can k 0) &&& 0x1E)

/-- Fault confinement after TEC or REC has changed: a passive controller whose counters are both below 128 is active. -/
def CanSt.calm (c : CanSt) : CanSt := if c.st = 1 ∧ c.tec < 128 ∧ c.recv < 128 then { c with st := 0 } else c

/-- Buffer b is an RX buffer whose filter matches an identifier word (R580). -/
def State.mbMatch (s : State) (k : Fin 2) (id : Word) (b : Fin 64) : Bool :=
  let fid := s.reg (R.mb k b 4)
  fldN (s.reg (R.mb k b 0)) 0 2 == 1 && bit fid 29 == bit id 29 &&
    ((id ^^^ fid) &&& s.reg (R.mb k b 8) &&& 0x1FFFFFFF) == 0

/-- A frame stored in buffer b (R580, R583). -/
def State.mbStore (s : State) (k : Fin 2) (b : Fin 64) (id ctrl stamp : Word) (data : List Word) (ovr : Bool) : State :=
  let s1 := ((s.setReg (R.mb k b 0xC) (id &&& 0x7FFFFFFF)).setReg (R.mb k b 0x10) (ctrl &&& 0x7F)).setReg (R.mb k b 0x14) stamp
  let s2 := (List.range 16).foldl (fun (t : State) j => t.setReg (R.mb k b (0x40 + 4 * j)) (data.getD j 0)) s1
  let s3 := if ovr then s2.orReg (R.mb k b 0) 0x100 else s2
  (s3.putCan k { s3.ifc.can[k] with rxpend := setBit (s3.ifc.can[k]).rxpend b.val true }).evt (R.can k 0x20) 0

/-- CAN_FRAME_RECEIVED (R580): a validated frame; a classical controller takes no FD frame (log entry 52). -/
def State.canRx (s : State) (k : Fin 2) (id ctrl stamp : Word) (data : List Word) : State :=
  if !s.canOn k || (bit ctrl 4 && !bit (s.reg (R.can k 0)) 1) then s
  else
    let c := s.ifc.can[k]
    let good := if 127 < c.recv then 127 else c.recv - 1
    let s1 := s.putCan k ({ c with recv := good, lec := 0 } : CanSt).calm
    let hits := (List.finRange 64).filter (s.mbMatch k id)
    match hits.find? (fun b => !c.rxpend.getLsbD b.val) with
    | some b => s1.mbStore k b id ctrl stamp data false
    | none =>
      match hits.find? (fun b => !bit (s.reg (R.mb k b 0)) 2) with
      | some b => s1.mbStore k b id ctrl stamp data true
      | none =>
        match hits with
        | [] => s1
        | b :: _ =>
          let n := satInc c.lost
          ((s1.putCan k { s1.ifc.can[k] with lost := n }).evt (R.can k 0x20) 4).sayRate 10000000 k.val .ifc 0x9004
            (BitVec.ofNat 32 k.val) (BitVec.ofNat 32 b.val) (n.setWidth 32) 0

/-- CAN_TXREQ written (R581). -/
def State.canTxReq (s : State) (k : Fin 2) (m : DWord) : State :=
  s.putCan k { s.ifc.can[k] with txreq := (s.ifc.can[k]).txreq ||| m }

/-- A transmission of buffer b ends with TXRES r: 1 DONE, 2 ABORTED. -/
def State.mbEnd (s : State) (k : Fin 2) (b : Fin 64) (r : Nat) : State :=
  let c := s.ifc.can[k]
  let cfg := s.reg (R.mb k b 0) &&& 0xFFFFF3FF ||| at_ r 10
  let late := r == 1 && c.txabort.getLsbD b.val
  let s1 := (s.setReg (R.mb k b 0) (cfg ||| bitAt late 9)).putCan k
    { c with txreq := setBit c.txreq b.val false, txabort := setBit c.txabort b.val false,
             txdone := if r = 1 then setBit c.txdone b.val true else c.txdone }
  s1.evt (R.can k 0x20) (if r = 1 then 1 else 5)

/-- A requested TX buffer. -/
def State.mbTx (s : State) (k : Fin 2) (b : Fin 64) : Bool :=
  (s.ifc.can[k]).txreq.getLsbD b.val && fldN (s.reg (R.mb k b 0)) 0 2 == 2

/-- Arbitration order of a buffer's frame, lower first: base identifier, SRR or RTR, IDE, extension, RTR (ISO 11898-1). -/
def mbPrio (id : Word) : Nat :=
  let rtr := fldN id 30 1
  if bit id 29 then (((fldN id 18 11 * 2 + 1) * 2 + 1) * 2 ^ 18 + fldN id 0 18) * 2 + rtr
  else ((fldN id 0 11 * 2 + rtr) * 2) * 2 ^ 19

/-- The buffer offered next (R581): the highest priority, the lower index between equal ones. -/
def State.canPick (s : State) (k : Fin 2) : Option (Fin 64) :=
  (List.finRange 64).foldl (fun (best : Option (Fin 64)) b =>
    if s.mbTx k b then
      match best with
      | none => some b
      | some a => if mbPrio (s.reg (R.mb k b 0xC)) < mbPrio (s.reg (R.mb k a 0xC)) then some b else best
    else best) none

/-- CAN_FRAME_TRANSMITTED (R581 to R583). -/
def State.canTxDone (s : State) (k : Fin 2) (b : Fin 64) (stamp : Word) : State :=
  if s.canOn k && s.mbTx k b && !bit (s.reg (R.can k 0)) 4 then
    let c := s.ifc.can[k]
    ((s.putCan k ({ c with tec := c.tec - 1, lec := 0 } : CanSt).calm).setReg (R.mb k b 0x14) stamp).mbEnd k b 1
  else s

/-- CAN_TXABORT written (R582): onBus says that the buffer offered is on the bus. A bit whose buffer has no request has no
effect. -/
def State.canAbort (s : State) (k : Fin 2) (m : DWord) (onBus : Bool) : State :=
  let busy := if onBus && s.canOn k then s.canPick k else none
  (List.finRange 64).foldl (fun (t : State) (b : Fin 64) =>
    if !(m.getLsbD b.val && (t.ifc.can[k]).txreq.getLsbD b.val) then t
    else if busy = some b then t.putCan k { t.ifc.can[k] with txabort := setBit (t.ifc.can[k]).txabort b.val true }
    else t.mbEnd k b 2) s

/-- A frame of buffer b fails: an abort that waits ends it (R582). -/
def State.canFail (s : State) (k : Fin 2) (b : Fin 64) : State :=
  if s.mbTx k b && (s.ifc.can[k]).txabort.getLsbD b.val then s.mbEnd k b 2 else s

/-- CAN_FRAME_ERROR (R578): TEC rises by 8 for the transmitter of buffer b, REC by 1 or (big) by 8 for a receiver. -/
def State.canError (s : State) (k : Fin 2) (b : Option (Fin 64)) (lec : BitVec 3) (big : Bool) : State :=
  if !s.canOn k then s
  else
    let c := { s.ifc.can[k] with lec := lec }
    match b with
    | some b => if s.mbTx k b then (s.putCan k { c with tec := c.tec + 8 }).canFail k b else s
    | none => s.putCan k { c with recv := c.recv + (if big then 8 else 1) }

/-- CAN_ARBITRATION_LOST (R581, R582). -/
def State.canLost (s : State) (k : Fin 2) (b : Fin 64) : State := if s.canOn k then s.canFail k b else s

/-- CAN_PASSIVE: a counter has passed 127 (R578). -/
def State.canPassive (s : State) (k : Fin 2) : State :=
  let c := s.ifc.can[k]
  if s.canOn k && c.st == 0 && decide (128 ≤ c.tec ∨ 128 ≤ c.recv) then
    ((s.putCan k { c with st := 1 }).evt (R.can k 0x20) 2).sayRate 10000000 k.val .ifc 0x9001 (BitVec.ofNat 32 k.val)
      (BitVec.ofNat 32 c.tec) (BitVec.ofNat 32 c.recv) 0
  else s

/-- CAN_BUS_OFF: TEC has passed 255 (R578). -/
def State.canBusOff (s : State) (k : Fin 2) : State :=
  let c := s.ifc.can[k]
  if s.canOn k && decide (256 ≤ c.tec) then
    ((s.putCan k { c with st := 2, recSw := false }).evt (R.can k 0x20) 3).say .ifc 0x9002 (BitVec.ofNat 32 k.val)
      (BitVec.ofNat 32 c.tec) (c.lec.setWidth 32) 0
  else s

/-- CAN_RECOVER: 128 occurrences of 11 recessive bits, automatic or after a software write of EN (Table IFC-2). -/
def State.canRecover (s : State) (k : Fin 2) : State :=
  let c := s.ifc.can[k]
  let auto := bit (s.reg (R.can k 0)) 2
  if s.ifcOn (R.can k 0) && c.st == 2 && (auto || c.recSw) then
    (s.putCan k { c with st := 0, tec := 0, recv := 0, recSw := false }).say .ifc 0x9003 (BitVec.ofNat 32 k.val)
      (bitAt (!auto) 0) 0 0
  else s

/-! UART. -/

/-- UART u changed. -/
def State.putUart (s : State) (u : Fin 4) (x : UartSt) : State := { s with ifc := { s.ifc with uart := vput s.ifc.uart u x } }

/-- UART_DATA written: a byte pushed; with the FIFO full it is dropped (log entry 51). -/
def State.uartWrite (s : State) (u : Fin 4) (v : Word) : State :=
  let x := s.ifc.uart[u]
  if x.tx.length < 64 then s.putUart u { x with tx := x.tx ++ [fld v 0 8] } else s

/-- UART_DATA read (Table IFC-7). -/
def State.uartRead (s : State) (u : Fin 4) : Word × State :=
  let x := s.ifc.uart[u]
  match x.rx with
  | [] => (0x80000000, s)
  | (b, f) :: t => (b.setWidth 32 ||| (f.setWidth 32 <<< 8), s.putUart u { x with rx := t })

/-- A byte reaches the receiver (R584, R585). -/
def State.uartPush (s : State) (u : Fin 4) (v : Byte) (f : BitVec 3) : State :=
  let x := s.ifc.uart[u]
  let b := if bit (s.reg (R.uart u 0)) 1 then v &&& 0x7F else v
  if x.rx.length < 64 then
    let s1 := s.putUart u { x with rx := x.rx ++ [(b, f)] }
    let s2 := if fldN (s.reg (R.uart u 0x18)) 0 6 ≤ x.rx.length + 1 then s1.evt (R.uart u 0x10) 0 else s1
    if f = 0 then s2 else s2.evt (R.uart u 0x10) 3
  else
    let n := satInc x.lost
    ((s.putUart u { x with lost := n }).evt (R.uart u 0x10) 4).sayRate 10000000 u.val .ifc 0x9005 (BitVec.ofNat 32 u.val)
      (n.setWidth 32) 0 0

/-- UART u runs and owns its pins (R576, R587). -/
def State.uartOn (s : State) (u : Fin 4) : Bool := s.ifcOn (R.uart u 0) && s.uartOwned u

/-- UART_RX_CHARACTER; in loopback the pin is not received. -/
def State.uartRx (s : State) (u : Fin 4) (v : Byte) (ferr perr brk : Bool) : State :=
  if s.uartOn u && !bit (s.reg (R.uart u 0)) 6 then
    let par := fldN (s.reg (R.uart u 0)) 2 2
    s.uartPush u v (boolBits 3 [ferr, perr && (par == 1 || par == 2), brk])
  else s

/-- UART_TX_CHARACTER: the oldest byte has been sent (R584, R586); in loopback the receiver takes it (log entry 51). -/
def State.uartTx (s : State) (u : Fin 4) : State :=
  let x := s.ifc.uart[u]
  let ctl := s.reg (R.uart u 0)
  match x.tx with
  | [] => s
  | b :: t =>
    if s.uartOn u && !(u == 3 && bit ctl 5 && s.ifc.cts3) then
      let s1 := s.putUart u { x with tx := t }
      let s2 := if t.length ≤ fldN (s.reg (R.uart u 0x18)) 8 6 then s1.evt (R.uart u 0x10) 1 else s1
      if bit ctl 6 then s2.uartPush u b 0 else s2
    else s

/-- RX_TIMEOUT (R585). -/
def State.uartTimeout (s : State) (u : Fin 4) : State :=
  if s.uartOn u && !(s.ifc.uart[u]).rx.isEmpty then s.evt (R.uart u 0x10) 2 else s

/-- UART3_CTS_N changes (R586). -/
def State.cts3Change (s : State) (high : Bool) : State := { s with ifc := { s.ifc with cts3 := high } }

/-- UART3_RTS_N is driven high (R586). -/
def State.rts3 (s : State) : Bool :=
  s.uartOn 3 && bit (s.reg (R.uart 3 0)) 5 && decide (56 ≤ (s.ifc.uart[3]).rx.length)

/-! SPI. -/

def State.putSpi (s : State) (k : Fin 2) (x : SpiSt) : State := { s with ifc := { s.ifc with spi := vput s.ifc.spi k x } }

/-- Frame of BITS bits: the low bits of a word. -/
def State.spiFrame (s : State) (k : Fin 2) (v : Word) : Word :=
  let n := max 4 (fldN (s.reg (R.spi k 0)) 4 5 + 1)
  v &&& BitVec.ofNat 32 (2 ^ n - 1)

/-- SPI_TX written: a frame pushed; with the FIFO full it is dropped (log entry 51). -/
def State.spiWrite (s : State) (k : Fin 2) (v : Word) : State :=
  let x := s.ifc.spi[k]
  if x.tx.length < 16 then s.putSpi k { x with tx := x.tx ++ [v] } else s

/-- SPI_FRAME_DONE (R588): DONE, the received frame to the RX FIFO or lost. -/
def State.spiDone (s : State) (k : Fin 2) (rx : Word) : State :=
  let x := s.ifc.spi[k]
  match x.tx with
  | [] => s
  | _ :: t =>
    if s.ifcOn (R.spi k 0) then
      let s1 := (s.putSpi k { x with tx := t }).evt (R.spi k 0x10) 0
      if x.rx.length < 16 then s1.putSpi k { tx := t, rx := x.rx ++ [s.spiFrame k rx] } else s1.evt (R.spi k 0x10) 1
    else s

/-- SPI_RX read: pops, 0 when empty. -/
def State.spiRead (s : State) (k : Fin 2) : Word × State :=
  let x := s.ifc.spi[k]
  match x.rx with
  | [] => (0, s)
  | w :: t => (w, s.putSpi k { x with rx := t })

/-- SPIk_CS_N is low (R588): CS_LVL with CS_SW, else while frames wait. -/
def State.spiCs (s : State) (k : Fin 2) : Bool :=
  let ctl := s.reg (R.spi k 0)
  if bit ctl 9 then !bit ctl 10 else s.ifcOn (R.spi k 0) && !(s.ifc.spi[k]).tx.isEmpty

/-! I2C. -/

def State.putI2c (s : State) (k : Fin 2) (x : I2cSt) : State := { s with ifc := { s.ifc with i2c := vput s.ifc.i2c k x } }

/-- I2C_CMD written (Table IFC-7): another OP has no effect; with the FIFO full the command is dropped (log entry 51). -/
def State.i2cCmd (s : State) (k : Fin 2) (v : Word) : State :=
  let x := s.ifc.i2c[k]
  let op : BitVec 3 := fld v 8 3
  if 1 ≤ op.toNat ∧ op.toNat ≤ 5 ∧ x.cmd.length < 16 then s.putI2c k { x with cmd := x.cmd ++ [(op, fld v 0 8)] } else s

/-- The command at the front of controller k's FIFO, where it runs and the command has this OP. -/
def State.i2cFront (s : State) (k : Fin 2) (op : BitVec 3) : Option I2cSt :=
  let x := s.ifc.i2c[k]
  match x.cmd with
  | (o, _) :: t => if o = op ∧ s.ifcOn (R.i2c k 0) then some { x with cmd := t } else none
  | [] => none

/-- Queued commands after the next STOP (R590). -/
def dropToStop : List (BitVec 3 × Byte) → List (BitVec 3 × Byte)
  | [] => []
  | c :: t => if c.1 = 5 then t else dropToStop t

/-- Arbitration lost (R590). -/
def State.i2cArb (s : State) (k : Fin 2) (x : I2cSt) : State :=
  (s.putI2c k { x with cmd := dropToStop x.cmd, busy := false, arb := true }).evt (R.i2c k 0x10) 2

/-- I2C_START: the bus is taken; the status of an earlier transfer ends (log entry 51). -/
def State.i2cStart (s : State) (k : Fin 2) (lost : Bool) : State :=
  match s.i2cFront k 1 with
  | none => s
  | some x =>
    if lost then s.i2cArb k { x with nack := false, stuck := false }
    else s.putI2c k { x with busy := true, nack := false, arb := false, stuck := false }

/-- I2C_WRITE (R590): a byte not acknowledged ends the transfer with STOP. -/
def State.i2cWrite (s : State) (k : Fin 2) (ack lost : Bool) : State :=
  match s.i2cFront k 2 with
  | none => s
  | some x =>
    if lost then s.i2cArb k x
    else if ack then s.putI2c k x
    else (s.putI2c k { x with cmd := dropToStop x.cmd, busy := false, nack := true }).evt (R.i2c k 0x10) 1

/-- I2C_READ_ACK, I2C_READ_NACK (R589): waits while the RX FIFO is full. -/
def State.i2cReadByte (s : State) (k : Fin 2) (op : BitVec 3) (v : Byte) : State :=
  match s.i2cFront k op with
  | none => s
  | some x => if x.rx.length < 16 then s.putI2c k { x with rx := x.rx ++ [v] } else s

/-- I2C_STOP. -/
def State.i2cStop (s : State) (k : Fin 2) : State :=
  match s.i2cFront k 5 with
  | none => s
  | some x => (s.putI2c k { x with busy := false }).evt (R.i2c k 0x10) 0

/-- I2C_RX read: pops, 0 when empty (log entry 51). -/
def State.i2cRead (s : State) (k : Fin 2) : Word × State :=
  let x := s.ifc.i2c[k]
  match x.rx with
  | [] => (0, s)
  | b :: t => (b.setWidth 32, s.putI2c k { x with rx := t })

/-- I2C_STUCK (R591): the line, 1 SCL, 2 SDA. -/
def State.i2cStuck (s : State) (k : Fin 2) (sda : Bool) : State :=
  if s.ifcOn (R.i2c k 0) then
    ((s.putI2c k { s.ifc.i2c[k] with cmd := [], busy := false, stuck := true }).evt (R.i2c k 0x10) 3).sayRate 10000000 k.val .ifc
      0x9006 (BitVec.ofNat 32 k.val) (if sda then 2 else 1) 0 0
  else s

/-! GPIO. -/

/-- GPIO_EDGE (R592): GPIO0 to GPIO7, and GPIO8 to GPIO11 as the Winter domain has them. -/
def State.gpioEdge (s : State) (i : Fin 12) (level : Bool) : State :=
  if i.val < 8 then
    let old := s.ifc.gin.getLsbD i.val
    let s1 := { s with ifc := { s.ifc with gin := setBit s.ifc.gin i.val level } }
    if s.regsOn && old != level && !bit (s.reg (R.gpio 0)) i.val && edgeOn (fldN (s.reg (R.gpio 0x14)) (2 * i.val) 2) level then
      s1.evt (R.gpio 0x18) i.val
    else s1
  else
    ({ s with wnt := { s.wnt with gin := setBit s.wnt.gin (i.val - 8) level } }).wgpioEdges s.wgpio

/-- GPIO_SET and GPIO_CLR written. -/
def State.gpioSet (s : State) (v : Word) : State := s.setReg (R.gpio 4) (s.reg (R.gpio 4) ||| (v &&& 0xFF))
def State.gpioClr (s : State) (v : Word) : State := s.setReg (R.gpio 4) (s.reg (R.gpio 4) &&& ~~~(v &&& 0xFF))

/-! Starts and stops. -/

/-- Every interface back in its reset state (cold start step 3, power-down); the levels at the pins stay (R595). -/
def State.ifcReset (s : State) : State :=
  { s with ifc := { IfcSt.reset with gin := s.ifc.gin, cts3 := s.ifc.cts3 } }

/-- Safe entry (Table IFC-1): what is in progress completes, then the interfaces stop. -/
def State.ifcSafe (s : State) : State :=
  let s1 := (s.canInit 0).canInit 1
  { s1 with ifc := { s1.ifc with i2c := s1.ifc.i2c.map (fun x => { x with busy := false }) } }

/-- Warm start (Table IFC-1): the controllers take their Warm entries; message buffers keep their contents. -/
def State.ifcWarm (s : State) : State := s.ifcReset

end Sys2Proof.Machine
end

