-- ==== Sys2Proof/Machine/Image.lean ====
section
/-! DEFINITION. The Axxis image (03): a slot read through the IEU, its checks in the order of R86, and the structure it
gives. A check answers the first refusal: its code (Table IMG-14) and the byte offset it concerns (log entry 36). -/

namespace Sys2Proof.Machine

/-- A check: a value, or a refusal's code and byte offset. -/
abbrev Chk (α : Type) := Except (Nat × Nat) α

/-- The condition holds, or the slot is refused. -/
def need (c : Bool) (code off : Nat) : Chk Unit := if c then .ok () else .error (code, off)

/-- Fields of a byte string. -/
def sl (b : List Byte) (o n : Nat) : List Byte := (b.drop o).take n
def u8 (b : List Byte) (o : Nat) : Nat := (b.getD o 0).toNat
def u16 (b : List Byte) (o : Nat) : Nat := natLE (sl b o 2)
def u32 (b : List Byte) (o : Nat) : Nat := natLE (sl b o 4)
def w32 (b : List Byte) (o : Nat) : Word := wordLE (b.drop o)
def w64 (b : List Byte) (o : Nat) : BitVec 64 := BitVec.ofNat 64 (natLE (sl b o 8))
def zeros (b : List Byte) (o n : Nat) : Bool := (sl b o n).all (· == 0)

/-- Each of a list of checks, in order. -/
def checkAll {α : Type} (f : α → Chk Unit) : List α → Chk Unit
  | [] => .ok ()
  | x :: t => match f x with
    | .error e => .error e
    | .ok _ => checkAll f t

/-- n lines of a slot from slot offset o; the first line that fails its check refuses with CFG_E_LINE (R96). -/
def FlashSt.slotLines (f : FlashSt) (key : List Byte) (base : Nat) (o : Nat) : Nat → Chk (List Byte)
  | 0 => .ok []
  | n + 1 =>
    match f.readLine area0 key (base + o) with
    | .bad => .error (4, o)
    | .unwritten => (FlashSt.slotLines f key base (o + 32) n).map (List.replicate 32 0xFF#8 ++ ·)
    | .good d => (FlashSt.slotLines f key base (o + 32) n).map (d ++ ·)

/-- Header conditions in offset order (Table IMG-3, R654). -/
def chkHeader (part : Part) (h : List Byte) : Chk Unit := do
  need (sl h 0 4 == [0x41, 0x58, 0x58, 0x53]) 1 0
  need (u16 h 4 == 1) 1 4
  need (u16 h 6 == 256) 1 6
  need (u16 h 8 == part.number) 3 8
  need (decide (u8 h 0xA ≤ 3)) 3 0xA
  need (u8 h 0xB == 0) 2 0xB
  need (u32 h 0x10 == 256) 2 0x10
  need (decide (1 ≤ u16 h 0x14 ∧ u16 h 0x14 ≤ 32)) 2 0x14
  need (u16 h 0x16 == 0) 2 0x16
  need (decide (u32 h 0x18 % 32 = 0 ∧ u32 h 0x18 + 160 ≤ 8388608)) 2 0x18
  need (u32 h 0x1C == 0) 2 0x1C
  need (zeros h 0x30 208) 2 0x30

/-- The signature (R84, R85): b is the slot's bytes up to the end of the signature block. -/
def chkSig (hash11 : Option (List Byte)) (b : List Byte) (so : Nat) : Chk Unit := do
  let g := b.drop so
  need (sl g 0 4 == [0x41, 0x53, 0x49, 0x47] && u16 g 4 == 1) 5 so
  need (zeros g 6 26) 5 (so + 6)
  need (hash11 == some (sha256 (0x04#8 :: sl g 32 64))) 5 (so + 32)
  need (ecdsaVerify (natBE (sl g 32 32)) (natBE (sl g 64 32)) (natBE (sl g 96 32)) (natBE (sl g 128 32)) (b.take so)) 5 (so + 96)

/-- A section table entry (Table IMG-4). -/
structure Sect where
  type : Nat
  flags : Nat
  off : Nat
  len : Nat
  crc : Word

/-- Entry i of the section table. -/
def sectAt (b : List Byte) (i : Nat) : Sect :=
  let e := 256 + 16 * i
  { type := u16 b e, flags := u16 b (e + 2), off := u32 b (e + 4), len := u32 b (e + 8), crc := w32 b (e + 12) }

/-- Length a section type must have (Table IMG-5); none: it depends on the contents. -/
def sectLen : Nat → Option Nat
  | 1 => some 32 | 2 => some 160 | 3 => some 6400 | 4 => some 3168 | 5 => some 2592 | 6 => some 64 | 7 => some 1280
  | 8 => some 1024 | 9 => some 512 | 10 => some 128 | 11 => some 64 | 15 => some 448 | 16 => some 64 | _ => none

/-- Required types. -/
def sectReq : List Nat := [1, 2, 3, 4, 5, 10, 11, 12, 14, 16]

/-- The section table and the CRCs (R74 to R76): placement of every entry first, then types, then lengths and CRCs. -/
def chkTable (b : List Byte) (n so : Nat) : Chk (List Sect) := do
  let ss := (List.range n).map (sectAt b)
  let ix := ss.zipIdx
  need (decide (256 + 16 * n ≤ so)) 2 0x18
  checkAll (fun (e : Sect × Nat) => do
    need (decide (e.1.flags ≤ 1)) 2 (256 + 16 * e.2 + 2)
    need (decide (e.1.off % 32 = 0 ∧ 256 + 16 * n ≤ e.1.off ∧ e.1.off + e.1.len ≤ so)) 2 (256 + 16 * e.2 + 4)
    need (!(ix.any (fun x => x.2 < e.2 && decide (x.1.off < e.1.off + e.1.len) && decide (e.1.off < x.1.off + x.1.len)))) 2
      (256 + 16 * e.2 + 4)) ix
  checkAll (fun (e : Sect × Nat) => do
    let known := decide (1 ≤ e.1.type ∧ e.1.type ≤ 16)
    need (known || e.1.flags == 0) 8 (256 + 16 * e.2)
    need (!known || !(ix.any (fun x => decide (x.2 < e.2) && x.1.type == e.1.type))) 8 (256 + 16 * e.2)) ix
  checkAll (fun r => need (ss.any (fun e => e.type == r)) 8 256) sectReq
  need (!(ss.any (fun e => e.type == 7)) || ss.any (fun e => e.type == 6)) 8 256
  checkAll (fun (e : Sect × Nat) => do
    let d := sl b e.1.off e.1.len
    let want := match e.1.type with
      | 12 => 32 + u32 d 0xC + u32 d 0x14
      | 13 => 32 + u32 d 0
      | 14 => 32 + u16 d 0
      | t => (sectLen t).getD e.1.len
    need (decide (1 ≤ e.1.type ∧ e.1.type ≤ 16 → 32 ≤ e.1.len ∧ e.1.len = want)) 8 (256 + 16 * e.2 + 8)
    need (crc32c d == e.1.crc) 7 (256 + 16 * e.2 + 12)) ix
  return ss

/-- The bytes and the offset of the section of a type; none where it is absent. -/
def secOf (b : List Byte) (ss : List Sect) (t : Nat) : Option (List Byte × Nat) :=
  (ss.find? (fun e => e.type == t)).map (fun e => (sl b e.off e.len, e.off))

/-! Field limits. Each check has a section's bytes d and its offset o. -/

def chkIsland (d : List Byte) (o : Nat) : Chk Unit := do
  need (u8 d 0 &&& 0xFD == 0xFD) 0xA o
  need (decide (u8 d 1 ≤ 1)) 0xA (o + 1)
  need (zeros d 2 30) 2 (o + 2)

/-- Channels that AFEMAP enables, and the chains they feed. -/
def enabledCh (afe : List Byte) : List Nat := (List.range 16).filter (fun c => bit (w32 afe (8 * c)) 0)
def fedChains (afe : List Byte) : List Nat := (enabledCh afe).map (fun c => fldN (w32 afe (8 * c)) 8 4)

def chkAfemap (part : Part) (d : List Byte) (o : Nat) : Chk Unit := do
  checkAll (fun c => do
    let w := w32 d (8 * c)
    need (w &&& 0xFFFFF0C0 == 0 && u32 d (8 * c + 4) == 0) 2 (o + 8 * c)
    need (decide (fldN w 2 3 ≤ 3)) 0xA (o + 8 * c)
    need (!bit w 0 || decide (c < part.channels ∧ fldN w 8 4 < part.channels)) 9 (o + 8 * c)) (List.range 16)
  checkAll (fun m => do
    let w := w32 d (0x80 + 4 * m)
    need (w &&& 0xFFFFFFC0 == 0) 2 (o + 0x80 + 4 * m)
    need (decide (fldN w 1 5 ≤ 15)) 0xA (o + 0x80 + 4 * m)
    need (!bit w 0 || decide (m < part.comparators)) 9 (o + 0x80 + 4 * m)) (List.range 8)

/-- The record of chain k (Table IMG-7). -/
def chainRec (d : List Byte) (k : Nat) : ChainCfg :=
  let b := d.drop (400 * k)
  let t := u8 b 6
  { cicDec := u16 b 0, shift0 := u8 b 2, hbCount := u8 b 3, hbShift1 := u8 b 4, hbShift2 := u8 b 5, taps := t,
    firDec := u8 b 7, finalShift := u8 b 8, coef := (List.range (min t 96)).map (fun i => w32 b (16 + 4 * i)) }

/-- Records of chains that no channel feeds are ignored (R78). -/
def chkChain (d : List Byte) (o : Nat) (fed : List Nat) : Chk Unit :=
  checkAll (fun k => do
    let c := chainRec d k
    let b := d.drop (400 * k)
    let x := o + 400 * k
    need (decide (8 ≤ c.cicDec ∧ c.cicDec ≤ 256)) 0xA x
    need (decide (c.shift0 ≤ 31)) 0xA (x + 2)
    need (decide (c.hbCount ≤ 2)) 0xA (x + 3)
    need (decide (c.hbShift1 ≤ 31 ∧ (1 ≤ c.hbCount ∨ c.hbShift1 = 0))) 0xA (x + 4)
    need (decide (c.hbShift2 ≤ 31 ∧ (2 ≤ c.hbCount ∨ c.hbShift2 = 0))) 0xA (x + 5)
    need (decide (1 ≤ c.taps ∧ c.taps ≤ 96)) 0xA (x + 6)
    need (decide (1 ≤ c.firDec ∧ c.firDec ≤ 4)) 0xA (x + 7)
    need (decide (c.finalShift ≤ 31)) 0xA (x + 8)
    need (zeros b 9 7) 2 (x + 9)
    checkAll (fun i =>
      let w := w32 b (16 + 4 * i)
      need (if i < c.taps then (w.setWidth 24).signExtend 32 == w else w == 0) 0xA (x + 16 + 4 * i)) (List.range 96))
    ((List.range 16).filter (fed.contains ·))

/-- Logic cell j of the FABRIC section (Table IMG-9). -/
def cellRec (d : List Byte) (j : Nat) : CellCfg :=
  let v := w64 d (0x380 + 8 * j)
  { in0 := v.extractLsb' 0 10, in1 := v.extractLsb' 10 10, in2 := v.extractLsb' 20 10, in3 := v.extractLsb' 30 10,
    lut := v.extractLsb' 40 16, mode := v.extractLsb' 56 2 }

/-- The netlist of the FABRIC section. -/
def fabOf (d : List Byte) : FabCfg :=
  { prech := fld (w32 d 0) 0 10,
    tu := Vector.ofFn (fun u =>
      let w := w32 d (0x20 + 8 * u.val)
      { chain := fin 15 (fldN w 0 4), abs := bit w 4, below := bit w 5, en := bit w 7 }),
    integ := Vector.ofFn (fun i =>
      let w := w32 d (0x220 + 8 * i.val)
      { chain := fin 15 (fldN w 0 4), en := bit w 7 }),
    timer := Vector.ofFn (fun t =>
      let w := w32 d (0x280 + 8 * t.val)
      { start := fld w 0 10, reset := fld w 10 10, mode := fld w 20 2, en := bit w 23 }),
    cell := Vector.ofFn (fun j => cellRec d j.val),
    trip := Vector.ofFn (fun n =>
      let w := w32 d (0xB80 + 16 * n.val)
      { trip := fld w 0 10, latch := bit w 10, safeHigh := bit w 11, en := bit w 12, close := fld w 16 10,
        reset := fld (w32 d (0xB84 + 16 * n.val)) 0 10 }),
    kdrv := Vector.ofFn (fun k =>
      let w := w32 d (0xC40 + 8 * k.val)
      { on := fld w 0 10, en := bit w 12 }) }

/-- Signals the netlist references, with the offset of the record that does (R79). What a timer, trip record or driver that is not enabled
names, and the inputs of a MODE 3 cell, count as no reference (log entry 87). -/
def fabRefs (f : FabCfg) : List (Nat × Nat) :=
  [(f.prech.toNat, 0)] ++
  (List.finRange 32).flatMap (fun t =>
    if f.timer[t].en then [(f.timer[t].start.toNat, 0x280 + 8 * t.val), (f.timer[t].reset.toNat, 0x280 + 8 * t.val)] else []) ++
  (List.finRange 256).flatMap (fun j =>
    let c := f.cell[j]
    if c.mode = 3 then []
    else [c.in0, c.in1, c.in2, c.in3].map (fun x => (x.toNat, 0x380 + 8 * j.val))) ++
  (List.finRange 12).flatMap (fun n =>
    let t := f.trip[n]
    if t.en then [t.trip, t.close, t.reset].map (fun x => (x.toNat, 0xB80 + 16 * n.val)) else []) ++
  (List.finRange 4).flatMap (fun k => if f.kdrv[k].en then [(f.kdrv[k].on.toNat, 0xC40 + 8 * k.val)] else [])

/-- What a signal number is (Table IMG-8): of an enabled element, of an absent one, neither. -/
inductive SigKind where
  | good | absent | bad
  deriving DecidableEq, Repr

/-- Kind of signal x, given AFEMAP's bytes. -/
def sigKind (part : Part) (f : FabCfg) (afe : List Byte) (x : Nat) : SigKind :=
  let ok (b : Bool) : SigKind := if b then .good else .bad
  if x ≤ 1 then .good
  else if 0x008 ≤ x ∧ x ≤ 0x017 then
    let m := (x - 8) / 2
    if part.comparators ≤ m then .absent else ok (bit (w32 afe (0x80 + 4 * m)) 0)
  else if 0x020 ≤ x ∧ x ≤ 0x05F then ok (f.tu[fin 63 (x - 0x20)]).en
  else if 0x060 ≤ x ∧ x ≤ 0x06B then ok (f.integ[fin 11 (x - 0x60)]).en
  else if 0x070 ≤ x ∧ x ≤ 0x07B then ok (f.integ[fin 11 (x - 0x70)]).en
  else if 0x080 ≤ x ∧ x ≤ 0x09F then ok (f.timer[fin 31 (x - 0x80)]).en
  else if 0x0A0 ≤ x ∧ x ≤ 0x0AB then .good
  else if 0x0B0 ≤ x ∧ x ≤ 0x0D0 then .good
  else if 0x100 ≤ x ∧ x ≤ 0x1FF then ok ((f.cell[fin 255 (x - 0x100)]).mode != 3)
  else .bad

def chkFabric (part : Part) (d : List Byte) (o : Nat) (afe : List Byte) : Chk Unit := do
  let f := fabOf d
  need (w32 d 0 &&& 0xFFFFFC00 == 0 && zeros d 4 28) 2 o
  checkAll (fun (u : Fin 64) => do
    need (w32 d (0x20 + 8 * u.val) &&& 0xFFFFFF40 == 0 && u32 d (0x24 + 8 * u.val) == 0) 2 (o + 0x20 + 8 * u.val)
    need (!f.tu[u].en || decide (f.tu[u].chain.val < part.channels)) 9 (o + 0x20 + 8 * u.val)) (List.finRange 64)
  checkAll (fun (i : Fin 12) => do
    need (w32 d (0x220 + 8 * i.val) &&& 0xFFFFFF70 == 0 && u32 d (0x224 + 8 * i.val) == 0) 2 (o + 0x220 + 8 * i.val)
    need (!f.integ[i].en || decide (f.integ[i].chain.val < part.channels)) 9 (o + 0x220 + 8 * i.val)) (List.finRange 12)
  checkAll (fun (t : Fin 32) => do
    need (w32 d (0x280 + 8 * t.val) &&& 0xFF400000 == 0 && u32 d (0x284 + 8 * t.val) == 0) 2 (o + 0x280 + 8 * t.val)
    need (f.timer[t].mode != 3) 0xA (o + 0x280 + 8 * t.val)) (List.finRange 32)
  checkAll (fun (j : Fin 256) => do
    need ((w64 d (0x380 + 8 * j.val)).extractLsb' 58 6 == 0) 2 (o + 0x380 + 8 * j.val)
    need (f.cell[j].mode != 2 || f.cell[j].lut.extractLsb' 8 8 == 0) 0xA (o + 0x380 + 8 * j.val)) (List.finRange 256)
  checkAll (fun (n : Fin 12) => do
    let x := 0xB80 + 16 * n.val
    need (w32 d x &&& 0xFC00E000 == 0 && w32 d (x + 4) &&& 0xFFFFFC00 == 0 && zeros d (x + 8) 8) 2 (o + x)
    need (!f.trip[n].en || decide (n.val < part.feeders)) 9 (o + x)) (List.finRange 12)
  checkAll (fun (k : Fin 4) =>
    need (w32 d (0xC40 + 8 * k.val) &&& 0xFFFFEC00 == 0 && u32 d (0xC44 + 8 * k.val) == 0) 2 (o + 0xC40 + 8 * k.val)) (List.finRange 4)
  checkAll (fun (r : Nat × Nat) => need (sigKind part f afe r.1 != .absent) 9 (o + r.2)) (fabRefs f)

/-- The 160 words of group g of SETGRP. -/
def groupWords (d : List Byte) (g : Nat) : List Word := (List.range 160).map (fun w => w32 d (0x20 + 640 * g + 4 * w))

def chkSetgrp (d : List Byte) (o : Nat) : Chk Unit := do
  need (decide (u8 d 0 ≤ 3)) 0xA o
  need (zeros d 1 31) 2 (o + 1)
  checkAll (fun g =>
    let ws := groupWords d g
    checkAll (fun w => do
      let v := ws.getD w 0
      need (decide (w < 152) || v == 0) 2 (o + 0x20 + 640 * g + 4 * w)
      need (decide (w < 144) || v &&& 0xFC00FC00 == 0) 2 (o + 0x20 + 640 * g + 4 * w)
      need (settingOk ws w v) 0xA (o + 0x20 + 640 * g + 4 * w)) (List.range 160)) (List.range 4)

/-- The RECORDER section. -/
def recOf (d : List Byte) : RecCfg :=
  { nslot := u8 d 0, rate := u8 d 1, prePct := u8 d 3, post := u32 d 4, ch := (List.range (u8 d 2)).map (fun i => u8 d (8 + i)) }

def chkRecorder (part : Part) (d : List Byte) (o : Nat) (fed : List Nat) : Chk Unit := do
  let c := recOf d
  let n := u8 d 2
  need (decide (1 ≤ c.nslot ∧ c.nslot ≤ 8)) 0xA o
  need (decide (c.rate ≤ 4)) 0xA (o + 1)
  need (decide (1 ≤ n ∧ n ≤ (if part = .tsj5140 then 24 else 16))) 0xA (o + 2)
  need (decide (c.prePct ≤ 100)) 0xA (o + 3)
  checkAll (fun i => do
    let e := u8 d (8 + i)
    need (if i < n then decide (e ≤ 0x17) else e == 0xFF) 0xA (o + 8 + i)
    need (decide (n ≤ i ∨ 16 ≤ e ∨ e < part.channels)) 9 (o + 8 + i)
    need (decide (n ≤ i ∨ 16 ≤ e) || fed.contains e) 0xA (o + 8 + i)) (List.range 24)
  need (zeros d 0x20 32) 2 (o + 0x20)
  need (decide (1 ≤ c.post ∧ c.post ≤ c.cap)) 0xA (o + 4)

/-- Sequencer s of the BRAMBLE section. -/
def seqOf (d : List Byte) (s : Nat) : SeqCfg :=
  let b := d.drop (320 * s)
  { en := bit (w32 b 0) 0, initial := fin 7 (fldN (w32 b 0) 8 3),
    thr := Vector.ofFn (fun i =>
      let w := w32 b (32 + 8 * i.val)
      (fin 15 (fldN w 0 4), bit w 4, w32 b (36 + 8 * i.val))),
    states := Vector.ofFn (fun q =>
      let p := b.drop (64 + 32 * q.val)
      { exits := Vector.ofFn (fun e =>
          let w := w32 p (4 * e.val)
          { target := fin 7 (fldN w 0 3), en := bit w 3, src := fld w 4 3, index := fld w 8 10, invert := bit w 18 }),
        minDwell := u16 p 16, maxDwell := u16 p 18, fallback := fin 7 (u8 p 20), count := u8 p 21, trigger := bit (w32 p 20) 16 }) }

/-- An exit names an element that the image enables (R280). -/
def exitKind (part : Part) (f : FabCfg) (afe : List Byte) (s : SeqCfg) (e : ExitCfg) : SigKind :=
  let i := e.index.toNat
  let ok (b : Bool) : SigKind := if b then .good else .bad
  if e.src = 0 then if i ≤ 15 then sigKind part f afe (8 + i) else .bad
  else if e.src = 1 then ok (decide (i ≤ 63) && (f.tu[fin 63 i]).en)
  else if e.src = 2 then
    let k := (s.thr[fin 3 i]).1.val
    if 3 < i then .bad else if part.channels ≤ k then .absent else ok ((fedChains afe).contains k)
  else if e.src = 3 then sigKind part f afe i
  else if e.src = 4 then ok (decide (i ≤ 7))
  else .bad

def chkBramble (part : Part) (d : List Byte) (o : Nat) (f : FabCfg) (afe : List Byte) : Chk Unit :=
  checkAll (fun s => do
    let b := d.drop (320 * s)
    let c := seqOf d s
    let x := o + 320 * s
    need (w32 b 0 &&& 0xFFFFF8FE == 0 && zeros b 4 28) 2 x
    checkAll (fun i => need (w32 b (32 + 8 * i) &&& 0xFFFFFFE0 == 0) 2 (x + 32 + 8 * i)) (List.range 4)
    checkAll (fun (q : Fin 8) => do
      let y := 64 + 32 * q.val
      let st := c.states[q]
      need (decide (u8 b (y + 22) ≤ 1) && zeros b (y + 23) 9) 2 (x + y + 22)
      need (decide (1 ≤ st.count)) 0xA (x + y + 21)
      need (decide (u8 b (y + 20) ≤ 7)) 0xA (x + y + 20)
      need (decide (st.maxDwell = 0 ∨ st.minDwell ≤ st.maxDwell)) 0xA (x + y + 16)
      checkAll (fun (e : Fin 4) => do
        let k := exitKind part f afe c st.exits[e]
        need (w32 b (y + 4 * e.val) &&& 0xFFF80080 == 0) 2 (x + y + 4 * e.val)
        need (!st.exits[e].en || k != .absent) 9 (x + y + 4 * e.val)
        need (!st.exits[e].en || k == .good) 0xA (x + y + 4 * e.val)) (List.finRange 4)) (List.finRange 8)) (List.range 4)

/-- Ring r of the RINGS section. -/
def ringOf (d : List Byte) (r : Nat) : RingCfg :=
  let b := d.drop (16 * r)
  { role := u8 b 0, spill := u32 b 4, words := u32 b 8, thread := fin 63 (u8 b 12), bit := fin 31 (u8 b 13), flagEn := u8 b 14 == 1 }

def chkRings (d : List Byte) (o : Nat) : Chk Unit :=
  checkAll (fun r => do
    let b := d.drop (16 * r)
    need (zeros b 1 3 && u8 b 15 == 0) 2 (o + 16 * r)
    need (decide (u8 b 0 ≤ 2)) 0xA (o + 16 * r)
    need (u8 b 0 == 0 || u32 b 4 % 4 == 0) 0xA (o + 16 * r + 4)
    need (decide (u8 b 12 ≤ 63)) 0xA (o + 16 * r + 12)
    need (decide (u8 b 13 ≤ 31)) 0xA (o + 16 * r + 13)
    need (decide (u8 b 14 ≤ 1)) 0xA (o + 16 * r + 14)) (List.range 64)

/-- Slot t of the THREADS section. -/
def threadOf (d : List Byte) (t : Nat) : ThreadCfg :=
  let w := w32 d (8 * t)
  { prio := fld w 0 4, state := fld w 4 2, all := bit w 6, mask := w32 d (8 * t + 4) }

def chkThreads (d : List Byte) (o : Nat) : Chk Unit :=
  checkAll (fun t => do
    need (w32 d (8 * t) &&& 0xFFFFFF80 == 0) 2 (o + 8 * t)
    need (decide (fldN (w32 d (8 * t)) 4 2 ≤ 2)) 0xA (o + 8 * t)) (List.range 64)

/-- A power of two from 1 MiB to 128 MiB. -/
def flashSize (n : Nat) : Bool := ((List.range 8).map (fun i => 1048576 * 2 ^ i)).contains n

/-- The MEMMAP and KEYPOL sections. -/
def memOf (m k : List Byte) : MemCfg :=
  { cs0 := u32 m 0, cs1 := u32 m 4, logBase := u32 m 8, logLimit := u32 m 0xC, entries := u32 m 0x10,
    recBase := u32 m 0x14, recLimit := u32 m 0x18,
    data := Vector.ofFn (fun a =>
      let b := m.drop (0x1C + 12 * a.val)
      { base := u32 b 0, limit := u32 b 4, key := u8 b 8 }),
    halt := fld (w32 k 0) 0 4, tagEn := fld (w32 k 4) 0 8,
    region := Vector.ofFn (fun r =>
      let b := k.drop (16 + 16 * r.val)
      { base := u32 b 0, limit := u32 b 4, tag := u32 b 8, ctr := u32 b 12 }) }

def chkMemmap (m : List Byte) (o : Nat) (k : List Byte) (p : Nat) : Chk Unit := do
  need (flashSize (u32 m 0)) 0xA o
  need (u32 m 4 == 0 || flashSize (u32 m 4)) 0xA (o + 4)
  need (decide (1 ≤ u32 m 0x10)) 0xA (o + 0x10)
  need (decide (u32 m 0x10 ≤ 262144)) 0x14 (o + 0x10)
  checkAll (fun a => do
    let b := m.drop (0x1C + 12 * a)
    need (zeros b 9 3) 2 (o + 0x1C + 12 * a + 9)
    need (u32 b 4 == 0 || decide (1 ≤ u8 b 8 ∧ u8 b 8 ≤ 7)) 0xA (o + 0x1C + 12 * a + 8)) (List.range 8)
  need (zeros m 0x7C 4) 2 (o + 0x7C)
  need (w32 k 0 &&& 0xFFFFFFF0 == 0) 2 p
  need (w32 k 4 &&& 0xFFFFFF01 == 0) 2 (p + 4)
  need (zeros k 8 8) 2 (p + 8)
  need (bit (w32 k 0) 0) 0x11 p

def chkScanprog (d : List Byte) (o : Nat) : Chk Unit := do
  need (decide (u8 d 0 ≤ 3)) 0xA o
  need (zeros d 1 3) 2 (o + 1)
  need (decide (600 ≤ u32 d 4)) 0xA (o + 4)
  need (decide (u32 d 8 % 4 = 0 ∧ u32 d 8 < 262144)) 0xA (o + 8)
  need (decide (u32 d 0xC % 4 = 0 ∧ 4 ≤ u32 d 0xC)) 0xA (o + 0xC)
  need (decide (u32 d 0xC ≤ 262144)) 0x14 (o + 0xC)
  need (crc32c (sl d 32 (u32 d 0xC)) == w32 d 0x10) 7 (o + 0x10)
  need (u32 d 0x14 % 4 == 0) 0xA (o + 0x14)
  need (decide (u32 d 0x14 ≤ 262144)) 0x14 (o + 0x14)
  need (decide (u32 d 0x18 % 4 = 0 ∧ u32 d 0x18 < 262144)) 0xA (o + 0x18)
  need (zeros d 0x1C 4) 2 (o + 0x1C)

def chkHarvest (d : List Byte) (o : Nat) : Chk Unit := do
  need (decide (u32 d 0 ≤ 16384)) 0x14 o
  need (zeros d 4 28) 2 (o + 4)

def chkSentinel (d : List Byte) (o : Nat) : Chk Unit := do
  need (decide (1 ≤ u16 d 0)) 0xA o
  need (decide (u16 d 0 ≤ 16384)) 0x14 o
  need (zeros d 2 2 && zeros d 8 24) 2 (o + 2)
  need (crc32c (sl d 32 (u16 d 0)) == w32 d 4) 7 (o + 4)

/-- The UMU section; its schedule as UMU_SCHED_DATA addresses it: points, holidays, day types, holiday type. -/
def umuOf (d : List Byte) : UmuCfg :=
  { group := Vector.ofFn (fun g => fld (w32 d (2 * g.val)) 0 16), demandMin := u8 d 8,
    sched := (List.range 96).map (fun i => w32 d (0x20 + 4 * i)) ++
      [(List.range 7).foldl (fun w i => w ||| at_ (u8 d (9 + i) % 4) (2 * i)) 0, BitVec.ofNat 32 (u8 d 0x1A0)] }

def chkUmu (part : Part) (d : List Byte) (o : Nat) : Chk Unit := do
  checkAll (fun g => need (part = .tsj5140 || (BitVec.ofNat 16 (u16 d (2 * g))).extractLsb' 6 6 == 0) 9 (o + 2 * g)) (List.range 4)
  checkAll (fun i => need (decide (u8 d (9 + i) ≤ 3)) 0xA (o + 9 + i)) (List.range 7)
  need (zeros d 0x10 16) 2 (o + 0x10)
  checkAll (fun i => do
    let w := w32 d (0x20 + 4 * i)
    need (w &&& 0xFFFF0800 == 0) 2 (o + 0x20 + 4 * i)
    need (decide (fldN w 0 11 ≤ 1439)) 0xA (o + 0x20 + 4 * i)) (List.range 64)
  checkAll (fun i =>
    let w := w32 d (0x120 + 4 * i)
    need (w == 0 || dateOk w) 0xA (o + 0x120 + 4 * i)) (List.range 32)
  need (decide (u8 d 0x1A0 ≤ 3)) 0xA (o + 0x1A0)
  need (zeros d 0x1A1 31) 2 (o + 0x1A1)

/-! Admission. -/

/-- ⌈x / 2^n⌉. -/
def ceilSh (x n : Nat) : Nat := (x + 2 ^ n - 1) / 2 ^ n

/-- The growth bounds of a chain (07 R188). -/
def growthOk (c : ChainCfg) : Bool :=
  let b0 := (106 * c.cicDec ^ 4 + 99) / 100
  let b1 := ceilSh b0 c.shift0
  let b2 := if 1 ≤ c.hbCount then ceilSh (b1 * 73728) c.hbShift1 else b1
  let b3 := if 2 ≤ c.hbCount then ceilSh (b2 * 73728) c.hbShift2 else b2
  let s := (c.coef.map (fun w => (w.setWidth 24).toInt.natAbs)).foldl (· + ·) 0
  decide (b1 < 2 ^ 27 ∧ b2 < 2 ^ 27 ∧ b3 < 2 ^ 27 ∧ b3 * s < 2 ^ 55)

def admitChains (d : List Byte) (o : Nat) (afe : List Byte) (p : Nat) : Chk Unit := do
  let en := enabledCh afe
  checkAll (fun c =>
    need (!(en.any (fun e => decide (e < c) && fldN (w32 afe (8 * e)) 8 4 == fldN (w32 afe (8 * c)) 8 4))) 0xA (p + 8 * c)) en
  checkAll (fun k => do
    let c := chainRec d k
    need (decide (10240000 % c.period = 0) && [4000, 8000, 16000, 32000, 64000].contains c.rate) 0xB (o + 400 * k)
    need (growthOk c) 0xA (o + 400 * k)) ((List.range 16).filter ((fedChains afe).contains ·))

/-- Inputs of a cell that a hard-trip path follows: four for MODE 0, three for MODE 2, none else. -/
def CellCfg.pathIns (c : CellCfg) : List Nat :=
  if c.mode = 0 then [c.in0, c.in1, c.in2, c.in3].map BitVec.toNat
  else if c.mode = 2 then [c.in0, c.in1, c.in2].map BitVec.toNat else []

/-- The most cells on a path from a comparator signal to signal x, each cell once; none where there is no such path. -/
def pathDepth (f : FabCfg) : Nat → List Nat → Nat → Option Nat
  | 0, _, _ => none
  | n + 1, seen, x =>
    if 0x008 ≤ x ∧ x ≤ 0x017 then some 0
    else if 0x100 ≤ x ∧ x ≤ 0x1FF ∧ !seen.contains x then
      let ds := ((f.cell[fin 255 (x - 0x100)]).pathIns.filterMap (pathDepth f n (x :: seen)))
      if ds.isEmpty then none else some (1 + ds.foldl max 0)
    else none

/-- FAB_DEPTH (R79). -/
def fabDepth (f : FabCfg) : Nat :=
  ((List.finRange 12).filterMap (fun n => if f.trip[n].en then pathDepth f 257 [] f.trip[n].trip.toNat else none)).foldl max 0

/-- MODE 0 cells known to stand on no cycle of MODE 0 cells, after n rounds. -/
def acyclic (f : FabCfg) : Nat → List Nat
  | 0 => []
  | n + 1 =>
    let ok := acyclic f n
    (List.range 256).filter (fun j =>
      let c := f.cell[fin 255 j]
      c.mode == 0 && ([c.in0, c.in1, c.in2, c.in3].map BitVec.toNat).all (fun x =>
        !(decide (0x100 ≤ x) && decide (x ≤ 0x1FF)) || (f.cell[fin 255 (x - 0x100)]).mode != 0 || ok.contains (x - 0x100)))

def admitNet (part : Part) (f : FabCfg) (afe : List Byte) (o : Nat) : Chk Unit := do
  checkAll (fun (r : Nat × Nat) => need (sigKind part f afe r.1 == .good) 0xC (o + r.2)) (fabRefs f)
  let ok := acyclic f 256
  checkAll (fun j => need ((f.cell[fin 255 j]).mode != 0 || ok.contains j) 0xC (o + 0x380 + 8 * j)) (List.range 256)
  checkAll (fun (n : Fin 12) =>
    let t := f.trip[n]
    let x := t.trip.toNat
    need (!t.latch || (decide (0x100 ≤ x ∧ x ≤ 0x1FF) && (f.cell[fin 255 (x - 0x100)]).mode == 2)) 0xC
      (o + 0xB80 + 16 * n.val)) (List.finRange 12)
  need (decide (fabDepth f ≤ 4)) 0xD (o + 0xB80)

/-- R80: spill areas inside DTCM, apart from one another and from the input and output images; the address of an empty area is held to
the same (log entry 88). -/
def admitRings (d : List Byte) (o : Nat) : Chk Unit :=
  let used := (List.range 64).filter (fun r => (ringOf d r).role != 0)
  let meets (a b c e : Nat) : Bool := decide (a < e ∧ c < b)
  checkAll (fun r =>
    let g := ringOf d r
    let x := g.spill
    let y := g.spill + 4 * g.words
    need (decide (0x10000000 ≤ x ∧ y ≤ 0x10040000) && !meets x y 0x1003E000 0x1003F400 &&
      !(used.any (fun q => decide (q < r) && meets x y (ringOf d q).spill ((ringOf d q).spill + 4 * (ringOf d q).words)))) 0x12
      (o + 16 * r + 4)) used

/-- An area from x to y (exclusive) lies inside its flash. -/
def inFlash (m : MemCfg) (x y : Nat) : Bool :=
  decide (x < y) &&
    (if x < 2 ^ 27 then decide (y ≤ m.cs0) else decide (x < 2 ^ 28 ∧ y ≤ 2 ^ 27 + m.cs1))

/-- Every external area with the offset of its record: data, tag and counter parts of region 0, regions 1 to 3 and DATA. -/
def MemCfg.parts (m : MemCfg) (o p : Nat) : List (Nat × Nat × Nat) :=
  let of (a : Area) (x : Nat) : List (Nat × Nat × Nat) :=
    let n := a.limit + 1 - a.base
    [(a.base, a.limit + 1, x), (a.tag, a.tag + n / 4, x), (a.ctr, a.ctr + n / 8, x)]
  of area0 p ++ m.regions.flatMap (fun a => of a (p + 16 * a.code)) ++
    m.dataAreas.flatMap (fun a => of a (o + 0x1C + 12 * (a.code - 8)))

/-- R72, R81, R514, R516; sz0 and sz1 are the densities found by discovery (log2, 0 none). -/
def admitMem (m : MemCfg) (o p sz0 sz1 : Nat) : Chk Unit := do
  need (decide (22 * 1048576 ≤ m.cs0)) 0x10 o
  need (m.cs0 == 2 ^ sz0) 0x10 o
  need (m.cs1 == 0 || (sz1 != 0 && m.cs1 == 2 ^ sz1)) 0x10 (o + 4)
  checkAll (fun (a : Area) => need (decide (a.base ≤ a.limit ∧ a.base % 32768 = 0 ∧ (a.limit + 1) % 32768 = 0 ∧
    a.tag % 8192 = 0 ∧ a.ctr % 4096 = 0)) 0x10 (p + 16 * a.code)) m.regions
  checkAll (fun (a : Area) => need (decide (a.base ≤ a.limit ∧ a.base % 32768 = 0 ∧ (a.limit + 1) % 32768 = 0)) 0x10
    (o + 0x1C + 12 * (a.code - 8))) m.dataAreas
  let ps := (m.parts o p).zipIdx
  checkAll (fun (e : (Nat × Nat × Nat) × Nat) =>
    need (inFlash m e.1.1 e.1.2.1 &&
      !(ps.any (fun q => decide (q.2 < e.2 ∧ q.1.1 < e.1.2.1 ∧ e.1.1 < q.1.2.1)))) 0x10 e.1.2.2) ps
  let inside (x y : Nat) : Bool :=
    m.regions.any (fun a => decide (a.base ≤ x ∧ y ≤ a.limit + 1 ∧ (x - a.base) % 32768 = 0 ∧ (y - a.base) % 32768 = 0))
  need (decide (m.logBase ≤ m.logLimit ∧ m.logLimit + 1 - m.logBase = 32 * m.entries ∧ m.entries % 1024 = 0) &&
    inside m.logBase (m.logLimit + 1)) 0x10 (o + 8)
  need (decide (m.recBase = 0 ∧ m.recLimit = 0) ||
    (decide (m.recBase ≤ m.recLimit ∧ (m.recLimit < m.logBase ∨ m.logLimit < m.recBase)) && inside m.recBase (m.recLimit + 1))) 0x10
    (o + 0x14)
  checkAll (fun (a : Area) => need (m.tagEn.getLsbD a.kid) 0x11 (o + 0x1C + 12 * (a.code - 8) + 8)) m.dataAreas

def admitUmu (d : List Byte) (o : Nat) : Chk Unit := do
  let g (i : Nat) : Half := BitVec.ofNat 16 (u16 d (2 * i))
  checkAll (fun i =>
    need (g i &&& 0xF000 == 0 && !((List.range i).any (fun j => g i &&& g j != 0))) 0x15 (o + 2 * i)) (List.range 4)
  need (decide (1 ≤ u8 d 8 ∧ 60 % u8 d 8 = 0)) 0x15 (o + 8)

/-- R83: the proof. -/
def admitProof (d : List Byte) (o : Nat) (scan : List Byte) (f : FabCfg) (recd : Option RecCfg) (rings : List RingCfg) : Chk Unit := do
  need (u32 d 0 == 37500 * 2 ^ u8 scan 0) 0x13 o
  need (u32 d 4 == u32 scan 4) 0x13 (o + 4)
  need (u32 d 8 == 300) 0x13 (o + 8)
  need (decide (2 * u32 d 4 + u32 d 8 ≤ u32 d 0)) 0xE (o + 4)
  need (u32 d 0xC == fabDepth f) 0x13 (o + 0xC)
  need (decide (u32 d 0x10 ≤ 50000000)) 0xF (o + 0x10)
  need (u32 d 0x14 == (match recd with
    | none => 0
    | some r => r.nch * (4000 * 2 ^ r.rate))) 0x13 (o + 0x14)
  need (u32 d 0x18 == ((rings.filter (fun r => r.role != 0)).map RingCfg.words).foldl (· + ·) 0) 0x13 (o + 0x18)
  checkAll (fun x => need (decide (u8 d (0x1C + x) ≤ 100)) 0xF (o + 0x1C + x)) (List.range 8)
  need (zeros d 0x2C 4) 2 (o + 0x2C)

/-- An admitted image: the structure, and the bytes that go to ITCM, DTCM and the sentinel's code RAM. -/
structure Loaded where
  img : Image
  code : List Byte
  data : List Byte
  snt : List Byte

/-- The whole check of a slot (R86, vault apart), and the image it admits. All eight lines of the header are read before any of its
conditions is tested (log entry 89). -/
def State.checkSlot (s : State) (slot : Bool) (key : List Byte) (sz0 sz1 : Nat) : Chk Loaded := do
  let f := s.key.flash
  let base := slotBase slot
  let h ← f.slotLines key base 0 8
  chkHeader s.part h
  let so := u32 h 0x18
  let b ← f.slotLines key base 0 ((so + 160) / 32)
  chkSig (s.slotKey 11) b so
  let ss ← chkTable b (u16 h 0x14) so
  let sec (t : Nat) : List Byte × Nat := (secOf b ss t).getD ([], 0)
  let opt (t : Nat) (g : List Byte → Nat → Chk Unit) : Chk Unit := match secOf b ss t with
    | none => .ok ()
    | some (d, o) => g d o
  let afe := sec 2
  let fab := fabOf (sec 4).1
  chkIsland (sec 1).1 (sec 1).2
  chkAfemap s.part afe.1 afe.2
  chkChain (sec 3).1 (sec 3).2 (fedChains afe.1)
  chkFabric s.part (sec 4).1 (sec 4).2 afe.1
  chkSetgrp (sec 5).1 (sec 5).2
  opt 6 (fun d o => chkRecorder s.part d o (fedChains afe.1))
  opt 7 (fun d o => chkBramble s.part d o fab afe.1)
  opt 8 chkRings
  opt 9 chkThreads
  chkMemmap (sec 10).1 (sec 10).2 (sec 11).1 (sec 11).2
  chkScanprog (sec 12).1 (sec 12).2
  opt 13 chkHarvest
  chkSentinel (sec 14).1 (sec 14).2
  opt 15 (chkUmu s.part)
  admitChains (sec 3).1 (sec 3).2 afe.1 afe.2
  admitNet s.part fab afe.1 (sec 4).2
  opt 8 admitRings
  let mem := memOf (sec 10).1 (sec 11).1
  admitMem mem (sec 10).2 (sec 11).2 sz0 sz1
  opt 15 admitUmu
  let recd := (secOf b ss 6).map (fun d => recOf d.1)
  let rings := match secOf b ss 8 with
    | none => []
    | some d => (List.range 64).map (ringOf d.1)
  admitProof (sec 16).1 (sec 16).2 (sec 12).1 fab recd rings
  let scan := (sec 12).1
  let seq0 : SeqCfg := seqOf [] 0
  let img : Image :=
    { slot := slot, seq := w32 h 0xC, build := sl h 0x20 16, hash := sha256 (b.take so),
      pwren := (sec 1).1.getD 0 0, periphHalf := u8 (sec 1).1 1 == 1,
      afe := Vector.ofFn (fun c => w32 afe.1 (8 * c.val)), cmp := Vector.ofFn (fun m => w32 afe.1 (0x80 + 4 * m.val)),
      chain := Vector.ofFn (fun k => chainRec (sec 3).1 k.val), fab := fab, defGroup := fin 3 (u8 (sec 5).1 0),
      settings := Vector.ofFn (fun g => groupWords (sec 5).1 g.val), recd := recd,
      brm := Vector.ofFn (fun q => match secOf b ss 7 with
        | none => seq0
        | some d => seqOf d.1 q.val),
      rings := Vector.ofFn (fun r => rings.getD r.val (ringOf [] 0)),
      threads := Vector.ofFn (fun t => match secOf b ss 9 with
        | none => threadOf [] 0
        | some d => threadOf d.1 t.val),
      mem := mem,
      scan := { period := fld (w32 scan 0) 0 2, wcet := u32 scan 4, entry := w32 scan 8, codeLen := u32 scan 0xC,
                codeCrc := w32 scan 0x10, kernel := w32 scan 0x18 },
      harvest := match secOf b ss 13 with
        | none => []
        | some d => sl d.1 32 (u32 d.1 0),
      umu := (secOf b ss 15).map (fun d => umuOf d.1), recDrain := w32 (sec 16).1 0x24, recDead := w32 (sec 16).1 0x28 }
  return { img := img, code := sl scan 32 (u32 scan 0xC), data := sl scan (32 + u32 scan 0xC) (u32 scan 0x14),
           snt := sl (sec 14).1 32 (u16 (sec 14).1 0) }

/-- SEQ of a slot as the choice of R86 takes it. -/
def State.slotSeq (s : State) (slot : Bool) (key : List Byte) : Nat :=
  match s.key.flash.slotLines key (slotBase slot) 0 1 with
  | .error _ => 0
  | .ok h => if sl h 0 4 = [0x41, 0x58, 0x58, 0x53] then u32 h 0xC else 0

/-- The entry IMG_REFUSED (R94, Table LOG-4). -/
def State.sayRefusal (s : State) (slot : Bool) (code off seq : Nat) : State :=
  if 2 ≤ s.cfg.refusals then s
  else
    ({ s with cfg := { s.cfg with refusals := s.cfg.refusals + 1 } }).say .boot 0x0010 (if slot then 1 else 0)
      (BitVec.ofNat 32 code) (BitVec.ofNat 32 off) (BitVec.ofNat 32 seq)

/-- AFE_CMP_CTLm as the image's comparator record gives it: HYST and EN (03 Table IMG-6, 06). -/
def Image.cmpCtl (i : Image) (m : Fin 8) : Word := at_ (fldN i.cmp[m] 1 4) 0 ||| bitAt (bit i.cmp[m] 0) 8

/-- Step 6's choice (R86, R87, R95): the slots in the order tried, refusals written, the admitted image if any. sz1 is the
density that discovery on CS1 would give. -/
def State.chooseSlot (s : State) (key : List Byte) (sz0 sz1 : Nat) : State × Option Loaded :=
  let firstB := decide (s.slotSeq false key < s.slotSeq true key)
  let try_ (t : State) (slot : Bool) : State × Option Loaded :=
    match t.checkSlot slot key sz0 sz1 with
    | .ok l => (t, some l)
    | .error (c, o) =>
      let t1 := t.sayRefusal slot c o (t.slotSeq slot key)
      let v := BitVec.ofNat 8 c
      ({ t1 with cfg := if slot then { t1.cfg with refuseB := v } else { t1.cfg with refuseA := v } }, none)
  let s0 := { s with cfg := { s.cfg with refuseA := 0, refuseB := 0, fallback := false, img := none, refusals := 0 } }
  match try_ s0 firstB with
  | (t, some l) => (t, some l)
  | (t, none) =>
    match try_ t (!firstB) with
    | (u, some l) => ({ u with cfg := { u.cfg with fallback := true } }, some l)
    | (u, none) => (u, none)

end Sys2Proof.Machine
end

