-- ==== Sys2Proof/Machine/Debug.lean ====
section
/-! DEFINITION. Test access port, boundary scan, lock states, halt and release for return (22). -/

namespace Sys2Proof.Machine

/-! TAP. -/

/-- The TAP works: from the end of cold start step 3 until the core die powers down (R596). -/
def State.tapOn (s : State) : Bool := s.mode.coreOn

/-- The instruction register updated with an instruction (R598, R601, R604): EXTEST, CLAMP and HIGHZ act as BYPASS in
Protect and set BSREF, and so while a power-fail sequence runs (23 R623; log entry 104); DBGACC acts as BYPASS on a SEALED or
RETURNED part. -/
def State.tapUpdate (s : State) (i : TapIr) : State :=
  if !s.tapOn then s
  else
    let scan := i == .extest || i == .clamp || i == .highz
    if scan && (s.mode.mode == .protect || s.mode.pf) then { s with dbg := { s.dbg with ir := .bypass, bsref := true } }
    else if scan then { s with dbg := { s.dbg with ir := i, bsref := false, scanDt := some s.time.dt } }
    else if i == .dbgacc && decide (2 ≤ s.dbg.lock.toNat) then { s with dbg := { s.dbg with ir := .bypass } }
    else { s with dbg := { s.dbg with ir := i } }

/-- SAMPLE/PRELOAD with the values shifted into the update stage. -/
def State.tapPreload (s : State) (cells : BitVec 123) : State :=
  let s1 := s.tapUpdate .sample
  if s.tapOn then { s1 with dbg := { s1.dbg with cells := cells } } else s1

/-- What Capture-IR loads (R597). -/
def State.captureIr (s : State) : Byte :=
  1 ||| (s.dbg.lock.setWidth 8 <<< 2) ||| (if s.dbg.bsref then 0x10 else 0) ||| (if s.dbg.unlocked then 0x20 else 0)

/-- IDCODE (R599). -/
def State.tapId (s : State) : Word := if s.part = .tsj5140 then 0x35140A5F else 0x35120A5F

/-- What Capture-DR loads with DBGACC: status, data, address (R603). -/
def State.captureDbg (s : State) : BitVec 66 := s.dbg.status ++ s.dbg.data ++ s.dbg.addr

/-- Length of the selected data register (Table TEST-1). -/
def TapIr.length : TapIr → Nat
  | .extest | .sample => 123
  | .idcode => 32
  | .dbgacc => 66
  | .clamp | .highz | .bypass => 1

/-- Protect takes effect: EXTEST, CLAMP and HIGHZ end (R602); one updated in this FABRIC tick has not taken effect (R616). -/
def State.tapProtect (s : State) : State :=
  if s.bscan then { s with dbg := { s.dbg with ir := .bypass, bsref := s.dbg.bsref || s.dbg.scanDt == some s.time.dt } } else s

/-- DBGACC becomes BYPASS: the lock state has left OPEN and LOCKED (R604, R616). -/
def State.dbgEnds (s : State) : State :=
  if s.dbg.ir == .dbgacc then { s with dbg := { s.dbg with ir := .bypass } } else s

/-! Debug rights. -/

/-- The debug port has the reach of OPEN (Table TEST-2). -/
def State.dbgFull (s : State) : Bool := s.dbg.lock == 0 || (s.dbg.lock == 1 && s.dbg.unlocked)

/-- An offset of the registers that a locked port reaches: DBG_STAT, DBG_CHAL, DBG_AUTH. -/
def dbgLockedReach (a : Word) : Bool :=
  let o := a.toNat
  o == 0x401B0000 || (decide (0x401B0020 ≤ o) && decide (o < 0x401B0050))

/-! Lock states. -/

/-- A write of DBG_LOCK_CMD (R605, R617): sealed for TARGET 2; programmed: the OTP took the step. -/
def State.lockStep (s : State) (key : Half) (sealed programmed : Bool) : State :=
  let ok := key == 0x10C5 && s.mode.mode == .service && s.regsOn &&
    (if sealed then decide (s.dbg.lock.toNat < 2) else s.dbg.lock == 0 && (s.key.vault[13]).state == .active)
  if !s.regsOn then s
  else if ok && programmed then
    let new : BitVec 2 := if sealed then 2 else 1
    let s1 := ({ s with dbg := { s.dbg with lock := new } }).say .sec 0x6012 (s.dbg.lock.setWidth 32) (new.setWidth 32) 0 0
    if sealed then s1.dbgEnds else s1
  else s.evt R.dbgEvt 2

/-- UNLOCKED ends after DURATION. -/
def State.unlockExpiry (s : State) : State :=
  if s.dbg.unlocked && decide (s.dbg.unlockEnd ≤ s.time.dt) then { s with dbg := { s.dbg with unlocked := false } } else s

/-- The refusal of GO for 1 s after a failure ends (18 R532, 22 R606). -/
def State.authLockEnd (s : State) (debug : Bool) : State :=
  if debug then
    if s.dbg.lockEnd ≤ s.time.dt then { s with dbg := { s.dbg with authLock := false } } else s
  else if s.key.lockEnd ≤ s.time.dt then { s with key := { s.key with authLock := false } } else s

/-! Halt. -/

/-- A write of DBG_CTL.HALT (R607): from the debug port, in Ready, Service or Safe. -/
def State.dbgHalt (s : State) (m : Master) : State :=
  if !s.regsOn then s
  else if m != .debug || !(s.mode.mode == .ready || s.mode.mode == .service || s.mode.mode == .safe) then s.evt R.dbgEvt 2
  else if !s.dbgFull then s
  else (((s.withCore (fun c => { c with halt := true, step := false })).evt R.dbgEvt 3).wdtPause true)

/-- A halt ends. -/
def State.endHalt (s : State) : State := (s.withCore (fun c => { c with halt := false, step := false })).wdtPause false

/-- DBG_CTL.RESUME and STEP. -/
def State.dbgResume (s : State) (m : Master) : State :=
  if !s.regsOn then s else if m != .debug then s.evt R.dbgEvt 2 else if !s.dbgFull then s else s.endHalt
def State.dbgStep (s : State) (m : Master) : State :=
  if !s.regsOn then s else if m != .debug then s.evt R.dbgEvt 2
  else if s.dbgFull && s.core.halt then s.withCore (fun c => { c with step := true }) else s

/-- DBG_CTL.WARM (R608). -/
def State.dbgWarm (s : State) (m : Master) : State :=
  if !s.regsOn then s
  else if m == .debug && s.modeRps && s.dbgFull then s.latchWarm 5 else s.evt R.dbgEvt 2

/-- DBG_CTL written whole; from another master each bit is denied. -/
def State.dbgCtl (s : State) (m : Master) (v : Word) : State :=
  let s1 := if bit v 0 then s.dbgHalt m else s
  let s2 := if bit v 1 then s1.dbgResume m else s1
  let s3 := if bit v 2 then s2.dbgStep m else s2
  let s4 := if bit v 3 then s3.dbgWarm m else s3
  if m != .debug && fldN v 0 4 == 0 then s4.evt R.dbgEvt 2 else s4

/-! Release for return. -/

/-- DBG_RFR written (R612, R613, R617). -/
def State.rfrWrite (s : State) (v : Word) (programmed : Bool) : State :=
  if !s.regsOn then s
  else if s.mode.mode = .service ∧ fld v 16 16 = 0x52E7 ∧ fld v 0 16 = (fld (BitVec.ofNat 32 s.uid39) 0 16) ^^^ 0xFFFF then
    let s1 := (s.say .sec 0x6010 (s.uid.setWidth 32) (s.slotMask .active) (s.slotMask .staged) 0).flushAll
    if programmed then (({ s1 with dbg := { s1.dbg with lock := 3 } }).dbgEnds.revokeAll).latchOpen 19 else s1
  else s.evt R.dbgEvt 2

end Sys2Proof.Machine
end

