-- ==== Sys2Proof/Machine/Scan.lean ====
section
/-! DEFINITION. The scan cycle (09): scan entry with its input image, the apply tick of a commit, and the harvest store. -/

namespace Sys2Proof.Machine

/-! Input image. -/

/-- The results of chain k stamped before the latch instant, newest first (R237). -/
def State.outsBefore (s : State) (k : Fin 16) : List (Word × DWord) :=
  if (s.feeder k).isSome then (s.chain[k]).hist.filter (fun x => x.2 != s.time.dt) else []

/-- FLAGS of the input image; the mode of the image's scan: first scan after a start. -/
def State.scanFlags (s : State) (first : Bool) : Word :=
  bitAt s.mode.clsWarm 0 ||| bitAt first 1 ||| bitAt s.scan.missed 3

/-- Word i of the input image at the latch instant (Table SCAN-2). -/
def State.inputWord (s : State) (first : Bool) (i : Nat) : Word :=
  let o := 4 * i
  if o = 0x000 then s.reg R.scnSeq
  else if o = 0x004 then s.scanFlags first
  else if o = 0x008 then lo32 s.time.dt
  else if o = 0x00C then hi32 s.time.dt
  else if o = 0x010 then s.sysMode
  else if o = 0x014 then s.fabStat
  else if o = 0x018 then s.winterStatus
  else if o < 0x040 then 0
  else if o < 0x080 then ((s.outsBefore (fin 15 ((o - 0x040) / 4))).headD (0, 0)).1
  else if o < 0x0C0 then lo32 ((s.outsBefore (fin 15 ((o - 0x080) / 4))).headD (0, 0)).2
  else if o = 0x0C0 then s.fabTripStat
  else if o = 0x0C4 then s.fabCloseStat
  else if o = 0x0C8 then lo32 s.fab.tu
  else if o = 0x0CC then hi32 s.fab.tu
  else if o = 0x0D0 then s.fabIntStat
  else if o = 0x0D4 then s.fab.timers
  else if o = 0x0D8 then s.fabBstStat
  else if o = 0x0DC then s.cmpStat
  else if o = 0x0E0 then s.fabRbStat
  else if 0x0E4 ≤ o ∧ o < 0x0F4 then s.kdrvWord (fin 3 ((o - 0x0E4) / 4))
  else if 0x100 ≤ o ∧ o < 0x120 then s.cellWord ((o - 0x100) / 4)
  else if 0x200 ≤ o ∧ o < 0x250 then (s.afe.sar[fin 19 ((o - 0x200) / 4)]).setWidth 32
  else if 0x800 ≤ o ∧ o < 0x1000 then
    ((s.outsBefore (fin 15 ((o - 0x800) / 128))).getD (31 - (o - 0x800) % 128 / 4) (0, 0)).1
  else 0

/-! Harvest store. -/

/-- Byte a of the harvest store as the core sees it (R246). -/
def State.harvByte (s : State) (a : Nat) : Byte :=
  let l := a / 32
  if s.scan.owner.getLsbD l != s.scan.dirty.getLsbD l then mget 0 s.scan.h1 a else mget 0 s.scan.h0 a

/-- Bytes stored to the bank that is not the owner of their line. -/
def ScanSt.other (x : ScanSt) (l : Nat) (a : Nat) (bs : List Byte) : ScanSt :=
  if x.owner.getLsbD l then { x with h0 := mwrite 0 x.h0 a bs } else { x with h1 := mwrite 0 x.h1 a bs }

/-- CRC-32C of 32 bytes of 0. -/
def zeroCrc : Word := 0x8A9136AA

/-- Line l of a bank has its CRC written (R249). -/
def lineCrc (bank : List Host.Cell) (crc : List (Nat × Word)) (l : Nat) : List (Nat × Word) :=
  mset zeroCrc crc l (crc32c (mread 0 bank (32 * l) 32))

/-- The CRC of the line of the bank that is not the owner. -/
def ScanSt.sumOther (x : ScanSt) (l : Nat) : ScanSt :=
  if x.owner.getLsbD l then { x with crc0 := lineCrc x.h0 x.crc0 l } else { x with crc1 := lineCrc x.h1 x.crc1 l }

/-- A store of bytes within one line of the harvest store (R246, R249). -/
def State.harvStore (s : State) (a : Nat) (bs : List Byte) : State :=
  let l := a / 32
  let x := s.scan
  let line := mread 0 (if x.owner.getLsbD l then x.h1 else x.h0) (32 * l) 32
  let x1 := if x.dirty.getLsbD l then x else { x.other l (32 * l) line with dirty := setBit x.dirty l true }
  { s with scan := (x1.other l a bs).sumOther l }

/-- The committed view's bytes set to a list followed by zeros: bank H0 becomes the owner of every line (R120). -/
def State.harvLoad (s : State) (l : List Byte) (hash : List Byte) : State :=
  let h := mlist 0 0 (l.take 16384)
  { s with scan := { s.scan with h0 := h, h1 := [], owner := 0, dirty := 0, kept := true, hash := hash, par := false, crc1 := [],
                                 crc0 := (List.range ((min l.length 16384 + 31) / 32)).foldl (fun c i => lineCrc h c i) [] } }

/-- Parity of an owner map. -/
def ownPar (o : BitVec 512) : Bool := (List.range 512).foldl (fun p i => p ^^ o.getLsbD i) false

/-- The harvest store CRC is good: every line of the committed view passes its CRC, the owner map its parity (R249). -/
def ScanSt.harvGood (x : ScanSt) : Bool :=
  x.par == ownPar x.owner &&
    (List.range 512).all (fun l =>
      let b := if x.owner.getLsbD l then x.h1 else x.h0
      let c := if x.owner.getLsbD l then x.crc1 else x.crc0
      (!b.any (fun e => e.1 / 32 == l) && !c.any (fun e => e.1 == l)) || crc32c (mread 0 b (32 * l) 32) == mget zeroCrc c l)

/-- A retained bit has turned in parts of the harvest store: bank H0, bank H1, owner map; which bit is a free value. -/
def State.harvUpset (s : State) (bad : BitVec 3) : State :=
  let flip (h : List Host.Cell) (r : Nat) : List Host.Cell :=
    let a := r % 16384
    mset 0 h a (mget 0 h a ^^^ ((1 : Byte) <<< (r / 16384 % 8)))
  let a : State := if bad.getLsbD 0 then
      { s.free.2 with scan := { s.scan with h0 := flip s.scan.h0 s.free.1.toNat } } else s
  let b : State := if bad.getLsbD 1 then
      { a.free.2 with scan := { a.scan with h1 := flip a.scan.h1 a.free.1.toNat } } else a
  if bad.getLsbD 2 then
    { b.free.2 with scan := { b.scan with owner := b.scan.owner ^^^ ((1 : BitVec 512) <<< (b.free.1.toNat % 512)) } }
  else b

/-! Commit. -/

/-- A word of the output image. -/
def State.outWord (s : State) (o : Nat) : Word := s.dtcmWord (0x3F000 + o)

/-- Settings write p of the output image, with the group active after the apply tick (R241). -/
def State.oiSetting (s : State) (new : Fin 4) (p : Nat) : State :=
  let a := s.outWord (0x100 + 8 * p)
  let g := fin 3 (fldN a 0 2)
  if g = new then s.evt R.fabEvt 7 else s.settingWrite g (fldN a 8 8) (s.outWord (0x104 + 8 * p))

/-- A SET_COUNT above 96 (R245). -/
def State.oiRange (s : State) (n : Word) : State :=
  if n.toNat ≤ 96 then s
  else
    let s1 := s.evt R.scnEvt 6
    if s.scan.rangeSaid then s1
    else ({ s1 with scan := { s1.scan with rangeSaid := true } }).say .scan 0x4005 (s.reg R.scnSeq) n 0 0

/-- COMMIT_APPLY (R240 to R242, R247, R227): the fabric takes REQ, the group switch and the settings writes, the harvest store
flips, and the UMU takes the power words. -/
def State.commitApply (s : State) : State :=
  match s.scan.commit with
  | none => s
  | some c =>
    if c.applied || !s.running || decide (s.time.dt < c.dt) then s
    else
      let n := s.outWord 0x080
      let ctl := s.outWord 0x004
      let named := bit ctl 8
      let target : Fin 4 := if named then fin 3 (fldN ctl 0 2) else s.fab.grpReq.getD s.fab.group
      let s1 := (List.range (min n.toNat 96)).foldl (fun (t : State) p => t.oiSetting target p) (s.oiRange n)
      let s2 := { s1 with fab := { s1.fab with req := s.outWord 0, grpReq := none } }
      let s3 := (s2.groupSwitch target (if named then 0 else 1)).settle
      let power := (List.range 12).map (fun i => if i < s.part.feeders then s.outWord (0x040 + 4 * i) else 0)
      let s4 := s3.umuCommit power
      let cyc := BitVec.ofNat 32 ((c.issue - s.scan.start).toNat % 2 ^ 19)
      let s5 := ((s4.setReg R.scnCommitDt (lo32 s.time.dt)).setReg (R.scnCommitDt + 4) (hi32 s.time.dt)).setReg R.scnCyc cyc
      let s6 := if s.reg R.scnCycMax < cyc then s5.setReg R.scnCycMax cyc else s5
      { s6 with scan := { s6.scan with owner := s.scan.owner ^^^ s.scan.dirty, dirty := 0,
                                       par := ownPar (s.scan.owner ^^^ s.scan.dirty),
                                       commit := some { c with applied := true } } }

/-- DT of the scan core's present cycle, three to a tick since step 13; the core may have run ahead of DT (log entry 4). -/
def State.coreDt (s : State) : Nat := max s.time.dt.toNat (s.core.cycDt.toNat + s.core.cyc.toNat / 3)

/-- COMMIT in scan context ends it (R240): the apply tick is the first FABRIC tick at or after DT + 80. -/
def State.commitIssue (s : State) : State :=
  let d := (s.coreDt + 89) / 10 * 10
  { s with core := { s.core with scan := false },
           scan := { s.scan with phase := .commit, commit := some { dt := BitVec.ofNat 64 d, issue := s.core.cyc, applied := false } } }

/-! Scan entry. -/

/-- Scan period in DT ticks (R233). -/
def State.periodTicks (s : State) : Nat :=
  match s.cfg.img with
  | none => 12500
  | some i => 12500 * 2 ^ i.scan.period.toNat

/-- A scan boundary at which a scan may begin: the first at least 200 µs after step 13 (R111), then each one once. -/
def State.atBoundary (s : State) : Bool :=
  s.time.dt.toNat % s.periodTicks == 0 &&
    (if s.mode.starting then decide (20000 ≤ (s.time.dt - s.core.cycDt).toNat) else s.time.dt != s.scan.latchDt)

/-- The latch instant of a scan is now: scans run, and none is in progress (R233). -/
def State.boundaryNow (s : State) : Bool :=
  s.running && s.mode.past13 && !s.mode.pf && !s.core.locked && s.scan.run && s.scan.phase == .idle && s.scan.latch.isNone &&
    s.scan.commit.isNone && !s.scan.redo && !s.core.scan && s.atBoundary

/-- A scan entry is due at this bundle boundary: EXC_STATE.DF and WTRAP are 0 (13 R364). -/
def State.scanDue (s : State) : Bool :=
  s.running && s.mode.past13 && !s.mode.pf && !s.core.locked && s.core.bundle.isEmpty && !s.core.scan && !s.core.df && !s.core.wtrap &&
    (s.scan.latch.isSome || s.boundaryNow)

/-- The first scan of a start begins (R111): STARTING ends, MODE_CHANGE and START are written, the first watchdog window runs (20
R566). -/
def State.endStart (s : State) : State :=
  if s.mode.starting then
    let us := BitVec.ofNat 32 (s.mode.startUs.toNat + s.since s.mode.startMark / 100)
    let s1 := ({ s with mode := { s.mode with starting := false, startTime := us } }).wdtBegin
    (s1.say .mode 0x0001 (BitVec.ofNat 32 s.mode.startId) (BitVec.ofNat 32 s.mode.prev.code) (BitVec.ofNat 32 s.mode.mode.code)
      (s.mode.seq.setWidth 32)).say .mode 0x0003 (bitAt s.mode.kindWarm 0) (s.mode.wcause.setWidth 32) (bitAt s.mode.clsWarm 0) s1.mode.startTime
  else s

/-- The FABRIC tick of this instant, once: a commit whose apply tick has come, then the edge (R240, 08 R658). -/
def State.edgeNow (s : State) : State :=
  if !s.time.run || s.fab.edgeDone || s.time.dt.toNat % 10 ≠ 0 then s
  else
    let t := s.commitApply.fabEdge
    { t with fab := { t.fab with edgeDone := true } }

/-- The latch instant (R233, R234, R237): the input image sampled after the evaluation of its FABRIC tick, the scan counted, its flags
cleared, the running kernel chain suspended (15 R429). CYC counts three to a tick. -/
def State.scanLatch (s0 : State) : State :=
  if !s0.boundaryNow then s0
  else
    let s1 := s0.edgeNow.endStart
    let s := (s1.setReg R.scnSeq (s1.reg R.scnSeq + 1)).zvSuspend
    { s with zve := { s.zve with scanFault := false },
             scan := { s.scan with phase := .latch, latch := some ((List.range 1024).map (fun i => s.inputWord s.scan.first i)),
                                   start := 3 * (s.time.dt - s.core.cycDt), latchDt := s.time.dt, first := false, reexec := false,
                                   hist := (0 :: s.scan.hist).take 16, deferSaid := false, rangeSaid := false, faultSaid := false } }

/-- The input image written (R237). -/
def State.writeInput (s : State) (l : List Word) : State :=
  { s with mem := { s.mem with dtcm := mwrite 0 s.mem.dtcm 0x3E000 (l.flatMap bytesLE) } }

/-- SCAN_ENTRY (R233 to R237, R364, R372): at the latch instant, or at a later boundary of a scan whose entry has waited: the input image
written, the interrupted context stacked, and the core at SCAN_ENTRY at cycle 600 or, after a
wait, 14 cycles on (log entry 44). The frame's descriptor field names no source (log entry 50). -/
def State.scanEntry (sa : State) (pu : BitVec 2) : State :=
  if !sa.scanDue then sa
  else
    let sb := sa.scanLatch
    match sb.scan.latch with
    | none => sb
    | some l =>
      let pc := sb.core.pc
      let s := sb.withCore (fun c => { c.flushLoads with idle := [] })
      if s.core.wouldOverflow then s.enter 8 pc (s.nextBundle pc) 0 0 0 pu
      else
        let f := s.core.scanSp - 32
        if !pushOk s.core.scanSp || pu.getLsbD 0 then
          let r := s.free
          r.2.lockup 4 (r.1.toNat % 256) pc
        else
          let s2 := s.writeInput l
          let efp := s.core.efp
          let c := s.core
          let r := s2.free
          let s3 := r.2.pushFrame f pc (r.1.toNat % 32)
          let at600 := s.scan.start + 600
          let c1 : CoreSt := { s3.core with efp := f, priv := true, ie := false, mask := 15, scan := true, uentry := false,
                                            cwp := c.cwp + 1, pc := s.scanEntryPc,
                                              cyc := if c.cyc + 14 < at600 then at600 else c.cyc + 14 }
          { s3 with
              core := ((c1.putAt 28 efp).putAt 29 0xFFFFFFFF).putAt 31 f,
              scan := { s3.scan with phase := .execute, latch := none, efp := efp, frame := f, cwp := c.cwp + 1, precise := c.precise } }

end Sys2Proof.Machine
end

