-- ==== Sys2Proof/Machine/Mode.lean ====
section
/-! DEFINITION. Mode requests, the Dormant entry sequence, power-down, cold and warm start, Safe (04), with the steps other
chapters give them. -/

namespace Sys2Proof.Machine

/-- Registers set here. -/
def R.pwrEvt : Nat := 0x0003000C
def R.pwrBakCtl : Nat := 0x00030014
def R.pwrIen : Nat := 0x00030010

/-! Mode requests. -/

/-- The result of a request, with the false guards of an M5 request. -/
def State.modeRes (s : State) (r : Nat) (failed : BitVec 4) : State :=
  { s with mode := { s.mode with result := BitVec.ofNat 3 r, failed := failed } }

/-- A refused request: RESULT and MODE_REFUSED (11 Table LOG-4). -/
def State.modeRefuse (s : State) (req r : Nat) (failed : BitVec 4) : State :=
  (s.modeRes r failed).say .mode 0x0002 (BitVec.ofNat 32 req) (BitVec.ofNat 32 r) (failed.setWidth 32) (s.mode.seq.setWidth 32)

/-- MODE_CHANGE for a transition Id, after it. -/
def State.sayMode (s : State) (id : Nat) : State :=
  s.say .mode 0x0001 (BitVec.ofNat 32 id) (BitVec.ofNat 32 s.mode.prev.code) (BitVec.ofNat 32 s.mode.mode.code)
    (s.mode.seq.setWidth 32)

/-- What leaving Service ends: staging, with a running check abandoned (03 R93), and the authentication (M8). -/
def State.leaveService (s : State) : State :=
  if s.mode.mode = .service then
    let s1 := s.stageShut
    { s1 with key := { s1.key with authValid := false } }
  else s

/-- A transition to a running mode takes effect. -/
def State.modeGo (s : State) (id : Nat) (m : Mode) : State :=
  let s1 := s.leaveService
  let s2 := if m = .protect then s1.abandonBurst else s1
  ((s2.toMode m).modeRes 1 0).sayMode id

/-- SYS_MODE_REQ written (R103 to R108; requests during a start or an M9 sequence: log entry 54). -/
def State.modeReq (s0 : State) (req : Nat) : State :=
  if !s0.regsOn then s0
  else
    let s := { s0 with mode := { s0.mode with seq := s0.mode.seq + 1 } }
    let m := s.mode.mode
    if req = m.code ∧ !s.mode.starting then s.modeRes 1 0
    else if s.mode.starting ∨ !s.modeRps ∨ 5 < req then s.modeRefuse req 3 0
    else if req = 5 then (s.modeRes 5 0).latchOpen 19
    else if s.mode.m9.isSome then s.modeRes 5 0
    else if req = 3 ∧ m = .ready then
      let s1 := s.modeRes 5 0
      { s1 with mode := { s1.mode with m5 := true } }
    else if req = 2 ∧ m = .protect then (s.gateClose.modeGo 6 .ready)
    else if req = 2 ∧ m = .service then s.modeGo 8 .ready
    else if req = 4 ∧ m = .ready then
      if s.key.authValid && !s.key.authBusy then s.modeGo 7 .service else s.modeRefuse req 4 0
    else if req < 2 ∧ m ≠ .protect then
      let s1 := (s.modeRes 5 0).abandonBurst
      { s1 with mode := { s1.mode with m9 := some (req == 1), m5 := false }, scan := { s1.scan with run := false } }
    else s.modeRefuse req 3 0

/-- PROTECT_GUARD_SAMPLE (R104): the FABRIC tick after an M5 request. -/
def State.guardSample (s : State) : State :=
  if !s.mode.m5 || !s.regsOn then s
  else
    let s1 := { s with mode := { s.mode with m5 := false } }
    if s.mode.mode ≠ .ready then s1
    else if s.guards = 15 then (s1.modeGo 5 .protect).tapProtect.endHalt
    else s1.modeRefuse 3 2 (~~~s.guards)

/-! Power-down of the core die. -/

/-- What the core die and PERIPH held is lost; the Winter domain and what it retains stay (R108 step 5, 05 R139 step 7). -/
def State.coreDown (s0 : State) : State :=
  let s := s0.umuDown.wntCoreDown
  { s with
    mode := { s.mode with coreOn := false, starting := false, m5 := false, m9 := none, warmReq := none, window := false, run := none,
                          past7 := false, past8 := false, past10 := false, past11 := false, past13 := false },
    time := { s.time with run := false, edgeDt := none, pwr := 0x80, clkOk := 0, clkOver := 0 },
    pwr := { s.pwr with rails := 0, chgActive := false, chgDone := false, bakSrc := false, surge := false, twarn := 0, tjfOk := 0,
                        surgePeak := 0, tHigh := Vector.replicate 3 0, tLow := Vector.replicate 3 0, tShut := Vector.replicate 3 0,
                        tOut := Vector.replicate 3 0 },
    log := { s.log with flush := none, again := false, retried := false, flushErr := false, clearing := false, clearWait := false,
                        win := .ended, cursor := 0 },
    cfg := { s.cfg with img := none, refuseA := 0, refuseB := 0, fallback := false, stage := .closed, result := 0, denied := false,
                        closing := false },
    key := { KeySt.reset with flash := { s.key.flash with size0 := 0, size1 := 0, ok0 := false, ok1 := false, found1 := 0,
                                                          discErr := false, status := 0 },
                              vault := s.key.vault, vop := s.key.vop, wc := s.key.wc, wcKept := s.key.wcKept },
    afe := AfeSt.reset,
    chain := Vector.replicate 16 ChainSt.reset,
    fab := { FabSt.reset with safeLvl := s.fab.safeLvl, safeValid := s.fab.safeValid, bstRaw := s.fab.bstRaw },
    scan := { s.scan with run := false, phase := .idle, commit := none, deferred := [], redo := false, dirty := 0, hist := [] },
    recd := { RecSt.reset with recNo := s.recd.recNo, wptr := s.recd.wptr, known := s.recd.known },
    mem := { s.mem with itcm := [], dtcm := [], vs := [], shared := [] },
    core := CoreSt.reset,
    sch := SchSt.reset,
    zve := { s.zve with queue := [], run := none, tag := 0, scanFault := false, busy := 0, notes := [] },
    esu := EsuSt.reset,
    ifc := { IfcSt.reset with gin := s.ifc.gin, cts3 := s.ifc.cts3 },
    dbg := { DbgSt.reset with lock := s.dbg.lock },
    saf := SafSt.reset,
    regs := [], latches := [], lows := [] }

/-- The core die powered down outside Safe: into Sentry where the request names it, else into Dormant, whether the sentinel sleeps or runs
(log entry 91). -/
def State.downTo (s : State) (sentry : Bool) : State :=
  let s1 := s.coreDown
  if s1.mode.mode = .safe then s1 else s1.toMode (if sentry then .sentry else .dormant)

/-- Slots that still capture are discarded: before their trigger, and in their post-trigger fill (R108 step 2). -/
def State.dropCaptures (s : State) : State :=
  (List.finRange 8).foldl (fun (t : State) (n : Fin 8) =>
    let x := t.recd.slot[n]
    if x.st = .post then
      ({ t with recd := { t.recd with active := none, slot := vput t.recd.slot n RecSlot.reset } }).recLost n x.recNo 2
    else t) (s.recDiscard 2)

/-- DORMANT_ENTRY_SEQUENCE (R108): once no scan is in progress any more the capturing slots are discarded; once every sealed slot
is drained the rest follows. -/
def State.dormantEntry (s : State) : State :=
  match s.mode.m9 with
  | none => s
  | some sentry =>
    if !s.regsOn || !s.modeRps || s.core.scan || s.scan.commit.isSome || s.scan.redo || s.scan.phase != .idle then s
    else
      let s2 := s.dropCaptures
      if !s2.recd.order.isEmpty then s2
      else
        let s3 := s2.leaveService.abandonBurst.finishJobs
        let s4 := s3.say .mode 0x0001 9 (BitVec.ofNat 32 s.mode.mode.code) (if sentry then 1 else 0) (s.mode.seq.setWidth 32)
        ((s4.flushAll).umuSettle.umuCheckpoint true).downTo sentry

/-- Records that a power-down loses: as at the end of the readout window in Safe, elsewhere one RECORD_LOST per slot whose reason the spec
does not state, a free value (10 R291; log entry 90). -/
def State.recPowerLost (s : State) : State :=
  if s.mode.mode = .safe then s.recWindowEnd
  else
    (List.finRange 8).foldl (fun t n =>
      let x := t.recd.slot[n]
      if x.st = .free then t
      else
        let r := (t.putSlot n RecSlot.reset).free
        r.2.recLost n (if x.st = .capture then 0 else x.recNo) r.1)
      { s with recd := { s.recd with active := none, order := [], retried := false } }

/-- RST_N_RESET (R106, M14): low for 8,000 FIELD cycles with the core die powered, a power-fail sequence included: its flush is cut. The
mode stays as it was, which the cold start then shows as the mode before it. -/
def State.rstN (s : State) : State :=
  if !s.mode.coreOn then s
  else
    let s0 := { s with mode := { s.mode with pf := false },
                       pwr := if s.mode.pf then { s.pwr with lastFlush := 3 } else s.pwr }
    let s1 := ((s0.abandonBurst.recPowerLost).umuSettle.umuCheckpoint true).coreDown
    { s1 with mode := { s1.mode with rstStart := true } }

/-! Cold start. A step answers the state it leaves, or (error) the state in which it has failed. -/

abbrev Start := Except State State

/-- DT that a start loads from RTCT (02 R50). -/
def State.dtLoad (s : State) : DWord := BitVec.ofNat 64 (s.time.rtct.toNat * 100000000 / 32768)

/-- A cold start begins: SYS_START and the mode fields (R99, Tables MODE-11 to MODE-15). DT is loaded here, so that what steps 1 and 2
report carries it too (log entry 71). A crystal that gives edges ends the coarse RTC (02 R65). -/
def State.coldBegin (s : State) (id : Nat) (xrtc : Bool) : State :=
  let s1 := s.toMode .ready
  { s1 with
    time := { s1.time with dt := s.dtLoad, syncRtc := 0, syncDt := 0, synced := false, edgeDt := none,
                           coarse := s.time.coarse && !xrtc, rcFallback := s.time.rcFallback && !xrtc },
    mode := { s1.mode with starting := true, startId := id, wake := false, rstStart := false, seq := 0, failed := 0, result := 0,
                           m5 := false, m9 := none, warmReq := none, wcount := 0, harv := 0, cal := false, wcause := 0,
                           clsWarm := false, kindWarm := false, startDt := s.dtLoad, startTime := 0, warmDts := [], run := none,
                           safePend := [], window := false, done := 0, past7 := false, past8 := false, past10 := false, past11 := false,
                           past13 := false },
    pwr := { s1.pwr with vbakLowSaid := false, thermHold := false },
    cfg := { s1.cfg with refusals := 0 } }

/-- Step n of a start has ended. -/
def State.stepDone (s : State) (n : Nat) : State := { s with mode := { s.mode with done := n } }

/-- Step 1: trim, monitor self-test, whose failure is alarm MON_TEST (20 R573, Table SAF-2). -/
def State.cold1 (s : State) (e : ColdIn) : Start :=
  if !e.trimOk then .error (s.latchOpen 22)
  else if !e.monOk then .error ((s.say .safmon 0x8501 8 0 2 0).latchSafe 16 8)
  else .ok s

/-- Step 2: staged entries in the slots of a list are dropped and counted (R129). -/
def State.cold2 (s : State) (e : ColdIn) : State :=
  let bad := (List.range s.log.staged.length).filter (fun i => e.stageBad.contains i)
  let kept := ((List.range s.log.staged.length).zip s.log.staged).filterMap (fun x => if bad.contains x.1 then none else some x.2)
  let lost := min (s.log.lost.toNat + bad.length) 0xFFFFFFFF
  let s1 := { s with log := { s.log with staged := kept, lost := BitVec.ofNat 32 lost } }
  bad.foldl (fun (t : State) i => t.say .logu 0x0033 (BitVec.ofNat 32 i) 0 0 0) s1

/-- Islands in the order in which they start (02 R67). -/
def islandOrder : List (Fin 8) := [6, 5, 3, 2, 4, 0, 1]

/-- Step 3: rails, islands, DT; PERIPH begins at its Cold entries. -/
def State.cold3 (s : State) (e : ColdIn) : Start :=
  match e.railBad with
  | some _ => .error (s.latchOpen 21)
  | none =>
    let s0 := { s with pwr := { s.pwr with rails := 15 }, mode := { s.mode with coreOn := true } }
    match e.pllBad with
    | some i =>
      let up := islandOrder.takeWhile (fun j => j != i)
      let w : BitVec 8 := up.foldl (fun w j => setBit w j.val true) 0x80
      .error ({ s0 with time := { s0.time with pwr := w, run := w.getLsbD 5 } }.latchSafe 5 (BitVec.ofNat 32 i.val))
    | none =>
      let s1 := { s0 with time := { s0.time with pwr := 0xFF, run := true }, regs := [(R.safDegCfg, 0x18)] }
      .ok (s1.wntCoreUp.esuStart e.kat)

/-- Step 4: memory BIST; every memory tested is 0 afterwards. The parameter names the memory by its place in Table MODE-3 (log entry
92). -/
def State.cold4 (s : State) (e : ColdIn) : Start :=
  let s1 := { s with mem := { s.mem with itcm := [], dtcm := [], vs := [] }, recd := { s.recd with mem := [] } }
  match e.bistBad with
  | some m => .error (s1.latchSafe 17 (BitVec.ofNat 32 m.val))
  | none => .ok s1

/-- A slot's check would pass were the flash on CS1 the one its image asks for. -/
def State.wantsCs1 (s : State) (slot : Bool) (key : List Byte) (sz0 : Nat) : Bool :=
  ([20, 21, 22, 23, 24, 25, 26, 27] : List Nat).any (fun n =>
    match s.checkSlot slot key sz0 n with
    | .ok l => l.img.mem.cs1 != 0
    | .error _ => false)

/-- Discovery failed on a chip select (18 R514). -/
def State.sayDisc (s : State) (cs : Word) (step : Word) : State := s.say .mov 0x9103 cs step 0 0

/-- Step 6 up to the image: the test of K0 and slot 11, discovery, the choice (03 R86, 18 R514). -/
def State.cold6pick (s : State) (e : ColdIn) : State × Option Loaded :=
  match s.slotKey 0, s.slotKey 11 with
  | some k0, some _ =>
    match e.sfdp0 with
    | none =>
      (({ s with key := { s.key with flash := { s.key.flash with discErr := true } } }).sayDisc 0 e.sfdpStep, none)
    | some n0 =>
      let n1 := e.sfdp1.getD 0
      let s1 := { s with key := { s.key with flash := { s.key.flash with size0 := n0, ok0 := true, found1 := n1 } } }
      let r : State × Option Loaded := s1.chooseSlot k0 n0 n1
      let said := e.sfdp1.isNone && ((r.1.cfg.refuseA == (0x10 : Byte) && s1.wantsCs1 false k0 n0) ||
        (r.1.cfg.refuseB == (0x10 : Byte) && s1.wantsCs1 true k0 n0))
      let s2 := if said then r.1.sayDisc 1 e.sfdpStep else r.1
      (match r.2 with
      | none => (s2, none)
      | some l =>
        ({ s2 with key := { s2.key with flash := { s2.key.flash with size1 := if l.img.mem.cs1 = 0 then 0 else n1,
                                                                     ok1 := l.img.mem.cs1 != 0 } } }, some l))
  | _, _ =>
    let s2 := s.sayRefusal false 6 0 0
    ({ s2 with cfg := { s2.cfg with refuseA := 6, refuseB := 0 } }, none)

/-- Steps 6: the chosen image becomes the structure (03 R87, R88; IMG_LOADED). -/
def State.cold6load (s : State) (e : ColdIn) (l : Loaded) : State :=
  let i := l.img
  let s1 := { s with cfg := { s.cfg with img := some i },
                     mem := { s.mem with itcm := mlist 0 0 l.code, dtcm := mlist 0 0 l.data },
                     time := { s.time with pwr := i.pwren.setWidth 8 ||| 0xE0 } }
  let s2 := s1.say .boot 0x0011 (if i.slot then 1 else 0) i.seq (wordLE i.hash) (bitAt s1.cfg.fallback 0)
  if i.hash ≠ s2.wnt.hash ∨ e.sntCodeBad then s2.sntReload l.snt i.hash e.sntCodeBad else s2

/-- Step 7: keys, write counters, seal key, tamper seeds, KEYS_LOADED (18 R535). -/
def State.cold7 (s : State) (e : ColdIn) : State :=
  let s1 := (s.keyStep e.vaultBad).wcStep e.wcBad
  let s2 := s1.say .sec 0x6003 (s1.slotMask .active) (s1.slotMask .revoked) s1.ieuStat 0
  let s3 := s2.esuTamper e.seed
  { s3 with mode := { s3.mode with past7 := true } }

/-- A range region 1 to 3 in use has no key loaded. -/
def State.keyMissing (s : State) : Bool :=
  match s.memCfg with
  | none => false
  | some m => m.regions.any (fun a => (s.areaKey a).isNone)

/-- Steps 6 and 7 (22 R610: without an image step 7 still runs). -/
def State.cold67 (s : State) (e : ColdIn) : Start :=
  let r := s.cold6pick e
  match r.2 with
  | none => .error ((r.1.cold7 e).latchOpen 1)
  | some l =>
    let s1 := (r.1.cold6load e l).cold7 e
    if s1.keyMissing then .error (s1.latchOpen 23) else .ok s1

/-- Step 8: the fabric configured in both copies (08 R231); from its end it computes, and drives the outputs. -/
def State.cold8 (s : State) (e : ColdIn) : Start :=
  match s.cfg.img with
  | none => .error s
  | some i =>
    let s1 := s.fabConfigure i
    if !e.fabOk then .error (s1.latchOpen 17) else .ok ({ s1 with mode := { s1.mode with past8 := true } }).settle

/-- Microseconds since the start began (R130): its steps up to 8, or its reset, then the ticks of DT. -/
def State.startUsNow (s : State) : Nat := s.mode.startUs.toNat + s.since s.mode.startMark / 100

/-- Step 9 begins (06 R178, R181): in a cold start the channels, comparators and coefficient memories take the image's values
first. -/
def State.step9Begin (s : State) (r : StartRun) : State :=
  let s1 := match s.cfg.img with
    | none => s
    | some i =>
      if r.cold then
        { s with afe := { s.afe with ctl := i.afe, cmpCtl := Vector.ofFn (fun m => i.cmpCtl m), calFrame := false },
                 chain := Vector.ofFn (fun k => { s.chain[k] with coef := ((i.chain[k]).coef ++ List.replicate 96 0).take 96 }) }
      else s
  { s1 with mode := { s1.mode with run := some { r with step9 := some s.time.dt } } }

/-- Step 10 (07 R199, R200; log entry 70): one synchronising reset of every enabled chain, reported with cause 0, also where no chain is
enabled; the CRC baselines in a cold start; N + 1 outputs awaited of each enabled chain. Flag episodes begin anew. -/
def State.prime (s : State) (cold : Bool) : State :=
  let s1 := s.syncDone s.chainsOn 0
  { s1 with chain := Vector.ofFn (fun k =>
      let st := s1.chain[k]
      { st with prime := match s1.feeder k, s1.chainCfg k with
                  | some _, some c => c.unsettled + 1
                  | _, _ => 0,
                crc := if cold then s1.coefCrcOf k else st.crc,
                ovrClear := 64, ovrCount := 0, satClear := 64, satCount := 0 }) }

/-- Step 9's corrections take effect, or CAL_FAIL and Safe (06 R177, R178, R180); then step 10 begins. -/
def State.step9End (s : State) (r : StartRun) : State :=
  match s.calFault r.cal r.cold with
  | some f =>
    let t := { s with mode := { s.mode with run := none }, afe := { s.afe with calPass := false } }
    if s.safeDue 18 then t else (t.say .afe 0x8103 f.1 f.2.1 f.2.2 0).latchOpen 18
  | none =>
    let a := { s.afe with ofs := r.cal.ofs, gain := r.cal.gain, calPass := true,
                          sarOfs := if r.cold then r.cal.sarOfs else s.afe.sarOfs,
                          sarGain := if r.cold then r.cal.sarGain else s.afe.sarGain,
                          calFrame := s.afe.calFrame || (s.afe.sarNext == 0 && s.afe.cycles == 0) }
    ({ s with afe := a,
              mode := { s.mode with cal := true, calDt := s.time.dt, calTjf := s.pwr.tjf, done := 9,
                                    run := some { r with step9 := none } } }).prime r.cold

/-- A line of the LOG area counts as written: written, or its check fails. -/
def State.logLine (s : State) (a : Area) (k : List Byte) (i : Nat) : Bool :=
  s.key.flash.readLine a k (s.logAddr i) != .unwritten

/-- The boundary between written and erased lines of the LOG area, by binary search in [lo, hi). -/
def State.logSearch (s : State) (a : Area) (k : List Byte) : Nat → Nat → Nat → Nat → Nat × Nat
  | 0, lo, _, bad => (lo, bad)
  | n + 1, lo, hi, bad =>
    if hi ≤ lo then (lo, bad)
    else
      let mid := (lo + hi) / 2
      let bad' := bad + (if s.key.flash.readLine a k (s.logAddr mid) = .bad then 1 else 0)
      if s.logLine a k mid then State.logSearch s a k n (mid + 1) hi bad' else State.logSearch s a k n lo mid bad'

/-- Step 11 (11 R312, R313): the retained write point tested, else found; FULL kept, or found; the erased reserve; then flushes may
run. -/
def State.cold11 (s : State) : State :=
  match s.logArea with
  | none => { s with mode := { s.mode with past11 := true } }
  | some (a, k) =>
    let w := s.log.wptr
    let test := decide (w ≤ s.entries) && (w == 0 || s.logLine a k (w - 1)) && (w == s.entries || !s.logLine a k w)
    let s1 :=
      if test then s
      else
        let r := s.logSearch a k 32 0 s.entries 0
        ({ s with log := { s.log with wptr := r.1, full := s.log.full || decide (s.entries ≤ r.1) } }).say .logu 0x0035
          (BitVec.ofNat 32 w) (BitVec.ofNat 32 r.1) (BitVec.ofNat 32 r.2) 0
    let s2 := { s1 with log := { s1.log with reserve := s1.log.wptr / 1024 * 1024 + (if s1.log.wptr % 1024 = 0 then 0 else 1024) } }
    let s3 := s2.extendReserve s2.reserveNeed
    let s4 := ({ s3 with mode := { s3.mode with past11 := true } }).stageAll
    if s4.log.staged.isEmpty then s4 else s4.flushTrigger

/-- Step 12 (R98, R120, R121): the restart class. -/
def State.classStep (sa : State) (bad : BitVec 3) : State :=
  let s := sa.harvUpset bad
  match s.cfg.img with
  | none => s
  | some i =>
    let good := s.scan.kept && s.scan.harvGood
    let s0 := { s with scan := { s.scan with good := good, dirty := 0 } }
    if good ∧ s.scan.hash = i.hash then { s0 with mode := { s0.mode with clsWarm := true, harv := 0 } }
    else
      let why : BitVec 2 := if !s.scan.kept then 3 else if !good then 1 else 2
      let s1 := s0.harvLoad i.harvest i.hash
      { s1 with mode := { s1.mode with clsWarm := false, harv := why } }

/-- VBAK_LOW written once in a start (05 R151). -/
def State.sayVbakLow (s : State) (mv : Half) : State :=
  if s.pwr.vbakLowSaid then s
  else
    let s1 := (s.say .pwr 0x1005 (mv.setWidth 32) 0 0 0).evt R.pwrEvt 3
    { s1 with pwr := { s1.pwr with vbakLowSaid := true } }

/-- Step 13 of either start (R111, 09 R264, R265, 12 R346, 13 R377, 14 R414). -/
def State.step13 (s : State) : State :=
  match s.cfg.img with
  | none => s
  | some i =>
    let s1 := (s.coreStart i.scan.kernel).schStart
    let s2 := { s1 with scan := { s1.scan with latch := none, run := true, phase := .idle, start := 0, latchDt := s.time.dt,
                                               first := true, reexec := false,
                                               missed := false, ovrPrev := false, redo := false, hist := [], commit := none,
                                               deferred := [], deferSaid := false, rangeSaid := false, faultSaid := false, dirty := 0 },
                        saf := { s1.saf with held := true, pause := none, lock := false },
                        mode := { s1.mode with past13 := true, done := 13, run := none } }
    if !s2.pwr.vbakOk && bit (s2.reg R.pwrBakCtl) 0 then s2.sayVbakLow s2.pwr.vbakMv else s2

/-- Step 13 of a cold start (09 R264: the output image is 0; 17 R510; 10 R291). -/
def State.cold13 (s : State) (umuBad : BitVec 2) : State :=
  let s1 := s.step13
  let s2 := { s1 with mem := { s1.mem with dtcm := mclear s1.mem.dtcm 0x3F000 0x400 } }
  let s3 := ((s2.setReg R.scnSeq 0).umuRestore umuBad)
  { s3 with recd := { s3.recd with arm := s3.recCfg.isSome,
                                   seqs := Vector.ofFn (fun q => match s3.brm q with
                                     | none => SeqSt.reset
                                     | some c => { SeqSt.reset with en := c.en, q := c.initial }),
                                   brmCtl := boolBits 4 ((List.finRange 4).map (fun q => match s3.brm q with
                                     | none => false
                                     | some c => c.en)) } }

/-- START_TO (R130): 500 ms have passed since the cold start began. -/
def State.startTo (s : State) : State :=
  if s.mode.starting && !s.mode.past13 && s.mode.mode == .ready && !s.mode.kindWarm && decide (500000 ≤ s.startUsNow) &&
    !s.safeDue 24 then
    ({ s with mode := { s.mode with run := none } }).latchOpen 24
  else s

/-- The steps after step 10, or of a warm start without calibration (Table MODE-5): steps 11 to 13 of a cold start, 12 and 13 of a warm
start, whose output image keeps REQ as the fabric holds it (09 R265). A pending Safe cause, or 500 ms of a cold start, end the start
short of them (R128, R130). -/
def State.startFinish (s : State) (r : StartRun) : State :=
  if !s.mode.safePend.isEmpty then { s with mode := { s.mode with run := none } }
  else if r.cold then
    if 500000 < s.startUsNow then s.startTo
    else
      let s1 := (s.cold11.stepDone 11).classStep r.harvBad
      s1.cold13 r.umuBad
  else
    let s3 := (s.classStep r.harvBad).step13
    ((s3.dtcmPut 0x3F000 s3.fab.req).dtcmPut 0x3F080 0).dtcmPut 0x3F004 (s3.outWord 4 &&& ~~~(0x100 : Word))

/-- Step 10 ends once every enabled chain has delivered its outputs (07 R200), and the start goes on. -/
def State.primeEnd (s : State) : State :=
  match s.mode.run with
  | none => s
  | some r =>
    if r.step9.isSome || s.chain.toList.any (fun c => c.prime != 0) then s
    else ({ s with mode := { s.mode with past10 := true, done := 10 } }).startFinish r

/-- A start at a tick: step 9 ends 52 ms after it began (its typical duration: log entry 55). -/
def State.startTick (s : State) : State :=
  match s.mode.run with
  | none => s
  | some r =>
    match r.step9 with
    | none => s
    | some t => if s.mode.pf || decide (s.since t < 5200000) then s else (s.step9End r).primeEnd

/-- Steps 1 to 8 after a beginning. -/
def State.coldSteps (s : State) (e : ColdIn) : Start := do
  let s1 ← s.cold1 e
  let s3 ← (((s1.stepDone 1).cold2 e).stepDone 2).cold3 e
  let s4 ← (s3.stepDone 3).cold4 e
  let s7 ← (((s4.stepDone 4).lanesStart true e.laneBad).stepDone 5).cold67 e
  let s8 ← (s7.stepDone 7).cold8 e
  .ok (s8.stepDone 8)

/-- A cold start may begin: the core die is unpowered and RST_N has been released (M14), or a core-die wake request meets a
valid VBAT (M4), also in Safe after its readout window and without a thermal hold (R126, 05 R150). -/
def State.coldReady (s : State) : Bool :=
  !s.mode.coreOn && !s.mode.pf && s.pwr.winter &&
    (s.mode.rstStart || (s.mode.wake && s.pwr.vbatValid && !s.mode.window && !s.pwr.thermHold))

/-- COLD_START (R109 to R112): steps 1 to 8, and step 9 begins; a step that fails leaves its Safe cause latched (R129). The start
goes on as DT advances and the chains deliver their outputs. -/
def State.coldStart (s : State) (e : ColdIn) : State :=
  if !s.coldReady then s
  else
    let id := if s.mode.mode = .safe then 12 else if s.mode.rstStart then 14 else 4
    match (s.coldBegin id e.xrtc).coldSteps e with
    | .ok t =>
      let r : StartRun := { cold := true, cal := e.cal, step9 := none, umuBad := e.umuBad, harvBad := e.harvBad }
      ({ t with mode := { t.mode with startUs := e.us, startMark := t.time.dt } }).step9Begin r
    | .error t => { t with mode := { t.mode with startUs := e.us, startMark := t.time.dt } }

/-! Warm start. -/

/-- Registers kept as written that a warm start clears (the Warm columns; the rest of them keep their word). -/
def warmCleared : List Nat :=
  [R.afeOwtCtl, 0x000A0120, 0x000A0124] ++ (List.range 128).map (fun n => 0x000A0200 + 4 * n) ++
  [R.schCtxBase, R.schEvt, R.schEvt + 4, R.zveCtl, R.zveFpx, R.zveErr, R.zveEvt, R.zveEvt + 4] ++ (List.range 16).map R.zveRes ++
  [0x00100040] ++ (List.range 8).map R.vaultKey ++ [R.vaultKcv] ++
  (List.range 8).flatMap (fun c => [R.movSrc c, R.movDst c, R.movLen c, R.movCtl c]) ++
  (List.finRange 2).flatMap (fun k => [R.can k 0, R.can k 0x20, R.can k 0x24, R.spi k 0, R.spi k 0x10, R.spi k 0x14, R.i2c k 0,
    R.i2c k 0x10,
    R.i2c k 0x14]) ++
  (List.finRange 4).flatMap (fun u => [R.uart u 0, R.uart u 0x10, R.uart u 0x14])

/-- They take their Warm entries. -/
def State.clearWarm (s : State) : State := { s with regs := s.regs.filter (fun x => !warmCleared.contains x.1) }

/-- SYS_RESET_REQ written (Table MODE-14). -/
def State.resetReq (s : State) (v : Word) : State :=
  if s.regsOn && s.modeRps && fld v 16 16 == 0x5A3C && bit v 0 then s.latchWarm 1 else s

/-- ITCM bytes 0 to CODE_LEN − 1 give CODE_CRC (03 R97). -/
def State.itcmOk (s : State) : Bool :=
  match s.cfg.img with
  | none => false
  | some i => crc32c (mread 0 s.mem.itcm 0 i.scan.codeLen) == i.scan.codeCrc

/-- Step 9 of a warm start is needed (R116). -/
def State.calDue (s : State) : Bool :=
  decide (360000000000 ≤ s.since s.mode.calDt) ||
    decide (10 ≤ ((s.pwr.tjf.toNat : Int) - s.mode.calTjf.toNat).natAbs)

/-- CORE, VECTOR and PERIPH take what a warm start gives them (R114, 00 R23): the registers, staging and authentication, the scan core,
the scheduler with its image entries, an interrupted scan, the engine's queue, the interfaces, the mover's status. -/
def State.warmReset (s0 : State) : State :=
  let s := (s0.clearWarm.stageShut.esuWarm).ifcWarm
  let k := s.key
  let t := ({ s with core := { CoreSt.reset with cyc := s.core.cyc, cycDt := s.core.cycDt } }).schStart
  { t with
    scan := { s.scan with run := false, phase := .idle, latch := none, commit := none, deferred := [], redo := false, dirty := 0 },
    mode := { s.mode with seq := 0, failed := 0, result := 0, m5 := false, m9 := none },
    cfg := { s.cfg with result := 0, denied := false },
    key := { k with vres := 0, mov := Vector.replicate 8 MovSt.reset, chal := List.replicate 8 0, fresh := false,
                    token := List.replicate 33 0, authValid := false, authBusy := false, authLock := false, authRes := 0 },
    recd := { s.recd with swtrig := 0 },
    zve := { s.zve with queue := [], run := none, tag := 0, scanFault := false, busy := 0, notes := [] },
    saf := { s.saf with cfgOpen := 200, cfgClosed := 0, lock := false, held := true, pause := none },
    latches := [], lows := [] }

/-- Steps of a warm start after the reset: ITCM, lanes, then calibration and priming if due, else the last steps (Table MODE-5). -/
def State.warmSteps (s : State) (cal : CalIn) (laneBad : BitVec 18) (harvBad : BitVec 3) : State :=
  if !s.itcmOk then s.latchOpen 8
  else
    let s1 := (s.lanesStart false laneBad).stepDone 5
    let r : StartRun := { cold := false, cal := cal, step9 := none, umuBad := 0, harvBad := harvBad }
    if s1.calDue then s1.step9Begin r else ({ s1 with mode := { s1.mode with cal := false } }).startFinish r

/-- A fourth warm start within 10 s of the first of the previous three (R118); exactly 10 s counts as within (log entry 93). -/
def State.warmStorm (s : State) : Bool :=
  match s.mode.warmDts[2]? with
  | none => false
  | some t => decide (s.since t ≤ 1000000000)

/-- WARM_START (R113 to R118): a latched cause acts, unless a Safe cause is pending, once a commit and a vault command in
progress have completed. -/
def State.warmStart (s : State) (cal : CalIn) (laneBad : BitVec 18) (harvBad : BitVec 3) (us : Word) : State :=
  match s.mode.warmReq with
  | none => s
  | some cause =>
    if !s.regsOn || !s.modeRps || !s.mode.past13 || !s.mode.safePend.isEmpty || s.scan.commit.isSome || s.key.vop.isSome ||
        s.mode.m9.isSome then s
    else if s.warmStorm then ({ s with mode := { s.mode with warmReq := none } }).latchOpen 20
    else
      let s1 := s.finishJobs.leaveService
      let m := if s.mode.mode = .service then Mode.ready else s.mode.mode
      let s2 := (s1.toMode m).warmReset
      let md := { s2.mode with
        starting := true, startId := 13, warmReq := none, wcount := satInc s.mode.wcount, wcause := BitVec.ofNat 4 cause.val,
        kindWarm := true, startDt := s.time.dt, startTime := 0, startUs := us, startMark := s.time.dt, done := 3, past13 := false,
        warmDts := (s.time.dt :: s.mode.warmDts).take 3 }
      let s3 := { s2 with mode := md, pwr := { s2.pwr with vbakLowSaid := false } }
      s3.warmSteps cal laneBad harvBad

end Sys2Proof.Machine
end

