-- ==== Sys2Proof/Machine/Power.lean ====
section
/-! DEFINITION. Supply, backup, charger, temperature and the power-fail sequence (05), flushes and the erased reserve (11), and
image staging (03). -/

namespace Sys2Proof.Machine

/-! Power-fail. -/

/-- Step 7: the core die powered down; Dormant, or Safe where the part is in Safe. -/
def State.pfEnd (s : State) (flush : BitVec 2) : State :=
  let s1 := s.stageAll
  let s2 := { s1 with pwr := { s1.pwr with lastFlush := flush }, mode := { s1.mode with pf := false } }
  s2.downTo false

/-! VBAT, surge, charger, VBAK. The figures reported are the last frame means of the SAR (06 R170). -/

/-- VBAT_VALID (R137). -/
def State.vbatGood (s : State) : State := s.when s.pwr.winter { s with pwr := { s.pwr with vbatValid := true } }

/-- SURGE_BEGIN and SURGE_END (R137, Table PWR-7); the peak is the largest figure since the surge began. -/
def State.surgeBegin (s : State) : State :=
  if !s.mode.coreOn || s.pwr.surge then s
  else
    (({ s with pwr := { s.pwr with surge := true, surgeDt := s.time.dt, surgePeak := s.pwr.vbatMv } }).evt R.pwrEvt 2).say .pwr 0x1003
      (s.pwr.vbatMv.setWidth 32) 0 0 0
def State.surgeEnd (s : State) : State :=
  if !s.mode.coreOn || !s.pwr.surge then s
  else
    ({ s with pwr := { s.pwr with surge := false } }).say .pwr 0x1004 (BitVec.ofNat 32 (s.since s.pwr.surgeDt / 100))
      (s.pwr.surgePeak.setWidth 32) 0 0

/-- The charger may run (R144). -/
def State.chgEn (s : State) : Bool := s.mode.coreOn && !s.pwr.bakSrc && bit (s.reg R.pwrBakCtl) 0

/-- CHARGER_TARGET and CHARGER_RESTART (R144). -/
def State.chgTarget (s : State) : State :=
  if s.chgEn && s.pwr.chgActive then
    ({ s with pwr := { s.pwr with chgActive := false, chgDone := true, vbakOk := true } }).evt R.pwrEvt 4
  else s
def State.chgRestart (s : State) : State :=
  if s.chgEn && s.pwr.chgDone then { s with pwr := { s.pwr with chgActive := true, chgDone := false } } else s

/-- The charger's target by its code: codes 10 to 15 act as 9 (Table PWR-13). -/
def chgCode (v : Word) : Nat := min 9 (fldN v 4 4)

/-- PWR_BAK_CTL written (R144, R145; what a new target does to CHG_DONE: log entry 61). -/
def State.bakCtl (s : State) (v : Word) : State :=
  if s.regsOn && fld v 16 16 == 0xB4C2 then
    let s1 := s.setReg R.pwrBakCtl (v &&& 0xF7)
    let keep := s.pwr.chgDone && chgCode v == chgCode (s.reg R.pwrBakCtl)
    { s1 with pwr := { s1.pwr with chgActive := bit v 0 && !s.pwr.bakSrc && !keep, chgDone := keep } }
  else s

/-- VBAK_OK falls (R151). -/
def State.vbakFall (s : State) : State :=
  if !s.mode.coreOn || !s.pwr.vbakOk then s
  else
    let s1 := { s with pwr := { s.pwr with vbakOk := false } }
    if bit (s.reg R.pwrBakCtl) 0 then s1.sayVbakLow s.pwr.vbakMv else s1

/-! Temperature. Readings are °C plus 64, as PWR_TEMP shows them. -/

/-- Degrees of a reading. -/
def degC (x : Byte) : Word := BitVec.ofInt 32 ((x.toNat : Int) - 64)

/-- Reading of a sensor: TJF, TJC0, TJC1. -/
def PwrSt.reading (p : PwrSt) (n : Fin 3) : Byte :=
  match n.val with
  | 0 => p.tjf
  | 1 => p.tjc0
  | _ => p.tjc1

/-- TEMP_WARN, TEMP_CLEAR, TEMP_SHUTDOWN (R147 to R149, R153): eight consecutive measurements agree. A measurement that completes both
qualifications warns first (Table PWR-9). -/
def State.tempWarn (s : State) (n : Fin 3) : State :=
  if s.mode.coreOn && !s.pwr.twarn.getLsbD n.val && decide (8 ≤ s.pwr.tHigh[n]) then
    (({ s with pwr := { s.pwr with twarn := setBit s.pwr.twarn n.val true } }).evt R.pwrEvt 0).say .therm 0x1010
      (BitVec.ofNat 32 n.val) (degC (s.pwr.reading n)) 0 0
  else s
def State.tempClear (s : State) (n : Fin 3) : State :=
  if s.mode.coreOn && s.pwr.twarn.getLsbD n.val && decide (8 ≤ s.pwr.tLow[n]) then
    (({ s with pwr := { s.pwr with twarn := setBit s.pwr.twarn n.val false } }).evt R.pwrEvt 1).say .therm 0x1011
      (BitVec.ofNat 32 n.val) (degC (s.pwr.reading n)) 0 0
  else s
def State.tempShutdown (s : State) (n : Fin 3) : State :=
  if !s.mode.coreOn || s.safeDue 12 then s
  else if 8 ≤ s.pwr.tShut[n] then
    ((s.tempWarn n).say .therm 0x1012 (BitVec.ofNat 32 n.val) (degC (s.pwr.reading n)) 0 0).latchSafe 12 (BitVec.ofNat 32 n.val)
  else if 8 ≤ s.pwr.tOut[n] then s.latchSafe 12 (BitVec.ofNat 32 n.val)
  else s

/-- TJF_MEASUREMENT while the primary Safe cause is THERMAL (R150). -/
def State.tjfReading (s : State) (deg : Byte) : State :=
  if s.mode.mode = .safe ∧ s.mode.safePri = 12 then
    let n := if deg.toNat ≤ 194 then min 8 (s.pwr.tjfOk + 1) else 0
    { s with pwr := { s.pwr with tjf := deg, tjfOk := n, thermHold := s.pwr.thermHold && decide (n < 8) } }
  else s

/-- RAIL_FAULT (R153), once (Table PWR-7): the rail's order in Table PWR-2. -/
def State.railFault (s : State) (rail : Fin 4) (mv : Half) : State :=
  if !s.mode.coreOn || s.mode.pf || s.safeDue 21 then s
  else
    (({ s with pwr := { s.pwr with rails := setBit s.pwr.rails rail.val false } }).say .pwr 0x1006 (BitVec.ofNat 32 (rail.val + 1))
      (mv.setWidth 32) 0 0).latchOpen 21

/-! Flush, reserve, clear, fetch (11). -/

/-- Lines left in the erased reserve. -/
def State.room (s : State) : Nat := s.log.reserve - s.log.wptr

/-- A page program of a flush of n entries has failed, k of its lines after the last failure written (R311). The same page is retried once;
where more lines were written since, it is another page, which has its own retry. -/
def State.flushFail (s : State) (n k : Nat) : State :=
  let again := s.log.retried && k == 0
  let s2 := s.sayFlushFail (if again then 2 else 1)
  if again then s2.flushStop else { s2 with log := { s2.log with flush := some (n - k), retried := true } }

/-- k lines of the flush of n entries written, then its end: whole, or a failure of its next page. -/
def State.flushWrite (s : State) (n k : Nat) (whole : Bool) : State × Bool :=
  let r := s.flushN k
  let done := s.log.staged.length - r.1.log.staged.length
  if r.2 && whole then (r.1, true) else (r.1.flushFail n done, false)

/-- FLUSH_COMPLETE (R299, R300, R311; in a power-fail R141 and Table PWR-10). A flush that needs a line outside the reserve
waits for RESERVE_ERASE. A power-fail flush whose reserve is shorter than the staged entries ends as a full one with the rest left
staged (log entry 94). -/
def State.flushComplete (s : State) (res : FlushRes) : State :=
  match s.log.flush with
  | none => s
  | some n0 =>
    let put (st : Byte) : State := { s with key := { s.key with flash := { s.key.flash with status := st } } }
    if s.mode.pf then
      let end_ (r : State × Bool) : State := if r.2 then (r.1.evt R.logEvt 0).pfEnd 1 else if r.1.log.flushErr then r.1.pfEnd 3 else r.1
      match res with
      | .done =>
        let s1 := s.stageAll
        end_ (s1.flushWrite s1.log.staged.length (min s1.log.staged.length s1.room) true)
      | .cut k =>
        let s1 := s.stageAll
        ((s1.flushN (min (min k s1.log.staged.length) s1.room)).1).pfEnd 3
      | .failed k st =>
        let s1 := (put st).stageAll
        end_ (s1.flushWrite s1.log.staged.length (min (min k s1.log.staged.length) s1.room) false)
    else
      match res with
      | .done =>
        if s.room < n0 ∧ s.log.wptr + n0 < s.entries then s
        else
          let r := s.flushWrite n0 n0 true
          if r.2 then (r.1.evt R.logEvt 0).afterFlush else r.1
      | .failed k st => if k < n0 then ((put st).flushWrite n0 (min k s.room) false).1 else s
      | .cut _ => s

/-- RESERVE_ERASE (R300). -/
def State.reserveErase (s : State) : State :=
  if s.mode.coreOn && s.mode.past11 && !s.mode.pf && !s.log.clearing then s.extendReserve s.reserveNeed else s

/-- LOG_CLEARED (R309); not while the boundary register has the pins (log entry 109). -/
def State.logCleared (s : State) : State :=
  if s.mode.coreOn && s.log.clearing && !s.mode.pf && s.log.flush.isNone && !s.bscan then s.doClear else s

/-- LOG_FETCH_COMPLETE (R305, R307). -/
def State.logFetched (s : State) : State := if s.regsOn then s.endFetch else s

/-! Image staging (03). -/

/-- CFG_STAGE_CTL acts: Service, or the debug port in provisioning (R89, 22 R609). -/
def State.stageOpenTo (s : State) (m : Master) : Bool := s.mode.mode == .service || (m == .debug && s.provisioning)

/-- A staging command outside Service. -/
def State.stageDeny (s : State) : State := { s with cfg := { s.cfg with denied := true } }

/-- CFG_STAGE_CTL written with CMD 1 OPEN, 2 CHECK, 3 CLOSE (Table IMG-18; OPEN and CHECK during a check: log entry 56). CLOSE abandons a
check at once, and waits for a write of the slot (R93). -/
def State.stageCmd (s : State) (m : Master) (cmd : Nat) : State :=
  if !s.regsOn then s
  else if !s.stageOpenTo m then s.stageDeny
  else if cmd = 1 then (if s.cfg.stage = .checking then s else { s with cfg := { s.cfg with stage := .opened, closing := false } })
  else if cmd = 2 then (if s.cfg.stage = .checking then s else { s with cfg := { s.cfg with stage := .checking } })
  else if cmd = 3 then
    (if s.slotJob then
      let r := if s.cfg.stage = .checking then 0xFF else s.cfg.result
      { s with cfg := { s.cfg with closing := true, stage := if s.cfg.stage = .checking then .opened else s.cfg.stage, result := r } }
    else s.stageShut)
  else s

/-- CHECK_COMPLETE (R92, R94): the inactive slot judged as a cold start would; no line of it is read while the boundary register has the
pins (log entry 109). -/
def State.checkDone (s : State) : State :=
  if s.cfg.stage ≠ .checking ∨ !s.regsOn then s
  else
    let slot := s.inactive
    let put (t : State) (code : Nat) : State := { t with cfg := { t.cfg with stage := .checked, result := BitVec.ofNat 8 code } }
    match s.slotKey 0, s.slotKey 11 with
    | some k0, some _ =>
      let f := s.key.flash
      if s.bscan then put (s.sayRefusal slot 4 0 0) 4
      else (match s.checkSlot slot k0 f.size0 f.found1 with
      | .ok _ => put s 0
      | .error (c, o) => put (s.sayRefusal slot c o (s.slotSeq slot k0)) c)
    | _, _ => put (s.sayRefusal slot 6 0 0) 6

end Sys2Proof.Machine
end

