-- ==== Sys2Proof/Machine/Bus.lean ====
section
/-! DEFINITION. Register locations (25), what a read and a write of each does (00 Tables SCOPE-3, SCOPE-4, SCOPE-7 and SCOPE-9),
and the address map of the scan core (01 Table ARCH-3, 12 Table ISA-3). -/

namespace Sys2Proof.Machine

/-! Locations. -/

/-- View codes (Table SCOPE-3). -/
inductive View where
  | p | ro | rw
  deriving DecidableEq, Repr

/-- Locations off + step * i of a block, i below n (n20 on a TSJ-5120): view, RW bits, W1C bits. A location whose bits are both
0 is computed at every read, or a write of it acts. -/
structure RegRow where
  off : Nat
  n : Nat
  n20 : Nat
  step : Nat
  view : View
  rw : Word
  w1c : Word
  deriving DecidableEq, Repr

/-- n locations with no stored bit. -/
def liveRow (off n : Nat) (view : View) : RegRow := { off, n, n20 := n, step := 4, view, rw := 0, w1c := 0 }
/-- n locations with stored bits. -/
def heldRow (off n : Nat) (view : View) (rw : Word) : RegRow := { off, n, n20 := n, step := 4, view, rw, w1c := 0 }
/-- n locations of which a TSJ-5120 has n20. -/
def partRow (off n n20 : Nat) (view : View) : RegRow := { off, n, n20, step := 4, view, rw := 0, w1c := 0 }
/-- One location in each of n instances, step bytes apart. -/
def stepRow (off n step : Nat) (view : View) (rw w1c : Word) : RegRow := { off, n, n20 := n, step, view, rw, w1c }
/-- An event register and its enable register, one after the other. -/
def evtRows (off : Nat) (mask : Word) : List RegRow :=
  [{ off, n := 1, n20 := 1, step := 4, view := .p, rw := 0, w1c := mask }, heldRow (off + 4) 1 .p mask]

/-- Tables INDEX-1 and INDEX-2. -/
def rowsSys : List RegRow :=
  [liveRow 0x00 2 .ro, liveRow 0x10 1 .ro, liveRow 0x14 1 .p, liveRow 0x18 1 .ro, liveRow 0x1C 1 .p, liveRow 0x20 6 .ro]
def rowsIsl : List RegRow :=
  [liveRow 0x00 2 .ro, liveRow 0x10 6 .ro, stepRow 0x30 1 4 .p 0 0xFF, liveRow 0x40 8 .ro]
def rowsCfg : List RegRow :=
  [liveRow 0x00 2 .ro, liveRow 0x10 8 .ro, liveRow 0x30 4 .ro, liveRow 0x40 1 .p, liveRow 0x44 1 .ro, liveRow 0x50 1 .ro]
def rowsPwr : List RegRow := [liveRow 0x00 3 .ro, liveRow 0x14 1 .p, liveRow 0x18 1 .ro] ++ evtRows 0x0C 0x1F
def rowsAfe : List RegRow :=
  [partRow 0x00 16 8 .ro, partRow 0x40 16 8 .ro, partRow 0x80 16 8 .ro, partRow 0xC0 16 8 .ro, liveRow 0x100 1 .ro,
   liveRow 0x110 1 .p, liveRow 0x114 1 .ro, partRow 0x140 8 4 .ro, partRow 0x160 8 4 .ro, liveRow 0x180 1 .ro,
   liveRow 0x200 20 .ro] ++ evtRows 0x280 0xFF
def rowsFlt : List RegRow :=
  [partRow 0x00 16 8 .ro, partRow 0x40 16 8 .ro, partRow 0x80 16 8 .ro, partRow 0xC0 16 8 .ro, partRow 0x100 16 8 .ro,
   liveRow 0x140 1 .p, liveRow 0x144 1 .ro, heldRow 0x150 1 .rw 0x7F0F, liveRow 0x154 1 .ro] ++ evtRows 0x160 0x3F
def rowsFab : List RegRow :=
  [liveRow 0x00 1 .ro, liveRow 0x04 1 .p, heldRow 0x10 1 .p 0xFF03, liveRow 0x14 1 .p, liveRow 0x20 4 .ro, liveRow 0x40 2 .ro,
   liveRow 0x48 1 .p, liveRow 0x50 2 .ro, liveRow 0x60 4 .ro, partRow 0x80 12 6 .ro, partRow 0xC0 12 6 .ro, liveRow 0x100 24 .ro,
   liveRow 0x200 32 .ro, liveRow 0x280 8 .ro, liveRow 0x300 12 .p, liveRow 0x340 1 .ro, liveRow 0x360 4 .ro] ++ evtRows 0x380 0xFF

/-- Tables INDEX-3 and INDEX-4. -/
def rowsScn : List RegRow :=
  [liveRow 0x00 3 .ro, heldRow 0x0C 1 .p 0x7FFFF, liveRow 0x10 6 .ro] ++ evtRows 0x30 0x7F
def rowsRec : List RegRow :=
  [liveRow 0x00 7 .ro, liveRow 0x20 1 .p, liveRow 0x24 6 .ro, liveRow 0x40 8 .ro, liveRow 0x100 1 .p, liveRow 0x104 1 .ro,
   liveRow 0x110 4 .ro, liveRow 0x120 1 .rw, liveRow 0x130 4 .ro] ++ evtRows 0x60 0x3F
def rowsLog : List RegRow :=
  [liveRow 0x00 5 .ro, liveRow 0x20 1 .rw, liveRow 0x24 1 .ro, liveRow 0x30 2 .p, liveRow 0x40 8 .rw, heldRow 0x60 4 .rw 0xFFFFFFFF,
   liveRow 0x70 1 .rw] ++ evtRows 0x80 0x1F
def rowsExc : List RegRow :=
  [liveRow 0x00 3 .ro, liveRow 0x10 1 .ro, liveRow 0x100 8 .ro, heldRow 0x120 2 .p 0xFFFFFFFF, heldRow 0x200 51 .p 0x10F,
   liveRow 0x2CC 13 .p, heldRow 0x300 64 .p 0x10F]
def rowsSch : List RegRow :=
  [liveRow 0x00 2 .p, liveRow 0x08 1 .ro, liveRow 0x10 3 .rw, liveRow 0x1C 3 .ro, liveRow 0x40 2 .ro, liveRow 0x50 2 .p,
   liveRow 0x100 64 .p, liveRow 0x200 64 .ro, liveRow 0x300 64 .ro, liveRow 0x400 64 .rw, liveRow 0x500 64 .p] ++ evtRows 0x30 0x7F
def rowsRing : List RegRow :=
  let one (o : Nat) (v : View) : RegRow := stepRow o 64 64 v 0 0
  [one 0x00 .p, one 0x04 .ro, one 0x08 .ro, one 0x0C .rw, one 0x10 .rw, one 0x14 .rw, one 0x18 .ro, one 0x1C .ro, one 0x20 .ro,
   one 0x24 .ro, one 0x28 .ro, one 0x2C .ro, one 0x30 .ro, one 0x34 .ro, one 0x38 .ro, one 0x3C .ro]

/-- Table INDEX-5. -/
def rowsZve : List RegRow :=
  [liveRow 0x00 1 .ro, heldRow 0x04 1 .p 0x073F3F1F, liveRow 0x08 1 .p, stepRow 0x0C 1 4 .p 0 0x3F, liveRow 0x10 11 .ro,
   liveRow 0x80 16 .ro] ++ evtRows 0x40 0x7F
def rowsSnt : List RegRow :=
  [liveRow 0x00 1 .ro, heldRow 0x10 8 .p 0xFFFFFFFF, liveRow 0x30 1 .p, liveRow 0x40 8 .p, liveRow 0x60 1 .p, heldRow 0x70 1 .p 3,
   liveRow 0x78 2 .ro, liveRow 0x88 4 .ro] ++ evtRows 0x80 0x1F
def rowsUmu : List RegRow :=
  [liveRow 0x00 4 .ro, liveRow 0x10 3 .ro, liveRow 0x20 1 .ro, liveRow 0x24 1 .p, heldRow 0x30 1 .p 0x7F, liveRow 0x34 2 .p,
   liveRow 0x3C 1 .ro, liveRow 0x100 64 .ro, liveRow 0x200 32 .ro, liveRow 0x8000 4 .ro, liveRow 0x8010 4 .p,
   heldRow 0x8020 1 .p 0xFFFFFFFF, liveRow 0x8024 1 .p, liveRow 0x8028 1 .ro, liveRow 0x8030 4 .ro, liveRow 0x8040 1 .p] ++
  evtRows 0x40 0x1F ++ evtRows 0x8050 0x1F

/-- Table INDEX-6. -/
def rowsSec : List RegRow :=
  [liveRow 0x00 1 .ro, liveRow 0x0C 2 .ro, liveRow 0x20 8 .p, heldRow 0x40 1 .p 0x3F, liveRow 0x44 2 .p, liveRow 0x4C 1 .ro] ++
  evtRows 0x04 0xF
def rowsVault : List RegRow :=
  [liveRow 0x00 1 .ro, liveRow 0x10 12 .ro, liveRow 0x40 2 .ro, liveRow 0x80 16 .ro, heldRow 0x100 8 .p 0xFFFFFFFF, liveRow 0x120 1 .p,
   heldRow 0x124 1 .p 0xFFFFFFFF, liveRow 0x128 1 .ro]
def rowsEsu : List RegRow :=
  [liveRow 0x00 1 .ro, liveRow 0x04 2 .p, liveRow 0x0C 1 .ro, liveRow 0x10 1 .rw, liveRow 0x14 1 .ro, liveRow 0x20 5 .ro] ++
  evtRows 0x40 0x1F
def rowsSaf : List RegRow :=
  [liveRow 0x00 1 .ro, stepRow 0x04 1 4 .p 0 0x1FE, liveRow 0x0C 1 .p, liveRow 0x10 1 .ro, liveRow 0x20 2 .p, liveRow 0x28 2 .ro,
   liveRow 0x30 1 .p, liveRow 0x40 2 .ro] ++ evtRows 0x50 0xF
def rowsMov : List RegRow :=
  [liveRow 0x00 2 .ro, stepRow 0x100 3 32 .p 0 0, stepRow 0x104 3 32 .p 0 0, stepRow 0x108 3 32 .p 0 0,
   stepRow 0x160 5 32 .p 0xFFFFFFFF 0, stepRow 0x164 5 32 .p 0xFFFFFFFF 0, stepRow 0x168 5 32 .p 0x01FFFFFF 0,
   stepRow 0x10C 8 32 .p 0 0, stepRow 0x110 8 32 .p 0 0, stepRow 0x114 8 32 .p 0 0, stepRow 0x118 8 32 .p 0 0] ++ evtRows 0x40 0xFF

/-- Table INDEX-7: CAN (21 Table IFC-6), UART, SPI, I2C and GPIO (Table IFC-7), DBG (22 Table TEST-6). -/
def rowsCan : List RegRow :=
  [liveRow 0x00 3 .p, heldRow 0x0C 1 .p 0x7F, liveRow 0x10 2 .ro, liveRow 0x30 8 .p, stepRow 0x100 64 128 .p 7 0x300,
   stepRow 0x104 64 128 .p 0x3FFFFFFF 0, stepRow 0x108 64 128 .p 0x1FFFFFFF 0, stepRow 0x10C 64 128 .p 0x7FFFFFFF 0,
   stepRow 0x110 64 128 .p 0x7F 0, stepRow 0x114 64 128 .p 0xFFFFFFFF 0] ++
  (List.range 16).map (fun j => stepRow (0x140 + 4 * j) 64 128 .p 0xFFFFFFFF 0) ++ evtRows 0x20 0x7F
def rowsUart : List RegRow :=
  let one (o : Nat) (v : View) (rw w1c : Word) : RegRow := stepRow o 4 0x1000 v rw w1c
  [one 0x00 .p 0x7F 0, one 0x04 .p 0xFFFFF 0, one 0x08 .ro 0 0, one 0x0C .p 0 0, one 0x10 .p 0 0x3F, one 0x14 .p 0x3F 0,
   one 0x18 .p 0x3F3F 0, one 0x1C .ro 0 0]
def rowsSpi : List RegRow :=
  let one (o : Nat) (v : View) (rw w1c : Word) : RegRow := stepRow o 2 0x1000 v rw w1c
  [one 0x00 .p 0x00FF07FF 0, one 0x04 .ro 0 0, one 0x08 .p 0 0, one 0x0C .p 0 0, one 0x10 .p 0 3, one 0x14 .p 3 0]
def rowsI2c : List RegRow :=
  let one (o : Nat) (v : View) (rw w1c : Word) : RegRow := stepRow o 2 0x1000 v rw w1c
  [one 0x00 .p 0xF 0, one 0x04 .p 0 0, one 0x08 .p 0 0, one 0x0C .ro 0 0, one 0x10 .p 0 0xF, one 0x14 .p 0xF 0]
def rowsGpio : List RegRow :=
  [heldRow 0x00 2 .p 0xFF, liveRow 0x08 2 .p, liveRow 0x10 1 .ro, heldRow 0x14 1 .p 0xFFFFFF] ++ evtRows 0x18 0xFFF
def rowsDbg : List RegRow :=
  [liveRow 0x00 1 .ro, liveRow 0x04 1 .p, liveRow 0x20 8 .p, heldRow 0x40 1 .p 0x3F, liveRow 0x44 2 .p, liveRow 0x4C 1 .ro,
   liveRow 0x50 2 .p] ++ evtRows 0x60 0xF

/-- Locations of a block (01 Table ARCH-2). -/
def blockRows : Nat → List RegRow
  | 0x00 => rowsSys | 0x01 => rowsIsl | 0x02 => rowsCfg | 0x03 => rowsPwr | 0x04 => rowsAfe | 0x05 => rowsFlt | 0x06 => rowsFab
  | 0x07 => rowsScn | 0x08 => rowsRec | 0x09 => rowsLog | 0x0A => rowsExc | 0x0B => rowsSch | 0x0C => rowsRing | 0x0D => rowsZve
  | 0x0E => rowsSnt | 0x0F => rowsUmu | 0x10 => rowsSec | 0x11 => rowsVault | 0x12 => rowsEsu | 0x13 => rowsSaf
  | 0x14 => rowsCan | 0x15 => rowsCan | 0x16 => rowsUart | 0x17 => rowsSpi | 0x18 => rowsI2c | 0x19 => rowsMov | 0x1A => rowsGpio
  | 0x1B => rowsDbg
  | _ => []

/-- The location at an offset inside its block is one of a row's. -/
def RegRow.has (r : RegRow) (part : Part) (x : Nat) : Bool :=
  decide (r.off ≤ x) && (x - r.off) % r.step == 0 &&
    decide ((x - r.off) / r.step < (match part with | .tsj5140 => r.n | .tsj5120 => r.n20))

/-- The row of the register at an offset from the view base; none where no register lies, where the part lacks the unit (R7),
or where the image leaves the block's island without power (R652, R653). -/
def State.regRow (s : State) (o : Nat) : Option RegRow :=
  if o / 0x10000 = 0x0D ∧ !s.time.pwr.getLsbD 1 then none
  else (blockRows (o / 0x10000)).find? (fun r => r.has s.part (o % 0x10000))

/-! 64-bit pairs (R16 to R18). -/

/-- The offset is that of the low word of a pair. -/
def isPairLow (o : Nat) : Bool :=
  let x := o % 0x10000
  [0x24, 0x10010, 0x10018, 0x10020, 0x60060, 0x70010, 0xB0040, 0xB0050, 0xD0010, 0xD0030, 0xE0078, 0xE0088, 0xF0010, 0xF8030,
   0xF8038].contains o ||
  (o / 0x10000 == 6 && decide (0x100 ≤ x) && decide (x < 0x160) && x % 8 == 0) ||
  (o / 0x10000 == 0xF && decide (0x100 ≤ x) && decide (x < 0x200) && x % 8 == 0) ||
  ((o / 0x10000 == 0x14 || o / 0x10000 == 0x15) && decide (0x30 ≤ x) && decide (x < 0x50) && x % 8 == 0)

/-- The offset is that of the low word of a pair that can be written. -/
def isPairRw (o : Nat) : Bool :=
  let x := o % 0x10000
  o == 0xB0050 || ((o / 0x10000 == 0x14 || o / 0x10000 == 0x15) && decide (0x30 ≤ x) && decide (x < 0x50) && x % 8 == 0)

/-- The low word that ISL_SYNC_RTC_LO's read has latched is shown until its next read (02 Table TIME-12). -/
def syncWords : List Nat := [0x1001C, 0x10020, 0x10024]

/-- A latched word of a master. -/
def State.latched (s : State) (key o : Nat) : Option Word :=
  (s.latches.find? (fun l => l.master == key && l.offset == o)).map Latch.value

/-- Latched words set. -/
def State.latch (s : State) (key : Nat) (os : List Nat) : State :=
  let new : List Latch := os.map (fun o => { master := key, offset := o, value := s.word o })
  { s with latches := new ++ s.latches.filter (fun l => !(l.master == key && os.contains l.offset)) }

/-- A pair written with both words. -/
def State.pairWrite (s : State) (o : Nat) (v : DWord) : State :=
  if o = 0xB0050 then { s with sch := { s.sch with ringEvt := s.sch.ringEvt &&& ~~~v } }
  else
    let k := fin 1 (o / 0x10000 - 0x14)
    let c := s.ifc.can[k]
    match o % 0x10000 with
    | 0x30 => s.putCan k { c with rxpend := c.rxpend &&& ~~~v }
    | 0x38 => s.canTxReq k v
    | 0x40 => s.free.2.canAbort k v (bit s.free.1 0)
    | _ => s.putCan k { c with txdone := c.txdone &&& ~~~v }

/-! Writes that act. -/

/-- Key of a master's latches: the scan core has one for each of its contexts (R16). -/
def State.latchKey (s : State) : Master → Nat
  | .core => if s.core.scan then 1 else 0
  | .mover => 2
  | .debug => 3

/-- Producer port of a master (14 Table SCH-5). -/
def portOf : Master → Fin 5
  | .core => 0 | .mover => 1 | .debug => 4

/-- Writes of SYS, ISL, CFG, PWR that act. -/
def State.actSys (s : State) (m : Master) (o : Nat) (v : Word) : Option State :=
  match o with
  | 0x00014 => some (s.modeReq (fldN v 0 3))
  | 0x0001C => some (s.resetReq v)
  | 0x20040 => some (s.stageCmd m (fldN v 0 4))
  | 0x30014 => some (s.bakCtl v)
  | _ => none

/-- Writes of AFE, FLT, FAB that act. -/
def State.actField (s : State) (o : Nat) (v : Word) : Option State :=
  let x := o % 0x10000
  if o / 0x10000 = 4 then
    if x < 0x40 then some (s.chCtlWrite (fin 15 (x / 4)) v)
    else if x = 0x110 then some (s.owtGo v)
    else if 0x140 ≤ x ∧ x < 0x160 then some (s.cmpCtlWrite (fin 7 ((x - 0x140) / 4)) v)
    else none
  else if o = 0x50140 then some (s.fltSync v)
  else if o / 0x10000 = 6 then
    if x = 0x04 then some (s.grpReqWrite v)
    else if x = 0x14 then some (s.setDataWrite v)
    else if x = 0x48 then some (s.tripRstWrite v)
    else if 0x300 ≤ x ∧ x < 0x330 then some (s.bstCfgWrite (fin 11 ((x - 0x300) / 4)) v)
    else none
  else none

/-- Writes of REC, BRM, LOG that act. -/
def State.actRec (s : State) (o : Nat) (v : Word) : Option State :=
  match o with
  | 0x80020 => some (if bit v 0 then s.recArm else s.recDisarm)
  | 0x80100 => some (s.brmCtlWrite v)
  | 0x80120 => some (s.brmSwtrig v)
  | 0x90020 => some (s.startFetch (fld v 0 20))
  | 0x90030 => some (s.logCtl v)
  | 0x90034 => some (s.logClearWr v)
  | 0x90070 => some (s.sweCode v)
  | _ => none

/-- Writes of SCH and the rings that act; denied: the scan core issues them in scan context or while EFP is not 0 (R394). -/
def State.actSch (s : State) (m : Master) (denied : Bool) (o : Nat) (v : Word) : Option State :=
  let x := o % 0x10000
  let t := fin 63 (x % 0x100 / 4)
  let r := fin 63 (x / 64)
  if o / 0x10000 = 0xB then
    if x = 0 then some (s.schCtlWrite v)
    else if x = 4 then some (s.schBaseWrite v)
    else if x = 0x10 then some (s.schMaskWrite v denied)
    else if x = 0x14 then some (s.schWait v denied)
    else if x = 0x18 then some (s.schYield v denied)
    else if 0x100 ≤ x ∧ x < 0x200 then some (s.schSlotWrite t v)
    else if 0x400 ≤ x ∧ x < 0x500 then some (s.setFlags t v)
    else if 0x500 ≤ x ∧ x < 0x600 then some (s.clearFlags t v)
    else none
  else if o / 0x10000 = 0xC then
    match x % 64 with
    | 0x00 => some (s.ringCtlWrite r v)
    | 0x04 =>
      let y := s.sch.ring[r]
      some (s.putRing r { y with stat := y.stat &&& ~~~(fld v 8 5) })
    | 0x0C => some (s.ringHdr r (portOf m) v)
    | 0x10 => some (s.ringData r (portOf m) v)
    | _ => none
  else none

/-- SEC_AUTH_CTL and DBG_AUTH_CTL written (18 R532, 22 R606). -/
def State.secCtl (s : State) (v : Word) : State :=
  if fld v 16 16 ≠ 0x5E4C then s.evt R.secEvt 3
  else
    let s1 := if bit v 0 then s.askSec else s
    if bit v 1 then s1.secGo else s1
def State.dbgAuthCtl (s : State) (v : Word) : State :=
  if fld v 16 16 ≠ 0xD3B6 then s.evt R.dbgEvt 2
  else
    let s1 := if bit v 0 then s.askDbg else s
    if bit v 1 then s1.dbgGo else s1

/-- SEC_AUTH_DATA and DBG_AUTH_DATA written: the selected token word; 33 to 63 select nothing. -/
def State.secData (s : State) (v : Word) : State :=
  { s with key := { s.key with token := s.key.token.set (fldN (s.reg 0x100040) 0 6) v } }
def State.dbgData (s : State) (v : Word) : State :=
  { s with dbg := { s.dbg with token := s.dbg.token.set (fldN (s.reg 0x1B0040) 0 6) v } }

/-- VAULT_CMD written; an OP other than STAGE and REVOKE names no command and has no effect (log entry 35). -/
def State.vaultCmd (s : State) (m : Master) (v : Word) : State :=
  let slot := fin 15 (fldN v 0 4)
  match fldN v 4 2 with
  | 1 => s.vaultStage m (fld v 16 16) slot (fld v 8 4)
  | 2 => s.vaultRevoke m (fld v 16 16) slot
  | _ => s

/-- MOV_CTL written: the fields are kept, GO starts the job (R526). -/
def State.movCtlWrite (s : State) (c : Fin 8) (v : Word) : State :=
  if bit v 0 then s.movGo c (fld v 1 2) (bit v 3) (fin 63 (fldN v 8 6))
  else if c.val < 3 then s
  else s.setReg (R.movCtl c.val) (v &&& 0x3F0E)

/-- Writes of the Winter-facing blocks that act. -/
def State.actSnt (s : State) (o : Nat) (v : Word) : Option State :=
  if 0xF8010 ≤ o ∧ o < 0xF8020 then
    some (s.hmCfg (fin 3 ((o - 0xF8010) / 4)) true (fld v 0 3) (fld v 4 2) (bit v 6) (fld v 16 10))
  else
    match o with
    | 0xD0008 => some (s.zvAbortWrite v)
    | 0xE0030 => some (if bit v 0 then s.c2sGo else s)
    | 0xE0060 => some (if bit v 0 then s.s2cAck else s)
    | 0xE0070 => some (((s.setReg R.sntUartReq (v &&& 3)).suChange 0).suChange 1)
    | 0xF0024 => some (s.umuBillWrite v)
    | 0xF0034 => some (s.schedDataWrite v)
    | 0xF0038 => some (s.schedCtlWrite v)
    | 0xF8024 => some (s.presetGo v)
    | 0xF8040 => some (s.withdraw v)
    | _ => none

/-- Writes of SEC, the vault, ESU, SAF, the mover that act. -/
def State.actKey (s : State) (m : Master) (o : Nat) (v : Word) : Option State :=
  if o / 0x10000 = 0x19 then
    let c := fin 7 ((o % 0x10000 - 0x100) / 32)
    if o % 0x10000 < 0x100 then none
    else if o % 32 = 0x0C then some (s.movCtlWrite c v)
    else if o % 32 = 0x18 then some (s.movAbort c v)
    else none
  else
    match o with
    | 0x100044 => some (s.secData v)
    | 0x100048 => some (s.secCtl v)
    | 0x110120 => some (s.vaultCmd m v)
    | 0x120004 => some (s.esuCtl v)
    | 0x13000C => some (s.degCfgWrite v)
    | 0x130020 => some (s.wdtCfgWrite v)
    | 0x130024 => some (s.wdtKick v)
    | 0x130030 => some (s.inject (fld v 16 16) (fldN v 0 4))
    | _ => none

/-- DBG_LOCK_CMD written; whether the OTP takes the step is free. -/
def State.lockCmd (s : State) (v : Word) : State :=
  match fldN v 0 2 with
  | 1 => s.free.2.lockStep (fld v 16 16) false (bit s.free.1 0)
  | 2 => s.free.2.lockStep (fld v 16 16) true (bit s.free.1 0)
  | _ => s.evt R.dbgEvt 2

/-- Writes of the interfaces and DBG that act. -/
def State.actIfc (s : State) (m : Master) (o : Nat) (v : Word) : Option State :=
  let x := o % 0x10000
  let k := fin 1 (x / 0x1000)
  match o / 0x10000 with
  | 0x14 | 0x15 =>
    let c := fin 1 (o / 0x10000 - 0x14)
    if x = 0 then some (s.canCtl c v) else if x = 4 then some (s.canTiming c false v)
    else if x = 8 then some (s.canTiming c true v) else none
  | 0x16 => if x % 0x1000 = 0x0C then some (s.uartWrite (fin 3 (x / 0x1000)) v) else none
  | 0x17 => if x % 0x1000 = 8 then some (s.spiWrite k v) else none
  | 0x18 => if x % 0x1000 = 4 then some (s.i2cCmd k v) else none
  | 0x1A => if x = 8 then some (s.gpioSet v) else if x = 0xC then some (s.gpioClr v) else none
  | 0x1B =>
    if x = 4 then some (s.dbgCtl m v)
    else if x = 0x44 then some (s.dbgData v)
    else if x = 0x48 then some (s.dbgAuthCtl v)
    else if x = 0x50 then some (s.lockCmd v)
    else if x = 0x54 then some (s.free.2.rfrWrite v (bit s.free.1 0))
    else none
  | _ => none

/-- A write that acts, by block. -/
def State.regAct (s : State) (m : Master) (denied : Bool) (o : Nat) (v : Word) : Option State :=
  let b := o / 0x10000
  if b < 4 then s.actSys m o v
  else if b < 7 then s.actField o v
  else if b < 0xA then s.actRec o v
  else if b < 0xD then s.actSch m denied o v
  else if b < 0x10 then s.actSnt o v
  else if b < 0x14 ∨ b = 0x19 then s.actKey m o v
  else s.actIfc m o v

/-- Fields kept by a register: RW bits take the written value, W1C bits written 1 clear, other bits stay (Table SCOPE-4). -/
def State.regKeep (s : State) (r : RegRow) (o : Nat) (v : Word) : State :=
  if r.rw = 0 ∧ r.w1c = 0 then s
  else
    let old := s.reg o
    s.setReg o ((old &&& ~~~(r.rw ||| r.w1c)) ||| (v &&& r.rw) ||| (old &&& r.w1c &&& ~~~v))

/-- A word written to the register at an offset of the row r (Table SCOPE-4, R17, R18). -/
def State.regWrite (s : State) (r : RegRow) (m : Master) (denied : Bool) (o : Nat) (v : Word) : State :=
  if isPairRw o then { s with lows := mset 0 s.lows o v }
  else if isPairRw (o - 4) then s.pairWrite (o - 4) (pair v (mget 0 s.lows (o - 4)))
  else
    match s.regAct m denied o v with
    | some t => t
    | none => s.regKeep r o v

/-! Reads that act. -/

/-- A read of the register at an offset; act: through the privileged view, or of a P/U-RW register (R12, R16, 14 R404). -/
def State.regRead (s : State) (key : Nat) (act : Bool) (o : Nat) : Word × State :=
  let b := o / 0x10000
  let x := o % 0x10000
  if o = 0x10018 then (s.word o, s.latch key (if act then syncWords else [0x1001C]))
  else
    match s.latched key o with
    | some w => (w, s)
    | none =>
      if isPairLow o then (s.word o, s.latch key [o + 4])
      else if !act then (s.word o, s)
      else if o = 0x40114 then
        (s.word o, { s with afe := { s.afe with owDone := false, owDenied := false, owAband := false } })
      else if o = 0x50144 then (s.word o, s.setReg o 0)
      else if o = 0x20044 then (s.word o, { s with cfg := { s.cfg with denied := false } })
      else if o = 0x9005C then s.readWin7
      else if o = 0x120008 then s.condRead
      else if o = 0x120010 then s.drbgRead
      else if b = 0xC ∧ x % 64 = 0x14 then s.ringPop (fin 63 (x / 64))
      else if b = 0x16 ∧ x % 0x1000 = 0x0C then s.uartRead (fin 3 (x / 0x1000))
      else if b = 0x17 ∧ x % 0x1000 = 0x0C then s.spiRead (fin 1 (x / 0x1000))
      else if b = 0x18 ∧ x % 0x1000 = 0x08 then s.i2cRead (fin 1 (x / 0x1000))
      else (s.word o, s)

/-! Address map. -/

/-- Regions of Table ARCH-3. -/
inductive MapRegion where
  | itcm | dtcm | harv | vs | recm | shared | periph | unpriv | none
  deriving DecidableEq, Repr

/-- Region of an address. -/
def regionOf (a : Nat) : MapRegion :=
  if a < 0x40000 then .itcm
  else if 0x10000000 ≤ a ∧ a < 0x10040000 then .dtcm
  else if 0x18000000 ≤ a ∧ a < 0x18004000 then .harv
  else if 0x20000000 ≤ a ∧ a < 0x2007A000 then .vs
  else if 0x28000000 ≤ a ∧ a < 0x28080000 then .recm
  else if 0x30000000 ≤ a ∧ a < 0x30002000 then .shared
  else if 0x40000000 ≤ a ∧ a < 0x401C0000 then .periph
  else if 0x50000000 ≤ a ∧ a < 0x501C0000 then .unpriv
  else .none

/-- An access to the region costs a core near-access cycles (12). -/
def MapRegion.near : MapRegion → Bool
  | .itcm | .dtcm => true
  | _ => false

/-- Who accesses: master, its privilege, scan context. -/
structure Access where
  m : Master
  priv : Bool
  scan : Bool
  deriving DecidableEq, Repr

/-- Outcome of an access (Table ISA-3, Table SCOPE-9), a violation of privilege first, then alignment, then the location. -/
def State.status (s : State) (x : Access) (store : Bool) (size : Nat) (a : Word) : BusStatus :=
  let n := a.toNat
  let r := regionOf n
  let row := s.regRow (n % 0x1000000 / 4 * 4)
  let roWrite := r == .unpriv && store && (match row with | some w => w.view == .ro | .none => false)
  if (!x.priv && (r == .harv || r == .shared || r == .periph)) || roWrite then .privilege
  else if n % size ≠ 0 then .misaligned
  else
    match r with
    | .none => .busError
    | .itcm | .recm => if store then .busError else .ok
    | .dtcm => if store && decide (0x1003E000 ≤ n) && decide (n < 0x1003F000) then .busError else .ok
    | .harv => if store && !x.scan then .busError else .ok
    | .vs | .shared => .ok
    | .periph | .unpriv =>
      if size ≠ 4 then .busError
      else match row with
        | .none => .busError
        | some w => if r == .unpriv && w.view == .p then .busError else .ok

/-- Bytes of a memory region at an address. -/
def State.memBytes (s : State) (a n : Nat) : List Byte :=
  match regionOf a with
  | .itcm => mread 0 s.mem.itcm a n
  | .dtcm => mread 0 s.mem.dtcm (a - 0x10000000) n
  | .harv => (List.range n).map (fun i => s.harvByte (a - 0x18000000 + i))
  | .vs => mread 0 s.mem.vs (a - 0x20000000) n
  | .recm => mread 0 s.recd.mem (a - 0x28000000) n
  | .shared => mread 0 s.mem.shared (a - 0x30000000) n
  | _ => []

/-- A load of size bytes that the map allows: its value, zero-extended. -/
def State.load (s : State) (x : Access) (size : Nat) (a : Word) : Word × State :=
  let n := a.toNat
  match regionOf n with
  | .periph => s.regRead (s.latchKey x.m) true (n - 0x40000000)
  | .unpriv =>
    let o := n - 0x50000000
    s.regRead (s.latchKey x.m) (match s.regRow o with | some w => w.view == .rw | .none => false) o
  | _ => (BitVec.ofNat 32 (natLE (s.memBytes n size)), s)

/-- A store that reaches its target; denied as for actSch. -/
def State.storeNow (s : State) (m : Master) (denied : Bool) (size : Nat) (a v : Word) : State :=
  let n := a.toNat
  let bs := (bytesLE v).take size
  match regionOf n with
  | .dtcm => { s with mem := { s.mem with dtcm := mwrite 0 s.mem.dtcm (n - 0x10000000) bs } }
  | .harv => s.harvStore (n - 0x18000000) bs
  | .vs => { s with mem := { s.mem with vs := mwrite 0 s.mem.vs (n - 0x20000000) bs } }
  | .shared => { s with mem := { s.mem with shared := mwrite 0 s.mem.shared (n - 0x30000000) bs } }
  | .periph | .unpriv =>
    let o := n % 0x1000000
    match s.regRow o with
    | some r => s.regWrite r m denied o v
    | .none => s
  | _ => s

/-- A store held until commit completion; the 33rd of a scan is refused (09 R250, R251). -/
def State.deferStore (s : State) (size : Nat) (a v pc : Word) : State :=
  if s.scan.deferred.length < 32 then
    { s with scan := { s.scan with deferred := s.scan.deferred ++ [{ size := size, addr := a, value := v }] } }
  else
    let s1 := s.evt R.scnEvt 4
    if s1.scan.deferSaid then s1
    else ({ s1 with scan := { s1.scan with deferSaid := true } }).say .scan 0x4004 (s1.reg R.scnSeq) pc 0 0

/-- A store of size bytes that the map allows, of the bundle at pc (09 R244, R250). -/
def State.store (s : State) (x : Access) (size : Nat) (a v pc : Word) : State :=
  let n := a.toNat
  let r := regionOf n
  if x.scan && (r == .shared || r == .periph || r == .unpriv) then s.deferStore size a v pc
  else if x.m == .core && s.scan.commit.isSome && decide (0x1003F000 ≤ n) && decide (n < 0x1003F400) then s.evt R.scnEvt 5
  else s.storeNow x.m (x.m == .core && s.core.efp != 0) size a v

/-! Register commands. -/

/-- A block that a warm start has reset and not yet enabled again: those of the CORE island until step 13, ZVE until step 5 (00 R24). -/
def State.warmHolds (s : State) (a : Word) : Bool :=
  let b := a.toNat % 0x10000000 / 0x10000
  s.mode.starting && s.mode.kindWarm && !s.mode.past13 &&
    (b == 7 || b == 0xA || b == 0xB || b == 0xC || (b == 0xD && decide (s.mode.done < 5)))

/-- The master can access registers now: the scan core and the mover while the core die runs, the debug port while the TAP works
and its lock state allows the address (22 R604; log entry 49), in a warm start only a block that is enabled (00 R24). -/
def State.canAccess (s : State) (m : Master) (a : Word) : BusStatus :=
  match m with
  | .debug =>
    if !s.regsOn then .busError
    else if s.dbgFull || (s.dbg.lock == 1 && dbgLockedReach a) then (if s.warmHolds a then .busError else .ok)
    else .privilege
  | _ => if s.running && !s.mode.pf then .ok else .busError

/-- Access context of a master. -/
def State.accessOf (s : State) (m : Master) : Access :=
  match m with
  | .core => { m := .core, priv := s.core.priv, scan := s.core.scan }
  | _ => { m := m, priv := true, scan := false }

/-- The answer recorded. -/
def State.answer (s : State) (st : BusStatus) (data : Word) : State := { s with resp := ⟨st, data⟩ }

/-- Bytes of a width. -/
def widthBytes : Width → Nat
  | .byte => 1 | .half => 2 | .word => 4

/-- A read command of a master. -/
def State.busRead (s : State) (m : Master) (w : Width) (a : Word) : State :=
  let x := s.accessOf m
  let st := match s.canAccess m a with
    | .ok => s.status x false (widthBytes w) a
    | e => e
  if st = .ok then
    let r := s.load x (widthBytes w) a
    r.2.answer .ok r.1
  else s.answer st 0

/-- A write command of a master. -/
def State.busWrite (s : State) (m : Master) (w : Width) (a v : Word) : State :=
  let x := s.accessOf m
  let st := match s.canAccess m a with
    | .ok => s.status x true (widthBytes w) a
    | e => e
  if st = .ok then (s.store x (widthBytes w) a v s.core.pc).answer .ok 0 else s.answer st 0

/-- Status code of a debug access (22 R603): 0 done, 2 bus error or fault. -/
def BusStatus.dbg : BusStatus → BitVec 2
  | .ok => 0
  | _ => 2

/-- A DBGACC access (22 R603, R604): 3 refused by the lock state, which sets DENIED for a write of DBG_CTL.WARM (R608). -/
def State.dbgAccess (s : State) (write : Bool) (a v : Word) : State :=
  if !s.tapOn || s.dbg.ir != .dbgacc then s
  else
    match s.canAccess .debug a with
    | .ok =>
      let t := if write then s.busWrite .debug .word a v else s.busRead .debug .word a
      { t with dbg := { t.dbg with addr := a, data := if write then v else t.resp.data, status := t.resp.status.dbg } }
    | e =>
      let t := if write && e == .privilege && a == 0x401B0004 && bit v 3 then s.evt R.dbgEvt 2 else s
      { t with dbg := { t.dbg with addr := a, data := if write then v else 0, status := if e = .privilege then 3 else e.dbg } }

/-! Commit completion. -/

/-- The deferred stores released in issue order (09 R250); they were issued in scan context. -/
def State.releaseStores (s : State) : State :=
  s.scan.deferred.foldl (fun (t : State) d => t.storeNow .core true d.size d.addr d.value)
    { s with scan := { s.scan with deferred := [] } }

/-- The end of an applied commit, 300 cycles after COMMIT issue (R242). -/
def State.commitFinish (s : State) : State :=
  match s.scan.commit with
  | .none => s
  | some c =>
    if !c.applied || !s.running then s
    else
      let lim := c.issue + 300
      let s1 := s.withCore (fun x => { x with cyc := if x.cyc < lim then lim else x.cyc })
      let s2 := (s1.releaseStores.dtcmPut 0x3F080 0).dtcmPut 0x3F004 (s1.outWord 4 &&& 0xFFFFFEFF)
      let s3 := s2.evt R.scnEvt 0
      ({ s3 with scan := { s3.scan with commit := .none, missed := false, ovrPrev := false } }).resumeScan

/-- COMMIT_COMPLETE (R242): the core's cycles up to the 300th pass with it. -/
def State.commitComplete (s : State) : State := s.commitFinish

end Sys2Proof.Machine
end

