-- ==== Sys2Proof/Machine/PowerFail.lean ====
section
/-! DEFINITION. The power-fail sequence (05) and the entry to Safe (04). -/

namespace Sys2Proof.Machine

/-- n bytes of a flash at a device address left indeterminate: programming may have cleared any bit, erasing set any. -/
def FlashSt.blur (f : FlashSt) (c a : Nat) (erase : Bool) : Nat → FlashSt
  | 0 => f
  | n + 1 =>
    let o := f.rd a
    let x : Byte := (Config.freeWord c).setWidth 8
    let y := if erase then o ||| x else o &&& x
    let g := if a < 2 ^ 27 then { f with cs0 := mset 0xFF f.cs0 a y } else { f with cs1 := mset 0xFF f.cs1 (a - 2 ^ 27) y }
    FlashSt.blur g (c + 1) (a + 1) erase n

/-- n bytes at a device address left indeterminate by the next free values. -/
def State.blur (s : State) (a : Nat) (erase : Bool) (n : Nat) : State :=
  { s with key := { s.key with flash := s.key.flash.blur s.freeCtr a erase n }, freeCtr := s.freeCtr + n }

/-- Data, tag and counter bytes of n bytes of an area from x on left indeterminate. -/
def State.blurLines (s : State) (a : Area) (x : Nat) (erase : Bool) (n : Nat) : State :=
  ((s.blur x erase n).blur (a.tagAt x) erase (n / 4)).blur (a.ctrAt x) erase (n / 8)

/-- A running job of channel c stopped by the power-fail (18 R528): an open number of its pages or units is done, the next one
is indeterminate, its flash is reset (log entry 62). -/
def State.cutJob (s : State) (c : Fin 8) : State :=
  let m := s.key.mov[c]
  if !m.busy then s
  else if m.op = 1 then s.jobEnd c { m with result := 2 }
  else
    let unit := if m.op = 2 then 256 else 32768
    let r := s.free
    let n := min m.len (r.1.toNat % (m.len / unit + 1) * unit)
    let j := r.2.jobRun c m n
    let s1 := match r.2.resolve m.dst m.len true with
      | .refused _ => j.s
      | .ok a _ => if j.result = 0 then j.s.blurLines a (fldN m.dst 0 28 + n) (m.op != 2) (min unit (m.len - n)) else j.s
    let s2 := s1.say .mov 0x9102 (if 2 ^ 27 ≤ fldN m.dst 0 28 then 1 else 0) (BitVec.ofNat 32 c.val) 0 0
    s2.jobEnd c { m with done := j.done, result := if j.result = 0 then 2 else j.result }

/-- An issued commit completes whole: its apply tick, which may still be to come, and its deferred stores (Table PWR-9, 02 R56); the
sequence's own instant stays. -/
def State.commitEnd (s : State) : State :=
  match s.scan.commit with
  | none => s
  | some c =>
    let t := if c.applied then s else ({ s with time := { s.time with dt := c.dt } }).commitApply
    ({ t with time := { t.time with dt := s.time.dt } }).commitFinish

/-- Sealed records not yet drained. -/
def State.sealedLost (s : State) : Nat := s.recd.slot.toList.countP (fun x => x.st == .sealed)

/-- Steps 1 to 3: the latch, outputs, scan, engine, recorder, jobs (Table PWR-4); PF in every staged entry (11 R296). vbakOk: the VBAK
comparator at step 1 (R143). -/
def State.pfLatch (s0 : State) (vbakOk : Bool) : State :=
  let sa := (List.finRange 8).foldl State.cutJob s0.surgeEnd
  let sb := sa.commitEnd.leaveService.abandonBurst.gateClose
  let s := if sb.pwr.vbakOk && !vbakOk && bit (sb.reg R.pwrBakCtl) 0 then sb.sayVbakLow sb.pwr.vbakMv else sb
  let staged := (s.log.staged.map (fun (e : Entry) => { e with pf := true }))
  let dbg := if s.bscan then { s.dbg with ir := .bypass, bsref := true } else s.dbg
  let pwr := { s.pwr with bakSrc := true, chgActive := false, vbatValid := false, vbakOk := vbakOk, pfCount := satInc s.pwr.pfCount }
  let mode := { s.mode with pf := true, wake := true, m5 := false, m9 := none, warmReq := none, run := none }
  let scan := { s.scan with run := false, phase := .idle, latch := none, commit := none, deferred := [], redo := false, dirty := 0 }
  { s with
    mode := mode, pwr := pwr, dbg := dbg, scan := scan,
    log := { s.log with staged := staged },
    fab := { s.fab with close := 0, kdrv := 0 },
    core := { s.core with bundle := [], loads := [] },
    zve := s.zvDropped,
    recd := { s.recd with slot := Vector.replicate 8 RecSlot.reset, active := none, order := [], arm := false } }

/-- POWER_FAIL (R139 to R143): with VBAK good and step 11 done the flush runs until FLUSH_COMPLETE; else it is skipped (log
entry 57). -/
def State.powerFail (s : State) (vbakOk : Bool) : State :=
  if !s.mode.coreOn || s.mode.pf then s
  else
    let lost := s.sealedLost
    let s1 := s.pfLatch vbakOk
    let flush := s1.pwr.vbakOk && s1.mode.past11 && !s1.log.flushErr && !s1.log.clearing
    let s2 := if s1.pwr.vbakOk then (s1.umuPowerFail s1.time.dt).umuCheckpoint true else s1
    let s3 := s2.say .pwr 0x1001 (s2.pwr.vbatMv.setWidth 32) (s2.pwr.vbakMv.setWidth 32) (if flush then 1 else 2) (BitVec.ofNat 32 lost)
    if flush then
      let s4 := s3.stageAll
      { s4 with log := { s4.log with flush := some s4.log.staged.length, retried := false, again := false },
                time := { s4.time with pwr := 0xF0 } }
    else s3.pfEnd 2

/-! Safe. -/

/-- Causes that leave no readout window: THERMAL, SUPPLY, CORE_LOST (R125). -/
def safeNoWindow (c : Nat) : Bool := c == 12 || c == 21 || c == 4

/-- The core die goes down at once after a Safe without a readout window, its job completed and the log flushed. While a power-fail
sequence runs it goes down at that sequence's end (R128, 05 R139). -/
def State.safeDown (s : State) : State :=
  if s.mode.pf then s else (((s.recWindowEnd).flushAll).umuSettle.umuCheckpoint true).coreDown

/-- Causes latched after entry: the mask, and one SAFE_ADD per code (R124). -/
def State.safeAdd (s : State) : State :=
  let s1 := s.mode.safePend.foldl (fun (t : State) (x : Nat × Word × DWord) =>
    if bit t.mode.safeMask x.1 then t
    else ({ t with mode := { t.mode with safeMask := t.mode.safeMask ||| bitAt true x.1 } }).say .mode 0x0005
      (BitVec.ofNat 32 x.1) x.2.1 0 0) s
  let last := s.mode.safePend.any (fun x => safeNoWindow x.1)
  let s2 := { s1 with mode := { s1.mode with safePend := [] } }
  if last && s2.mode.coreOn then s2.safeDown else s2

/-- The entries of an M5 request and of Safe: the primary cause is the lowest code among those latched with the first. -/
def State.safeSay (s : State) (c : Nat) (mask p : Word) : State :=
  let s1 := if s.mode.m5 then s.modeRefuse 3 2 (~~~s.guards) else s
  s1.say .mode 0x0004 (BitVec.ofNat 32 c) mask p 0

/-- The entry to Safe (R122): outputs forced by the mode, the scan dropped, Zinik emptied, the shared window closed, the
interfaces stopped, the recorder triggered, the mover's job completed and the log flushed. A commit already applied completes whole
(02 R56), one not yet applied is not applied (Table SCAN-5). -/
def State.safeEnter (sa : State) (c : Nat) (mask : Word) : State :=
  let s := match sa.scan.commit with
    | some x => if x.applied then sa.commitFinish else sa
    | none => sa
  let s0 := (s.leaveService.abandonBurst).gateClose
  let s1 := s0.toMode .safe
  let s2 : State := { s1 with
    mode := { s1.mode with starting := false, m5 := false, m9 := none, warmReq := none, run := none, safePri := BitVec.ofNat 8 c,
                           safeMask := mask,
                           safeDt := s.time.dt, safePend := [], window := s.mode.coreOn },
    pwr := { s1.pwr with thermHold := c == 12 || s1.pwr.thermHold, tjfOk := 0 },
    scan := { s1.scan with run := false, phase := .idle, latch := none, commit := none, deferred := [], redo := false, dirty := 0 },
    core := { s1.core with bundle := [], loads := [] },
    zve := s1.zvDropped,
    fab := { s1.fab with close := 0, kdrv := 0 },
    key := { s1.key with authValid := false },
    wnt := { s1.wnt with winValid := false } }
  (((s2.recSafe).ifcSafe).finishJobs).stageAll.flushTrigger

/-- The FIELD cycle, of 125 ns, in which a DT lies (R124). -/
def fieldCycle (t : DWord) : Nat := 2 * t.toNat / 25

/-- SAFE_ENTRY (R122 to R125): the causes latched act; those of one FIELD cycle together, the lowest code first. -/
def State.safeEntry (s : State) : State :=
  match s.mode.safePend with
  | [] => s
  | x :: rest =>
    if s.mode.mode = .safe then s.safeAdd
    else
      let same := x :: rest.filter (fun y => fieldCycle y.2.2 == fieldCycle x.2.2)
      let pri := same.foldl (fun (m y : Nat × Word × DWord) => if y.1 < m.1 then y else m) x
      let mask : Word := same.foldl (fun w y => w ||| bitAt true y.1) 0
      let later := rest.filter (fun y => fieldCycle y.2.2 != fieldCycle x.2.2)
      let s1 := (s.safeSay pri.1 mask pri.2.1).safeEnter pri.1 mask
      let s2 := { s1 with mode := { s1.mode with safePend := later ++ s1.mode.safePend } }
      let s3 := s2.safeAdd
      if same.any (fun y => safeNoWindow y.1) && s3.mode.coreOn then s3.safeDown else s3

/-- READOUT_WINDOW_END (R125): 600 s after entry. -/
def State.windowEnd (s : State) : State :=
  if s.mode.mode = .safe ∧ s.mode.window ∧ s.mode.coreOn ∧ !s.mode.pf ∧ 60000000000 ≤ s.since s.mode.safeDt then
    ((s.recWindowEnd.abandonJobs).umuSettle.umuCheckpoint true).coreDown
  else s

end Sys2Proof.Machine
end

