-- ==== Sys2Proof/Machine/ScanCore.lean ====
section
/-! DEFINITION. Syllables and bundles of the scan core (12): decoding of a syllable's fields, the checks of a bundle, and its
effects at its end. -/

namespace Sys2Proof.Machine

/-! Fields. -/

/-- IMM9 of the I format. -/
def immNine (o : SylEnc) : BitVec 9 := o.rb ++ o.f

/-- The immediate of R333. -/
def immOf (o : SylEnc) : Word :=
  match o.ext with
  | none => (immNine o).signExtend 32
  | some e => (e.setWidth 23 : BitVec 23) ++ immNine o

/-- OFF21 of the B format, in bytes. -/
def offOf (o : SylEnc) : Word := ((o.rd ++ o.ra ++ o.rb ++ o.f : BitVec 21).signExtend 32) <<< 2

/-- A register field names a register (R321). -/
def fieldOk (x : BitVec 6) : Bool := decide (x.toNat < 56)

/-- A register field names an h register. -/
def fieldH (x : BitVec 6) : Bool := decide (32 ≤ x.toNat) && decide (x.toNat < 56)

/-- A syllable with its guard and X syllable, and nothing else. -/
def State.sylBase (s : State) (o : SylEnc) (cls : UnitCls) (x : Bool) : Syl :=
  { cls := cls, words := if o.ext.isSome then 2 else 1, guard := s.core.pred o.pg.toNat, illegal := false,
    badX := match o.ext with
      | none => false
      | some e => !x || e.extractLsb' 23 6 != 0,
    hreg := false, dst := none, pdst := [], value := 0, pvalue := [], cycles := 1, arith := 0, ue := o.ue,
    pushUe := o.pushUe, act := .none }

/-- Its register fields checked; ok: its other fields are as Table ISA-5 has them. -/
def Syl.regs (y : Syl) (fs : List (BitVec 6)) (ok : Bool) : Syl :=
  { y with illegal := !(ok && fs.all fieldOk), hreg := fs.any fieldH }

/-- Register of a field. -/
def State.rf (s : State) (x : BitVec 6) : Word := s.core.get x.toNat

/-! A and M syllables that write registers. -/

/-- An R-format operation on ra and rb. -/
def State.sylR (s : State) (cls : UnitCls) (op : Word → Word → Word) (o : SylEnc) : Syl :=
  { (s.sylBase o cls false).regs [o.rd, o.ra, o.rb] (o.f == 0) with dst := some o.rd, value := op (s.rf o.ra) (s.rf o.rb) }

/-- An I-format operation on ra and imm. -/
def State.sylI (s : State) (cls : UnitCls) (op : Word → Word → Word) (o : SylEnc) : Syl :=
  { (s.sylBase o cls true).regs [o.rd, o.ra] true with dst := some o.rd, value := op (s.rf o.ra) (immOf o) }

/-- A shift by imm[4:0]; imm[8:5] is 0. -/
def State.sylSh (s : State) (op : Word → Nat → Word) (o : SylEnc) : Syl :=
  { (s.sylBase o .a false).regs [o.rd, o.ra] (decide ((immNine o).toNat < 32)) with
      dst := some o.rd, value := op (s.rf o.ra) (immNine o).toNat }

/-- Shifts by a count below 32. -/
def shlOp (a : Word) (n : Nat) : Word := a <<< n
def shrOp (a : Word) (n : Nat) : Word := a >>> n
def sarOp (a : Word) (n : Nat) : Word := a.sshiftRight n

/-- A shift by rb[4:0]. -/
def byReg (op : Word → Nat → Word) (a b : Word) : Word := op a (b.toNat % 32)

/-- ADDT and SUBT: e the exact sum or difference (R335, R336). -/
def State.sylT (s : State) (op : Int → Int → Int) (o : SylEnc) : Syl :=
  let e := op (sint (s.rf o.ra)) (sint (s.rf o.rb))
  let r := ofInt32 e
  { s.sylR .a (fun _ _ => r) o with
      arith := if sint r = e then 0 else 2, cycles := if s.core.precise then 3 else 1 }

/-- A compare of ra with b: pd takes the result, pe its complement. -/
def State.sylCmp (y : Syl) (o : SylEnc) (r : Bool) : Syl :=
  let pd : BitVec 3 := o.rd.extractLsb' 0 3
  let pe : BitVec 3 := o.rd.extractLsb' 3 3
  { y with illegal := y.illegal || (pd == pe && pd != 0), pdst := if pd = pe then [pd] else [pd, pe], pvalue := [r, !r] }
def State.sylCmpR (s : State) (op : Word → Word → Bool) (o : SylEnc) : Syl :=
  State.sylCmp ((s.sylBase o .a false).regs [o.ra, o.rb] (o.f == 0)) o (op (s.rf o.ra) (s.rf o.rb))
def State.sylCmpI (s : State) (op : Word → Word → Bool) (o : SylEnc) : Syl :=
  State.sylCmp ((s.sylBase o .a true).regs [o.ra] true) o (op (s.rf o.ra) (immOf o))

/-- SEL: p[F] chooses. -/
def State.sylSel (s : State) (o : SylEnc) : Syl :=
  { (s.sylBase o .a false).regs [o.rd, o.ra, o.rb] true with
      dst := some o.rd, value := if s.core.pred o.f.toNat then s.rf o.ra else s.rf o.rb }

/-- A one-operand operation: RB is 0. -/
def State.sylUn (s : State) (op : Word → Word) (ok : Bool) (o : SylEnc) : Syl :=
  { (s.sylBase o .a false).regs [o.rd, o.ra] (ok && o.rb == 0) with dst := some o.rd, value := op (s.rf o.ra) }

/-- EXT by F. -/
def extOp (f : BitVec 3) (a : Word) : Word :=
  match f.toNat with
  | 0 => (a.setWidth 8).signExtend 32
  | 1 => (a.setWidth 16).signExtend 32
  | 2 => a &&& 0xFF
  | _ => a &&& 0xFFFF

/-- Leading zeros. -/
def clzOp (a : Word) : Word := BitVec.ofNat 32 (32 - (List.range 32).foldl (fun n i => if a.getLsbD i then i + 1 else n) 0)

/-- Signed minimum and maximum. -/
def minOp (a b : Word) : Word := if sint a < sint b then a else b
def maxOp (a b : Word) : Word := if sint a < sint b then b else a

/-- PLOG: fields name predicates in their low three bits. -/
def State.sylPlog (s : State) (o : SylEnc) : Syl :=
  let a := s.core.pred (o.ra.toNat % 8)
  let b := s.core.pred (o.rb.toNat % 8)
  let r := match o.f.toNat with
    | 0 => a && b
    | 1 => a || b
    | 2 => a != b
    | _ => a && !b
  { s.sylBase o .a false with
      illegal := !(decide (o.rd.toNat < 8) && decide (o.ra.toNat < 8) && decide (o.rb.toNat < 8) && decide (o.f.toNat < 4)),
      pdst := [o.rd.setWidth 3], pvalue := [r] }

/-- MULH, MULHU, MULQ. -/
def mulhOp (a b : Word) : Word := BitVec.ofInt 32 (sint a * sint b / 2 ^ 32)
def mulhuOp (a b : Word) : Word := BitVec.ofNat 32 (a.toNat * b.toNat / 2 ^ 32)
def mulqOp (a b : Word) : Word :=
  let v := (sint a * sint b + 2 ^ 30) / 2 ^ 31
  if v < -(2 ^ 31) then 0x80000000 else if 2 ^ 31 ≤ v then 0x7FFFFFFF else ofInt32 v

/-- Divisions (R335). -/
def divOp (a b : Word) : Word := if b = 0 then 0xFFFFFFFF else ofInt32 (Int.tdiv (sint a) (sint b))
def divuOp (a b : Word) : Word := if b = 0 then 0xFFFFFFFF else BitVec.ofNat 32 (a.toNat / b.toNat)
def remOp (a b : Word) : Word := if b = 0 then a else ofInt32 (Int.tmod (sint a) (sint b))
def remuOp (a b : Word) : Word := if b = 0 then a else BitVec.ofNat 32 (a.toNat % b.toNat)
def State.sylDiv (s : State) (op : Word → Word → Word) (o : SylEnc) : Syl :=
  { s.sylR .m op o with cycles := 18, arith := if s.rf o.rb = 0 then 1 else 0 }

/-! Loads and stores. -/

/-- A far address costs 12 cycles (Table ISA-2). -/
def loadCycles (a : Word) : Nat := if (regionOf a.toNat).near then 1 else 12

/-- A load: its address, size and sign. -/
def Syl.loads (y : Syl) (rd : BitVec 6) (size : Nat) (signed : Bool) (a : Word) : Syl :=
  { y with cycles := loadCycles a, act := .load size signed rd a }
def State.sylLd (s : State) (size : Nat) (signed : Bool) (o : SylEnc) : Syl :=
  ((s.sylBase o .m true).regs [o.rd, o.ra] true).loads o.rd size signed (s.rf o.ra + immOf o)

/-- Size and sign of LDX by F, and of STX. -/
def ldxForm (f : BitVec 3) : Nat × Bool :=
  match f.toNat with
  | 0 => (4, false) | 1 => (2, true) | 2 => (2, false) | 3 => (1, true) | _ => (1, false)
def State.sylLdx (s : State) (o : SylEnc) : Syl :=
  ((s.sylBase o .m false).regs [o.rd, o.ra, o.rb] (decide (o.f.toNat < 5))).loads o.rd (ldxForm o.f).1 (ldxForm o.f).2
    (s.rf o.ra + s.rf o.rb)

/-- A store of RD's low bytes. -/
def State.sylSt (s : State) (size : Nat) (o : SylEnc) : Syl :=
  { (s.sylBase o .m true).regs [o.rd, o.ra] true with act := .store size (s.rf o.ra + immOf o) (s.rf o.rd) }
def State.sylStx (s : State) (o : SylEnc) : Syl :=
  { (s.sylBase o .m false).regs [o.rd, o.ra, o.rb] (o.f == 0 || o.f == 1 || o.f == 3) with
      act := .store (if o.f = 0 then 4 else if o.f = 1 then 2 else 1) (s.rf o.ra + s.rf o.rb) (s.rf o.rd) }

/-! B syllables. -/

/-- A B syllable without an X syllable: register fields and whether the other fields are as they must be. -/
def State.sylB (s : State) (o : SylEnc) (fs : List (BitVec 6)) (ok : Bool) (cycles : Nat) (act : SylAct) : Syl :=
  { (s.sylBase o .b false).regs fs ok with cycles := cycles, act := act }

/-- The fields that must be 0 are 0. -/
def unused (o : SylEnc) (rd ra rb f : Bool) : Bool :=
  (!rd || o.rd == 0) && (!ra || o.ra == 0) && (!rb || o.rb == 0) && (!f || o.f == 0)

/-- Cycles of a taken or not taken control transfer. -/
def State.taken (s : State) (o : SylEnc) : Nat := if s.core.pred o.pg.toNat then 2 else 1

/-- BR and CALL: the target from the bundle address. -/
def State.sylBr (s : State) (o : SylEnc) : Syl := s.sylB o [] true (s.taken o) (.jump (s.core.pc + offOf o))
def State.sylCall (s : State) (o : SylEnc) : Syl :=
  { s.sylB o [] true (s.taken o) (.call (s.core.pc + offOf o)) with dst := some 55, hreg := true }
def State.sylJr (s : State) (o : SylEnc) : Syl :=
  s.sylB o [o.ra] (unused o true false true true) (s.taken o) (.jump (s.rf o.ra))
def State.sylCallr (s : State) (o : SylEnc) : Syl :=
  { s.sylB o [o.ra] (unused o true false true true) (s.taken o) (.call (s.rf o.ra)) with dst := some 55, hreg := true }
def State.sylRet (s : State) (o : SylEnc) : Syl :=
  { s.sylB o [] (unused o true true true true) (s.taken o) .ret with hreg := true }


/-- ZISS writes rd and pF. -/
def State.sylZiss (s : State) (o : SylEnc) : Syl :=
  { s.sylB o [o.rd, o.ra] (o.rb == 0) 2 (.ziss o.rd o.f (s.rf o.ra)) with dst := some o.rd, pdst := [o.f] }

/-- A B syllable with no operand. -/
def State.sylBare (s : State) (cycles : Nat) (act : SylAct) (o : SylEnc) : Syl :=
  s.sylB o [] (unused o true true true true) cycles act

/-! System registers. -/

/-- The SR number is allocated (R348, 13 R379). -/
def srAllocated (n : Nat) : Bool :=
  decide (n < 7) || n == 8 || n == 9 || (decide (0x10 ≤ n) && decide (n ≤ 0x18)) || (decide (0x1F ≤ n) && decide (n ≤ 0x33))

/-- MFSR writes rd; a WREG result takes the load delay (13 R382). An unallocated SR number is an illegal opcode by its encoding alone
(R319, R348). -/
def State.sylMfsr (s : State) (o : SylEnc) : Syl :=
  { s.sylB o [o.rd] (unused o false true false false && srAllocated (immNine o).toNat) 1 (.mfsr o.rd (immNine o)) with dst := some o.rd }

/-- MTSR. -/
def State.sylMtsr (s : State) (o : SylEnc) : Syl :=
  s.sylB o [o.ra] (unused o true false false false && srAllocated (immNine o).toNat) 1 (.mtsr (immNine o) (s.rf o.ra))

/-- Unprivileged software may read it (P/U-RO). -/
def srOpen (n : Nat) : Bool := n == 0 || n == 1 || n == 8 || n == 9 || n == 0x12

/-- The current bank of the imprecise-exception record. -/
def CoreSt.aexc (c : CoreSt) : AexcSt := if c.scan then c.aexc1 else c.aexc0

/-- Word of a system register. -/
def CoreSt.sr (c : CoreSt) (n : Nat) : Word :=
  match n with
  | 0x00 => c.psr
  | 0x01 => c.wp
  | 0x02 => c.xpc
  | 0x03 => c.xpsr
  | 0x04 => c.sceSp
  | 0x05 => c.sceEntry
  | 0x06 => c.xcode.setWidth 32
  | 0x08 => lo32 c.cyc
  | 0x09 => hi32 c.cyc
  | 0x10 => c.edtb
  | 0x11 => c.efp
  | 0x12 => c.excState
  | 0x13 => c.xnext
  | 0x14 => c.xaddr
  | 0x15 => c.xinfo
  | 0x16 => c.aexc.pc
  | 0x17 => c.aexc.info
  | 0x18 => c.scanSp
  | 0x1F => c.wsel.setWidth 32
  | 0x30 => c.dfPc
  | 0x31 => c.dfPsr
  | 0x32 => c.dfPred
  | 0x33 => c.dfWp
  | _ => if 0x20 ≤ n ∧ n < 0x30 then c.at (32 + 16 * c.wsel.toNat + (n - 0x20)) else 0

/-- MFSR: CYC_LO latches CYC_HI as a register pair does (R16). The key of the latch is no register offset. -/
def cycLatch : Nat := 0xFFFF0008
def State.readSr (s : State) (n : Nat) : Word × State :=
  let key := s.latchKey .core
  if n = 8 then
    let new : Latch := { master := key, offset := cycLatch, value := hi32 s.core.cyc }
    (s.core.sr 8, { s with latches := new :: s.latches.filter (fun l => !(l.master == key && l.offset == cycLatch)) })
  else if n = 9 then ((s.latched key cycLatch).getD (s.core.sr 9), s)
  else (s.core.sr n, s)

/-- MTSR of an allocated number in privileged mode (Tables ISA-10, ISA-11, ISA-12, EXC-9 to EXC-12; log entry 65). -/
def CoreSt.writeSr (c : CoreSt) (n : Nat) (v : Word) : CoreSt :=
  match n with
  | 0x00 => c.setPsr v
  | 0x01 => { c with cwp := fld v 0 3, rw := fld v 8 3 }
  | 0x02 => { c with xpc := v &&& 0xFFFFFFFC }
  | 0x03 => { c with xpsr := v }
  | 0x04 => { c with sceSp := v }
  | 0x05 => { c with sceEntry := v &&& 0xFFFFFFFC }
  | 0x10 =>
    let e := v &&& 0xFFFFF000
    { c with edtb := e, edtbSet := c.edtbSet || tableOk e.toNat }
  | 0x11 => { c with efp := v }
  | 0x13 => { c with xnext := v }
  | 0x14 => { c with xaddr := v }
  | 0x16 => if c.scan then { c with aexc1 := ⟨v, c.aexc1.info⟩ } else { c with aexc0 := ⟨v, c.aexc0.info⟩ }
  | 0x18 => { c with scanSp := v &&& 0xFFFFFFF8 }
  | 0x1F => { c with wsel := fld v 0 3 }
  | 0x30 => { c with dfPc := v &&& 0xFFFFFFFC }
  | 0x31 => { c with dfPsr := (c.dfPsr &&& 4) ||| (v &&& 0x3FB) }
  | 0x32 => { c with dfPred := v &&& 0xFF ||| 1 }
  | 0x33 => { c with dfWp := v &&& 0x707 }
  | _ => if 0x20 ≤ n ∧ n < 0x30 then c.putAt (32 + 16 * c.wsel.toNat + (n - 0x20)) v else c

/-! Bundles. -/

/-- Words of a bundle; past four words nothing is fetched. -/
def bundleWords (b : List Syl) : Nat := min 4 (b.foldl (fun n y => n + y.words) 0)

/-- Fields written by a bundle other than k0, and predicates other than p0. -/
def bundleDst (b : List Syl) : List (BitVec 6) := (b.filterMap Syl.dst).filter (· != 0)
def loadDst (b : List Syl) : List (BitVec 6) :=
  (b.filterMap (fun y => match y.act with | .load _ _ rd _ => some rd | _ => none)).filter (· != 0)
def bundlePdst (b : List Syl) : List (BitVec 3) := (b.flatMap Syl.pdst).filter (· != 0)

/-- The bundle is illegal (R317); stop: its last word has the stop bit. -/
def bundleIllegal (b : List Syl) (stop : Bool) : Bool :=
  decide (2 < b.countP (fun y => y.cls == .a)) || decide (1 < b.countP (fun y => y.cls == .m)) ||
    decide (1 < b.countP (fun y => y.cls == .b)) || decide (4 < b.foldl (fun n y => n + y.words) 0) || !stop || b.any Syl.badX ||
    !(bundleDst b ++ loadDst b).Nodup || !(bundlePdst b).Nodup

/-- A refused access as descriptor, XADDR, KIND. -/
def accessFault (st : BusStatus) (a : Word) (kind : Nat) : Option (Nat × Word × Nat) :=
  match st with
  | .ok => none
  | .privilege => some (7, a, kind)
  | .misaligned => some (10, a, kind)
  | .busError => some (11, a, kind)

/-- A descriptor of Zinik lies in DTCM. -/
def zissIn (a : Word) : Bool := regionOf a.toNat == .dtcm && decide (a.toNat + 16 ≤ 0x10040000)

/-- ZISS offers its descriptor. -/
def State.zissRun (s : State) (a : Word) : ZissRes × State :=
  let o := a.toNat - 0x10000000
  s.zvIssue s.core.scan s.core.pc (s.dtcmWord o) (s.dtcmWord (o + 4)) (s.dtcmWord (o + 8)) (s.dtcmWord (o + 12))

/-- ERET may take effect in unprivileged mode (13 R362). -/
def State.eretOk (s : State) : Bool :=
  s.core.priv || (s.core.uentry && !bit ((s.frameAt s.core.efp).1.getD 1 0) 0)

/-- A misaligned target. -/
def targetFault (a : Word) : Option (Nat × Word × Nat) := if a.toNat % 4 = 0 then none else some (10, a, 2)

/-- The fault of a syllable whose guard is true: descriptor, XADDR, KIND (Tables ISA-8, EXC-11, EXC-13). -/
def State.sylFault (s : State) (y : Syl) : Option (Nat × Word × Nat) :=
  let c := s.core
  let x := s.accessOf .core
  match y.act with
  | .load size _ _ a => accessFault (s.status x false size a) a 0
  | .store size a _ => accessFault (s.status x true size a) a 1
  | .jump t => targetFault t
  | .call t => if c.wtrap || c.wouldOverflow then some (8, 0, 0) else targetFault t
  | .ret => if c.wtrap || c.cwp - 1 == c.rw then some (9, 0, 0) else targetFault (c.get 39)
  | .scall _ => if c.priv then some (6, 0, 0) else none
  | .sret => if c.priv then none else some (7, 0, 0)
  | .eret => if s.eretOk then none else some (7, 0, 0)
  | .idle => if c.priv then none else some (7, 0, 0)
  | .mfsr _ n => if c.priv || srOpen n.toNat then none else some (7, 0, 0)
  | .mtsr _ _ => if c.priv then none else some (7, 0, 0)
  | .ziss _ _ a =>
    if a.toNat % 16 ≠ 0 then some (10, a, 5)
    else if !zissIn a then some (11, a, 5)
    else match (s.zissRun a).1 with
      | .busError => some (11, a, 5)
      | .illegal => some (12, 0, 0)
      | _ => none
  | .commit => if c.scan then none else some (6, 0, 0)
  | .brk => some (13, 0, 0)
  | _ => none

/-- The fault of highest priority among those of a bundle; of equal ones the M syllable's (R345). -/
def worstFault (fs : List (Nat × Word × Nat)) : Option (Nat × Word × Nat) :=
  fs.foldl (fun (best : Option (Nat × Word × Nat)) f =>
    match best with
    | none => some f
    | some g => if f.1 < g.1 then some f else best) none

/-- A synchronisation point (R336). -/
def SylAct.syncs : SylAct → Bool
  | .sync | .scall _ | .sret | .eret | .commit | .zwait _ | .idle => true
  | _ => false

/-- Far stores still outstanding. -/
def CoreSt.far (c : CoreSt) : List DWord := c.stores.filter (fun e => decide (c.cyc < e))

/-- A store that counts as far: outside DTCM, and not deferred (Table ISA-2). -/
def State.farStore (s : State) (a : Word) : Bool :=
  let r := regionOf a.toNat
  !r.near && !(s.core.scan && (r == .shared || r == .periph || r == .unpriv))

/-- Cycles of a syllable (R320, R330): by its guard only where R320 says so. ERET that acts counts its own, by whether it chains. -/
def State.sylCycles (s : State) (y : Syl) : Nat :=
  let far := s.core.far
  match y.act with
  | .store _ a _ => if s.farStore a && decide (4 ≤ far.length) then 12 else 1
  | .fence => if y.guard then 1 + far.foldl (fun n e => max n (e - s.core.cyc).toNat) 0 else 1
  | .eret => if y.guard then 1 else y.cycles
  | .zwait _ | .idle | .brk => 1
  | _ => y.cycles

/-- ERET in the window double fault (13 R373): WP.RW stays, as R381 has it. -/
def State.eretDf (s : State) : State :=
  s.withCore (fun c =>
    { (c.setPsr c.dfPsr) with pc := c.dfPc, uentry := bit c.dfPsr 8, wtrap := bit c.dfPsr 9, p := fld c.dfPred 0 8,
                              cwp := fld c.dfWp 0 3, df := false, cyc := c.cyc + 10 })

/-- Loads in their delay after one more bundle: those that are due, and the rest. -/
def dueLoads (l : List LoadSt) : List LoadSt × List LoadSt :=
  let m := l.map (fun (x : LoadSt) => { x with left := x.left - 1 })
  (m.filter (fun x => x.left == 0), m.filter (fun x => x.left != 0))

/-- A load's value, extended. -/
def extend (size : Nat) (signed : Bool) (v : Word) : Word :=
  if signed then (if size = 2 then (v.setWidth 16).signExtend 32 else if size = 1 then (v.setWidth 8).signExtend 32 else v) else v

/-- Stage 1 of a bundle's effect: the memory and system reads of its syllables whose guards are true. Answers the state, the loads
that enter their delay, and the writes that only now have values: register field, predicate. -/
structure Reads where
  s : State
  loads : List LoadSt
  regs : List (BitVec 6 × Word)
  preds : List (BitVec 3 × Bool)

def Reads.syl (c0 : CoreSt) (next : Word) (r : Reads) (y : Syl) : Reads :=
  if !y.guard then r
  else
    match y.act with
    | .load size signed rd a =>
      let v := r.s.load (r.s.accessOf .core) size a
      { r with s := v.2, loads := r.loads ++ [{ reg := c0.phys rd.toNat, value := extend size signed v.1, left := 2 }] }
    | .mfsr rd n =>
      let v := r.s.readSr n.toNat
      if 0x20 ≤ n.toNat ∧ n.toNat < 0x30 then
        { r with s := v.2, loads := r.loads ++ [{ reg := c0.phys rd.toNat, value := v.1, left := 2 }] }
      else { r with s := v.2, regs := (rd, v.1) :: r.regs }
    | .call _ => { r with regs := (55, next) :: r.regs }
    | .scall _ => r
    | .sret => r
    | .ziss rd p a =>
      let z := r.s.zissRun a
      match z.1 with
      | .queued tag => { r with s := z.2, regs := (rd, tag.setWidth 32) :: r.regs, preds := (p, true) :: r.preds }
      | .full => { r with s := z.2, regs := (rd, 0xFFFFFFFF) :: r.regs, preds := (p, false) :: r.preds }
      | _ => { r with s := z.2, regs := (rd, 0xFFFFFFFE) :: r.regs, preds := (p, false) :: r.preds }
    | _ =>
      { r with regs := (match y.dst with
                  | none => []
                  | some d => [(d, y.value)]) ++ r.regs,
               preds := y.pdst.zip y.pvalue ++ r.preds }

/-- Predicate written; p0 stays. -/
def CoreSt.putPred (c : CoreSt) (i : BitVec 3) (b : Bool) : CoreSt := if i = 0 then c else { c with p := setBit c.p i.toNat b }

/-- Stage 2: loads that are due, then the bundle's own writes (R326). -/
def CoreSt.writes (c : CoreSt) (r : Reads) : CoreSt :=
  let d := dueLoads c.loads
  let c1 := d.1.foldl (fun (x : CoreSt) l => x.putAt l.reg l.value) c
  let c2 := r.regs.foldl (fun (x : CoreSt) w => x.put w.1.toNat w.2) c1
  { r.preds.foldl (fun (x : CoreSt) w => x.putPred w.1 w.2) c2 with loads := d.2 ++ r.loads }

/-- Stage 3: stores. A store of COMMIT's own bundle to the output image falls after COMMIT issue (09 R244; log entry 45). -/
def State.sylStore (pc : Word) (commit : Bool) (s : State) (y : Syl) : State :=
  if !y.guard then s
  else
    match y.act with
    | .store size a v =>
      if commit && decide (0x1003F000 ≤ a.toNat) && decide (a.toNat < 0x1003F400) then s.evt R.scnEvt 5
      else
        let s1 := if s.farStore a then s.withCore (fun c => { c with stores := c.far ++ [c.cyc + 12] }) else s
        s1.store (s.accessOf .core) size a v pc
    | _ => s

/-- An imprecise exception recorded (R336, 13 R368). -/
def State.sylArith (pc : Word) (s : State) (y : Syl) : State :=
  if y.guard && y.arith != 0 then s.recordAexc s.core.scan (BitVec.ofNat 32 y.arith) pc 0 0 else s

/-- SCALL and SRET (R337); c0 the core at the start of the bundle. -/
def CoreSt.scall (c c0 : CoreSt) (code : BitVec 9) (next : Word) : CoreSt :=
  { c.put 31 c0.sceSp with xcode := code, xpc := next, xpsr := c0.psr, sceSp := c0.get 31, pc := c0.sceEntry, priv := true }
def CoreSt.sret (c c0 : CoreSt) : CoreSt :=
  { (c.put 31 c0.sceSp).setPsr c0.xpsr with sceSp := c0.get 31, pc := c0.xpc }

/-- Stage 4: control, cycles; n the cycles of the bundle. -/
def State.sylEnd (c0 : CoreSt) (next : Word) (n : Nat) (s : State) (act : SylAct) : State :=
  let go (f : CoreSt → CoreSt) : State := (s.withCore (fun c => f { c with pc := next })).cycles n
  match act with
  | .jump t => go (fun c => { c with pc := t })
  | .call t => go (fun c => { c with pc := t, cwp := c0.cwp + 1 })
  | .ret => go (fun c => { c with pc := c0.get 39, cwp := c0.cwp - 1 })
  | .scall code => go (fun c => c.scall c0 code next)
  | .sret => go (fun c => c.sret c0)
  | .eret =>
    let t := if c0.df then s.eretDf else s.returnTo c0.efp (c0.get 28) c0.scan
    t.cycles (n - (t.core.cyc - s.core.cyc).toNat)
  | .mtsr sr v => go (fun c => c.writeSr sr.toNat v)
  | .commit =>
    if s.periodCyc < s.scanCycle + 300 then s.overrun else (s.withCore (fun c => { c with pc := next })).commitIssue.cycles n
  | _ => go id

/-- The B syllable of a bundle that acts. -/
def controlOf (b : List Syl) : SylAct :=
  match b.find? (fun y => y.guard && y.cls == .b) with
  | none => .none
  | some y => y.act

/-- A bundle's effect (R318, R320): on the registers as they stand at its start. -/
def State.bundleRun (s : State) (b : List Syl) (next : Word) : State :=
  let c0 := s.core
  let pc := c0.pc
  let n := b.foldl (fun m y => max m (s.sylCycles y)) 1
  let act := controlOf b
  let r := b.foldl (Reads.syl c0 next) { s := s, loads := [], regs := [], preds := [] }
  let s1 := r.s.withCore (fun c => c.writes r)
  let s2 := b.foldl (State.sylStore pc (act == .commit)) s1
  let s3 := if c0.precise then s2 else b.foldl (State.sylArith pc) s2
  State.sylEnd c0 next n s3 act

/-- A wait that has not ended (log entry 46): a ZWAIT bundle is abandoned and executes again (Table ISA-7), an IDLE bundle is held. -/
def State.waits (s : State) (act : SylAct) : Bool :=
  match act with
  | .zwait tag => s.zve.hasTag tag
  | .idle => (s.arbiter s.core.mask).isNone
  | _ => false

/-- The raising bundle of a precise exception recorded (13 R368). -/
def CoreSt.aexcAt (c : CoreSt) (pc : Word) : CoreSt :=
  if c.scan then { c with aexc1 := ⟨pc, c.aexc1.info⟩ } else { c with aexc0 := ⟨pc, c.aexc0.info⟩ }

/-- A precise DZ or OV of the bundle at pc (R336, 13 R368). Where a pending imprecise one, or a double fault, is entered in its place,
the bundle has no effect and AEXC_PC stays. -/
def State.preciseEnter (s : State) (d : Nat) (pc next : Word) (pu : BitVec 2) : State :=
  let away := s.aexcDue.isSome || s.core.wtrap || s.core.df
  (if away then s else s.withCore (fun c => c.aexcAt pc)).fault d pc next 0 0 pu

/-- The fault of a whole bundle: no-execute, illegal bundle, illegal opcode, then those of its syllables. -/
def State.bundleFault (s : State) (b : List Syl) (stop : Bool) : Option (Nat × Word × Nat) :=
  let pc := s.core.pc
  let outside := (List.range (bundleWords b)).find? (fun i => decide (0x40000 ≤ pc.toNat + 4 * i))
  match outside with
  | some i => some (4, pc + BitVec.ofNat 32 (4 * i), 2)
  | none =>
    if bundleIllegal b stop then some (5, 0, 0)
    else if b.any (fun y => y.illegal || (s.core.df && y.hreg)) then some (6, 0, 0)
    else
      let on := b.filter Syl.guard
      worstFault ((on.filter (fun y => y.cls == .m) ++ on.filter (fun y => y.cls != .m)).filterMap s.sylFault)

/-- The precise arithmetic exception of a bundle, the M syllable's first. -/
def preciseFault (b : List Syl) : Option Nat :=
  let on := b.filter (fun y => y.guard && y.arith != 0)
  match on.find? (fun y => y.cls == .m), on with
  | some y, _ => some (13 + y.arith)
  | none, y :: _ => some (13 + y.arith)
  | none, [] => none

/-- Offset in recorder memory at which a load of the bundle meets an uncorrectable error. -/
def bundleRecUe (b : List Syl) : Option Nat :=
  b.findSome? (fun y => match y.act with
    | .load _ _ _ a => if y.guard && y.ue && regionOf a.toNat == .recm then some (a.toNat - 0x28000000) else none
    | _ => none)

/-- A syllable's word in ITCM meets an uncorrectable error as it is fetched (R343). -/
def Syl.fetchUe (y : Syl) : Bool :=
  y.ue && (match y.act with
    | .load _ _ _ _ | .store _ _ _ => false
    | _ => true)

/-- A load or store of the bundle meets an uncorrectable error of ITCM, DTCM or the vector store (R343, 15 R445). -/
def bundleUe (b : List Syl) : Bool :=
  b.any (fun y => y.guard && y.ue && (match y.act with
    | .load _ _ _ a | .store _ a _ => regionOf a.toNat == .itcm || regionOf a.toNat == .dtcm || regionOf a.toNat == .vs
    | _ => false))

/-- Offset in the vector store at which a load or store of the bundle meets an uncorrectable error. -/
def bundleVsUe (b : List Syl) : Option Nat :=
  b.findSome? (fun y => match y.act with
    | .load _ _ _ a | .store _ a _ => if y.guard && y.ue && regionOf a.toNat == .vs then some (a.toNat - 0x20000000) else none
    | _ => none)

/-- An uncorrectable error of a core memory: the scan is discarded, or a warm start requested, and the bundle has no effect (R343). -/
def State.coreUe (s : State) : State := if s.inScan then s.discard 2 else s.latchWarm 4

/-- The effect of a bundle that raises nothing, with the uncorrectable errors that its accesses meet; one of recorder memory is
reported (10 R289). -/
def State.bundleAct (s : State) (b : List Syl) (next : Word) : State :=
  if bundleUe b then
    (match bundleVsUe b with
    | none => s
    | some o => s.vsEcc o 0xFFFFFFFF).coreUe
  else
    match bundleRecUe b with
    | none => s.bundleRun b next
    | some o => (s.bundleRun b next).recEcc o

/-- The end of the open bundle. A debug STEP that it was ends the core's one bundle (22 R607). -/
def State.bundleEnd (s0 : State) (stop : Bool) : State :=
  let b := s0.core.bundle
  let s := s0.withCore (fun c => { c with bundle := [], step := if c.scan then c.step else false })
  let pc := s.core.pc
  let next := pc + BitVec.ofNat 32 (4 * bundleWords b)
  let sync := b.any (fun y => y.guard && y.act.syncs)
  let pu := b.foldl (fun m y => m ||| y.pushUe) 0
  if b.any Syl.fetchUe then s.coreUe
  else
    match s.bundleFault b stop, s.aexcDue with
    | some _, some a => s.enterAexc a pc next pu
    | some f, none =>
      let t := if f.1 = 12 then
          (match controlOf b with
          | .ziss _ _ a => (s.zissRun a).2
          | _ => s)
        else s
      t.enter f.1 pc (if f.1 = 4 then 0 else next) f.2.1 f.2.2 0 pu
    | none, due =>
      if sync && due.isSome then s.enterAexc (due.getD 14) pc next pu
      else
        match (if s.core.precise then preciseFault b else none) with
        | some d => s.preciseEnter d pc next pu
        | none =>
          if s.waits (controlOf b) then s.withCore (fun c => { c with idle := if controlOf b == .idle then b else [] })
          else s.bundleAct b next

/-! Thread switches. -/

/-- The core's context as a record holds it (14 Table SCH-2). -/
def CoreSt.context (c : CoreSt) : List Word :=
  (List.range 160).map c.at ++ [c.pc, c.psr, c.preds, c.wp, c.efp, c.xpc, c.xpsr, c.sceSp]

/-- The core takes a context. -/
def CoreSt.restore (c : CoreSt) (l : List Word) : CoreSt :=
  let w (i : Nat) : Word := l.getD i 0
  let c1 := (List.range 160).foldl (fun (x : CoreSt) i => x.putAt i (w i)) c
  { c1.setPsr (w 161) with pc := w 160 &&& 0xFFFFFFFC, p := fld (w 162) 0 8, cwp := fld (w 163) 0 3, rw := fld (w 163) 8 3,
                           efp := w 164, xpc := w 165 &&& 0xFFFFFFFC, xpsr := w 166, sceSp := w 167, bundle := [], idle := [] }

/-- A switch is taken now (14 R385, R386, R392): scan entry and interrupt go before it. -/
def State.switchDue (s : State) : Bool :=
  s.coreRuns && s.core.bundle.isEmpty && s.core.idle.isEmpty && !s.scanDue && !s.irqDue && s.sch.en && s.sch.valid &&
    s.core.efp == 0 && !s.core.df && !s.core.wtrap && !s.core.scan &&
    (s.sch.run.isNone || s.sch.req.isSome || (s.preemptDue && s.core.ie))

/-- CONTEXT_SWITCH (14 R387); it is a synchronisation point. -/
def State.contextSwitch (s : State) : State :=
  if !s.switchDue then s
  else
    match s.aexcDue, s.sch.sel with
    | some a, _ => s.enterAexc a s.core.pc (s.nextBundle s.core.pc) 0
    | none, none => s
    | none, some t =>
      let s1 := s.withCore CoreSt.flushLoads
      let out := s1.core.context
      let old := s1
      let left : State :=
        match s1.sch.run with
        | none => { s1 with sch := { s1.sch with wb := none } }
        | some r =>
          let x := s1.sch.thread[r]
          match s1.sch.req with
          | some .free => s1.putThread r { x with state := 0, tmo := none }
          | some _ => { s1 with sch := { s1.sch with wb := some r, wbCtx := out } }
          | none =>
            let s2 := s1.putThread r { x with state := 1 }
            { s2 with sch := { s2.sch with wb := some r, wbCtx := out } }
      let s2 := left.putThread t { left.sch.thread[t] with state := 3 }
      let s3 := { s2 with sch := { s2.sch with run := some t, req := none, sel := none, valid := false },
                          core := s2.core.restore s.sch.ctx }
      (s3.cycles 16).reselect old

/-- A parity error of the scheduler, or an uncorrectable error in a context or spill word (14 R412; log entry 100). -/
def State.ctxEcc (s : State) (slot word : Word) : State :=
  let t := if s.mode.warmReq.isSome then s else s.say .sch 0x4206 slot word 0 0
  t.coreUe

/-- Its slot and word where the spec states none: free values. -/
def State.ctxEccFree (s : State) : State :=
  let a := s.free
  let b := a.2.free
  b.2.ctxEcc a.1 b.1

/-- t, unless the check of word w of slot x's context fails. -/
def State.ctxChecked (s : State) (x : Option (Fin 64)) (w : Option (Fin 168)) (t : State) : State :=
  match x, w with
  | some r, some i => s.ctxEcc (BitVec.ofNat 32 r.val) (BitVec.ofNat 32 i.val)
  | _, _ => t

/-- The core holds at a boundary: the running thread has requested a switch (14 R394). -/
def State.schHolds (s : State) : Bool :=
  s.core.bundle.isEmpty && s.sch.en && s.sch.req.isSome && !s.core.scan && s.core.efp == 0 && !s.core.df && !s.core.wtrap

/-- A held IDLE bundle takes effect whole once an interrupt request above PSR.MASK is pending (R339); the tick tests it (log entry
46). -/
def State.idleEnd (s : State) : State :=
  if s.core.idle.isEmpty || !s.coreRuns || (s.arbiter s.core.mask).isNone then s
  else
    let b := s.core.idle
    (s.withCore (fun c => { c with idle := [] })).bundleRun b (s.core.pc + BitVec.ofNat 32 (4 * bundleWords b))

/-- Nothing goes before the next bundle at this boundary: no held IDLE, scan entry, interrupt or switch, taken or awaited (13
R357, 14 R385, R394). -/
def State.boundaryFree (s : State) : Bool := s.core.idle.isEmpty && !s.scanDue && !s.irqDue && !s.switchDue && !s.schHolds

/-- What goes before the next bundle at a boundary (13 R357, 14 R385): a scan entry, then the selected interrupt, then a switch. -/
def State.boundaryEnter (s : State) (pu : BitVec 2) : State :=
  if s.scanDue then s.scanEntry pu else if s.irqDue then s.irqEnter pu else if s.switchDue then s.contextSwitch else s

/-- INTERRUPT_ENTRY (13 R357, R358). -/
def State.irqEntry (s : State) (pu : BitVec 2) : State :=
  if s.coreRuns && s.core.bundle.isEmpty && s.core.idle.isEmpty then s.boundaryEnter pu else s

/-- A syllable joins the open bundle, and ends it with its stop bit or its fourth word (R315). -/
def State.join (s : State) (o : SylEnc) (y : Syl) : State :=
  let t := s.withCore (fun c => { c with bundle := c.bundle ++ [y] })
  if o.stop || decide (4 ≤ t.core.bundle.foldl (fun n z => n + z.words) 0) then t.bundleEnd o.stop else t

/-- A syllable command. At a boundary where a scan entry, an interrupt or a switch goes first, that is taken in its place, and the bundle
executes after the return; while an IDLE waits, or the core holds for a switch, no syllable acts (log entry 46). -/
def State.issue (s : State) (o : SylEnc) (y : Syl) : State :=
  if !s.coreRuns then s
  else if !s.core.bundle.isEmpty || s.boundaryFree then s.join o y
  else if s.core.idle.isEmpty then s.boundaryEnter o.pushUe
  else s

end Sys2Proof.Machine
end

