-- ==== Sys2Proof/Machine/Tick.lean ====
section
/-! DEFINITION. What the block does in one DT tick (10 ns) with no command waiting (log entry 4), and the scrubber and lockstep
events (12, 20). -/

namespace Sys2Proof.Machine

/-- The wake timer at an RTC tick (16 R460). -/
def State.wakeCount (s : State) : State :=
  if s.wnt.wtCnt.toNat = 0 then s
  else if s.wnt.wtCnt.toNat = 1 then s.wakeTimer
  else { s with wnt := { s.wnt with wtCnt := s.wnt.wtCnt - 1 } }

/-- One RTC tick: RTCT, hour meters, wake timer (16 R460, 17 R488). -/
def State.rtcTick (s : State) : State :=
  (({ s with time := { s.time with rtct := s.time.rtct + 1,
                                   edgeDt := if s.time.run then some s.time.dt else none } }).meterTicks).umuEdge.wakeCount

/-- 10 ns of the RTC at its nominal rate. -/
def State.rtcStep (s : State) : State :=
  if s.pwr.winter && (s.time.xrtcSeen || s.time.rcFallback) then
    let p := s.time.phase + 32768
    if p < 100000000 then { s with time := { s.time with phase := p } }
    else ({ s with time := { s.time with phase := p - 100000000 } }).rtcTick
  else s

/-- What the passing of time ends for the scan core at a tick: a commit 300 cycles after its issue (09 R242), a scan at the end of its
deadline cycle (09 R253), a wait of IDLE (12 R339). -/
def State.coreTick (s : State) : State :=
  let n : DWord := 3 * (s.time.dt - s.core.cycDt)
  State.idleEnd <|
  if !s.mode.past13 || s.mode.pf then s
  else
    match s.scan.commit with
    | some c => if c.applied && decide (c.issue + 300 ≤ n) then s.commitFinish else s
    | none => if decide (s.scan.start + BitVec.ofNat 64 (s.periodCyc - 300) < n) then s.overrun else s

/-- One DT tick: what the instant that ends still owes (its FABRIC edge, the latch of a scan, the fabric's signals as it leaves
them), DT, the cycle counter (at least three cycles a tick since step 13), the interrupt lines, the inputs of the next edge, and
what the new instant ends. -/
def State.dtStep (s : State) : State :=
  if !s.time.run then s
  else
    let s1 := s.edgeNow.scanLatch.notePast
    let dt := s1.time.dt + 1
    let n : DWord := 3 * (dt - s1.core.cycDt)
    let cyc := if s1.mode.past13 && decide (s1.core.cyc < n) then n else s1.core.cyc
    let lines := s1.irqLines
    let s2 := { s1 with time := { s1.time with dt := dt }, fab := { s1.fab with edgeDone := false },
                        core := { s1.core with cyc := cyc, lines1 := lines, lines2 := lines &&& s1.core.lines1 } }
    (if dt.toNat % 10 = 0 then s2.edgePrepare else s2).zvArrive.startTick.coreTick

/-- A tick. -/
def State.tick (s : State) : State := s.dtStep.rtcStep

/-- SCRUB_CORRECTED (20 R561): the memory's count in SAF_ECC_CNT. -/
def State.scrubCorrected (s : State) (mem : Fin 6) : State :=
  if !s.mode.coreOn then s
  else
    let f := s.saf
    { s with saf :=
      match mem.val with
      | 0 => { f with ecc0 := satInc f.ecc0 }
      | 1 => { f with ecc1 := satInc f.ecc1 }
      | 2 => { f with ecc2 := satInc f.ecc2 }
      | _ => { f with ecc3 := satInc f.ecc3 } }

/-- A staged entry lost to an uncorrectable error (20 Table SAF-3; 11 R302). -/
def State.stagedLost (s : State) (i : Nat) : State :=
  if i < s.log.staged.length then
    { s with log := { s.log with staged := s.log.staged.eraseIdx i, lost := satInc s.log.lost,
                                 flush := s.log.flush.map (fun n => if i < n then n - 1 else n) } }
  else s

/-- SCRUB_UE (20 R561, Table SAF-3): by memory as SCRUB_UE numbers it; VS_ECC gives no Zinik tag (log entry 103). -/
def State.scrubUe (s : State) (mem : Fin 6) (addr : Word) : State :=
  if !s.mode.coreOn then s
  else
    let s1 := s.sayRate 1600000 mem.val .safmon 0x8504 (BitVec.ofNat 32 mem.val) addr 0 0
    match mem.val with
    | 0 | 1 => s1.coreUe
    | 2 => if s1.vecOn then (((s1.vsEcc addr.toNat 0xFFFFFFFF).setReg R.zveErr (addr &&& 0x7FFFF)).evt R.zveEvt 1) else s1
    | 3 => s1.raiseSaf 6 0
    | 4 => s1.umuUe
    | 5 => s1.stagedLost (addr.toNat / 32)
    | _ => s1

/-- LOCKSTEP_MISMATCH (12 R342). -/
def State.lockstep (s : State) : State :=
  if !s.running || !s.mode.past13 || s.mode.pf then s else if s.inScan then s.discard 1 else s.latchWarm 3

end Sys2Proof.Machine
end

