-- ==== Sys2Proof/Machine/Common.lean ====
section
/-! DEFINITION. What the meanings share: outcomes, register commands that name no address, and the Winter domain's power. -/

namespace Sys2Proof.Machine

/-- Outcome of a command. -/
abbrev Out := Host.Outcome State Fault Refusal

/-- An event of a unit that the part may lack: t where it exists (00 R3, R7). -/
def within (exists_ : Bool) (t : State) : Out := if exists_ then .next t else .fault .illFormed

/-- A write of a register that a command names without its master: t where the register can be reached, else a bus error (log
entry 49). -/
def State.regAt (s : State) (exists_ : Bool) (t : State) : State :=
  if s.regsOn && exists_ then t.answer .ok 0 else s.answer .busError 0
def State.regCmd (s : State) (t : State) : State := s.regAt true t

/-- The address by which a master reaches the register at an offset: an unprivileged core uses the unprivileged view of a
register that has one. -/
def State.regAddr (s : State) (m : Master) (o : Nat) : Word :=
  let open_ := match s.regRow o with
    | some r => r.view != .p
    | none => false
  BitVec.ofNat 32 ((if m == .core && !s.core.priv && open_ then 0x50000000 else 0x40000000) + o)

/-- A read of the register at an offset by a master. -/
def State.readReg (s : State) (m : Master) (o : Nat) : State := s.busRead m .word (s.regAddr m o)

/-- The part with the Winter domain unpowered: what is kept is not volatile (the part, its identity, external flash, vault,
lock state) or lies outside it (05 R136, 16 R485). -/
def State.winterOff (s : State) : State :=
  { State.reset with
    pending := s.pending, part := s.part, freeCtr := s.freeCtr, resp := s.resp, uid := s.uid,
    mode := { ModeSt.reset with wake := false },
    pwr := { PwrSt.reset with winter := false },
    log := { LogSt.reset with offered := [], ports := [] },
    key := { KeySt.reset with
      flash := { s.key.flash with size0 := 0, size1 := 0, ok0 := false, ok1 := false, discErr := false, status := 0 },
      vault := s.key.vault, vop := s.key.vop },
    fab := { FabSt.reset with bstRaw := s.fab.bstRaw },
    wnt := { WntSt.reset with gin := s.wnt.gin },
    ifc := { IfcSt.reset with gin := s.ifc.gin, cts3 := s.ifc.cts3 },
    dbg := { DbgSt.reset with lock := s.dbg.lock } }

/-- A Winter power-on (04 M1, 16 R485): Dormant with the core-die wake request pending, the Winter registers at their Power-on
entries, the seal key loaded. -/
def State.winterOn (s : State) : State :=
  ({ s.winterOff with mode := ModeSt.reset, pwr := PwrSt.reset, log := LogSt.reset }).loadSealKey

/-- A SPIW exchange ends with the byte received (16 R464). -/
def State.spwDone (s : State) (rx : Byte) : State :=
  if s.wnt.spwBusy then (({ s with wnt := { s.wnt with spwBusy := false, spwData := rx } }).setIp 9).blockDone else s

/-- The level of a Winter GPIO pin changes (16 R465). -/
def State.winterPin (s : State) (i : Fin 4) (level : Bool) : State :=
  let t := { s with wnt := { s.wnt with gin := setBit s.wnt.gin i.val level } }
  t.wgpioEdges s.wgpio

/-- A whole UTC second (16 R457). -/
def State.rtcSecond (s : State) : State :=
  if s.pwr.winter && decide (s.time.rtct.toNat % 32768 = 0) then s.setIp 13 else s

/-- A meter's tick count reaches 32,768 (17 R488): its gate is active. -/
def State.meterSecond (s : State) (m : Fin 4) : State :=
  if s.gate m then s.putMeter m (s.use.meter[m]).second else s

/-- The gate of a meter with SEL 2: SIG has read 1 for 32,768 ticks, or reads 0 (17 R489). -/
def State.meterGate (s : State) (m : Fin 4) (sig : Bool) : State :=
  let x := s.use.meter[m]
  if x.sel = 2 then s.putMeter m { x with qual := if sig && s.modeRps && s.running then 32769 else 0 } else s

/-- One link of the running chain, where it has this operation (15 R420). -/
def State.linkStep (s : State) (op : Nat) : State :=
  if s.vecOn && s.nextOp op && (match s.zve.run with | some r => !r.abort | none => false) then s.linkRun 65536 else s

/-- A write by a running sentinel that starts a wake of the core die; CTL bit 0 stays (16 R463). -/
def State.wakeCore (s : State) : State := s.sntWrites 0xF000 ((s.iob 0xF000 &&& 1) ||| 2)

/-- The TAP instruction of an opcode (22 Table TEST-1, R598). -/
def tapOf (opcode : Byte) : TapIr :=
  match opcode.toNat with
  | 0 => .extest | 1 => .idcode | 2 => .sample | 4 => .clamp | 5 => .highz | 8 => .dbgacc | _ => .bypass

/-- A byte pushed, then the next address (16 Table SNT-2). -/
def State.pushB (s : State) (v : Byte) (n : Half) : SntRes :=
  match s.push v with
  | none => .fault s 3
  | some t => .go t n

/-- A byte popped, then k. -/
def State.popB (s : State) (k : Byte → State → SntRes) : SntRes :=
  match s.pop with
  | none => .fault s 3
  | some (v, t) => k v t

/-- INCW and DECW: Z, N, and V where the operand was v (16 R454). -/
def State.sntStep (s : State) (q : Fin 4) (d v : Half) : State :=
  (s.putQ q (s.sq q + d)).flagsOf (s.sq q + d) none (some (s.sq q == v))

/-- MUL: q0 takes the unsigned product, Z from it (16 R454). -/
def State.sntMulQ0 (s : State) (a b : Byte) : State :=
  let p : Half := a.setWidth 16 * b.setWidth 16
  (s.putQ 0 p).putF (setBit s.wnt.flags 1 (p == 0))

end Sys2Proof.Machine
end

