-- ==== Sys2Proof/Machine/Chains.lean ====
section
/-! DEFINITION. Meanings: The filter chains (07). -/

namespace Sys2Proof.Machine

/-- CHAIN_OUTPUT (07 R192). A filter chain completes a result word stamped with DT. -/
def execChainOutput (k : Fin 16) (i : ChainIn) (s : State) : Out :=
  within (decide (k.val < s.part.channels)) ((s.chainOutput k i).primeEnd)

/-- FLT_SYNC (07 R194). A non-zero FLT_SYNC write in Ready or Service clears the masked chains together. -/
def execFltSync (v : Word) (s : State) : Out := .next (s.regCmd (s.fltSync v))

/-- COEF_CRC (07 R197). Every 1 ms the chain coefficient CRC is checked against its baseline. -/
def execCoefCrc (upset : Option (Fin 16 × Fin 96 × Word)) (s : State) : Out :=
  .next (s.when (s.converts && s.mode.past10) ((s.coefUpset upset).coefCheck))

/-- RATE_MON (07 R198). Each 100,000-tick window the chain output count is checked. -/
def execRateMon (s : State) : Out := .next (s.when (s.converts && s.mode.past10) s.rateCheck)

end Sys2Proof.Machine
end

