-- ==== Sys2Proof/Machine/Comms.lean ====
section
/-! DEFINITION. Meanings: Communication interfaces (21). -/

namespace Sys2Proof.Machine

/-- CAN_BIT_TIMING_WRITE (21 R579). A CAN bit-timing write is accepted only with EN 0 and legal values. -/
def execCanBitTimingWrite (k : Fin 2) (data : Bool) (v : Word) (s : State) : Out := .next (s.regCmd (s.canTiming k data v))

/-- CAN_FRAME_RECEIVED (21 R580). A validated received frame is stored in a matching RX buffer. -/
def execCanFrameReceived (k : Fin 2) (id ctrl stamp : Word) (data : List Word) (s : State) : Out :=
  .next (s.canRx k id ctrl stamp data)

/-- CAN_TX_REQUEST (21 R581). A CAN_TXREQ write requests transmission of a buffer. -/
def execCanTxRequest (k : Fin 2) (m : BitVec 64) (s : State) : Out := .next (s.regCmd (s.canTxReq k m))

/-- CAN_FRAME_TRANSMITTED (21 R581). A frame is sent successfully and its buffer marked done. -/
def execCanFrameTransmitted (k : Fin 2) (b : Fin 64) (stamp : Word) (s : State) : Out := .next (s.canTxDone k b stamp)

/-- CAN_TXABORT (21 R582). A CAN_TXABORT write withdraws a pending frame. -/
def execCanTxabort (k : Fin 2) (m : BitVec 64) (onBus : Bool) (s : State) : Out := .next (s.regCmd (s.canAbort k m onBus))

/-- CAN_PASSIVE (21 R578). The controller becomes error passive. -/
def execCanPassive (k : Fin 2) (s : State) : Out := .next (s.canPassive k)

/-- CAN_BUS_OFF (21 R578). The controller goes bus-off. -/
def execCanBusOff (k : Fin 2) (s : State) : Out := .next (s.canBusOff k)

/-- CAN_RECOVER (21 R578). Bus-off recovery completes. -/
def execCanRecover (k : Fin 2) (s : State) : Out := .next (s.canRecover k)

/-- UART_DATA_WRITE (21 R584). A UART_DATA write pushes a byte to the TX FIFO. -/
def execUartDataWrite (u : Fin 4) (v : Word) (s : State) : Out := .next (s.regCmd (s.uartWrite u v))

/-- UART_DATA_READ (21 R585). A UART_DATA read pops a received byte. -/
def execUartDataRead (m : Master) (u : Fin 4) (s : State) : Out := .next (s.readReg m (R.uart u 0x0C))

/-- UART_RX_CHARACTER (21 R585). A UART receives a character into its FIFO or drops it. -/
def execUartRxCharacter (u : Fin 4) (v : Byte) (ferr perr brk : Bool) (s : State) : Out := .next (s.uartRx u v ferr perr brk)

/-- UART_TX_CHARACTER (21 R584). A UART finishes sending a character. -/
def execUartTxCharacter (u : Fin 4) (s : State) : Out := .next (s.uartTx u)

/-- RX_TIMEOUT (21 R585). The line idle for 4 character times with data sets RX_TIMEOUT. -/
def execRxTimeout (u : Fin 4) (s : State) : Out := .next (s.uartTimeout u)

/-- SPI_TX_WRITE (21 R588). A SPI_TX write pushes a frame to transmit. -/
def execSpiTxWrite (k : Fin 2) (v : Word) (s : State) : Out := .next (s.regCmd (s.spiWrite k v))

/-- SPI_FRAME_DONE (21 R588). An SPI frame exchange completes. -/
def execSpiFrameDone (k : Fin 2) (rx : Word) (s : State) : Out := .next (s.spiDone k rx)

/-- SPI_RX_READ (21 R588). A SPI_RX read pops a received frame. -/
def execSpiRxRead (m : Master) (k : Fin 2) (s : State) : Out := .next (s.readReg m (R.spi k 0x0C))

/-- I2C_START (21 R589). I2C command START issues a start condition. -/
def execI2cStart (k : Fin 2) (arbLost : Bool) (s : State) : Out := .next (s.i2cStart k arbLost)

/-- I2C_WRITE (21 R590). I2C command WRITE sends a byte and checks its acknowledge. -/
def execI2cWrite (k : Fin 2) (ack arbLost : Bool) (s : State) : Out := .next (s.i2cWrite k ack arbLost)

/-- I2C_READ_ACK (21 R589). I2C command READ with ACK reads a byte. -/
def execI2cReadAck (k : Fin 2) (v : Byte) (s : State) : Out := .next (s.i2cReadByte k 3 v)

/-- I2C_READ_NACK (21 R589). I2C command READ with NACK reads a final byte. -/
def execI2cReadNack (k : Fin 2) (v : Byte) (s : State) : Out := .next (s.i2cReadByte k 4 v)

/-- I2C_STOP (21 R589). I2C command STOP issues a stop condition. -/
def execI2cStop (k : Fin 2) (s : State) : Out := .next (s.i2cStop k)

/-- I2C_RX_READ (21 R589). An I2C_RX read pops a received byte. -/
def execI2cRxRead (m : Master) (k : Fin 2) (s : State) : Out := .next (s.readReg m (R.i2c k 8))

/-- I2C_STUCK (21 R591). A line held low for 25 ms triggers bus recovery. -/
def execI2cStuck (k : Fin 2) (sda : Bool) (s : State) : Out := .next (s.i2cStuck k sda)

/-- GPIO_EDGE (21 R592). An enabled GPIO edge sets its event bit. -/
def execGpioEdge (i : Fin 12) (level : Bool) (s : State) : Out := .next (s.gpioEdge i level)

/-- GPIO_SET (21 R592). A GPIO_SET write sets output bits. -/
def execGpioSet (v : Word) (s : State) : Out := .next (s.regCmd (s.gpioSet v))

/-- GPIO_CLR (21 R592). A GPIO_CLR write clears output bits. -/
def execGpioClr (v : Word) (s : State) : Out := .next (s.regCmd (s.gpioClr v))

end Sys2Proof.Machine
end

