-- ==== Sys2Proof/Machine/CoreInstr.lean ====
section
/-! DEFINITION. Meanings: Scan core instructions (12). Each command is one syllable; its bundle takes effect at its last syllable. -/

namespace Sys2Proof.Machine

/-- ADD (12 R334). Scan core add modulo 2^32. -/
def execAdd (o : SylEnc) (s : State) : Out := .next (s.issue o (s.sylR .a (· + ·) o))

/-- ADDI (12 R334). Scan core add immediate. -/
def execAddi (o : SylEnc) (s : State) : Out := .next (s.issue o (s.sylI .a (· + ·) o))

/-- SUB (12 R334). Scan core subtract. -/
def execSub (o : SylEnc) (s : State) : Out := .next (s.issue o (s.sylR .a (· - ·) o))

/-- AND (12 R334). Scan core bitwise AND. -/
def execAnd (o : SylEnc) (s : State) : Out := .next (s.issue o (s.sylR .a (· &&& ·) o))

/-- ANDI (12 R334). Scan core bitwise AND immediate. -/
def execAndi (o : SylEnc) (s : State) : Out := .next (s.issue o (s.sylI .a (· &&& ·) o))

/-- OR (12 R334). Scan core bitwise OR. -/
def execOr (o : SylEnc) (s : State) : Out := .next (s.issue o (s.sylR .a (· ||| ·) o))

/-- ORI (12 R334). Scan core bitwise OR immediate. -/
def execOri (o : SylEnc) (s : State) : Out := .next (s.issue o (s.sylI .a (· ||| ·) o))

/-- XOR (12 R334). Scan core bitwise XOR. -/
def execXor (o : SylEnc) (s : State) : Out := .next (s.issue o (s.sylR .a (· ^^^ ·) o))

/-- XORI (12 R334). Scan core bitwise XOR immediate. -/
def execXori (o : SylEnc) (s : State) : Out := .next (s.issue o (s.sylI .a (· ^^^ ·) o))

/-- SHL (12 R334). Scan core left shift by register. -/
def execShl (o : SylEnc) (s : State) : Out := .next (s.issue o (s.sylR .a (byReg shlOp) o))

/-- SHLI (12 R334). Scan core left shift by immediate. -/
def execShli (o : SylEnc) (s : State) : Out := .next (s.issue o (s.sylSh shlOp o))

/-- SHR (12 R334). Scan core logical right shift by register. -/
def execShr (o : SylEnc) (s : State) : Out := .next (s.issue o (s.sylR .a (byReg shrOp) o))

/-- SHRI (12 R334). Scan core logical right shift by immediate. -/
def execShri (o : SylEnc) (s : State) : Out := .next (s.issue o (s.sylSh shrOp o))

/-- SAR (12 R334). Scan core arithmetic right shift by register. -/
def execSar (o : SylEnc) (s : State) : Out := .next (s.issue o (s.sylR .a (byReg sarOp) o))

/-- SARI (12 R334). Scan core arithmetic right shift by immediate. -/
def execSari (o : SylEnc) (s : State) : Out := .next (s.issue o (s.sylSh sarOp o))

/-- ADDT (12 R335). Scan core add raising OV on signed overflow. -/
def execAddt (o : SylEnc) (s : State) : Out := .next (s.issue o (s.sylT (· + ·) o))

/-- SUBT (12 R335). Scan core subtract raising OV on signed overflow. -/
def execSubt (o : SylEnc) (s : State) : Out := .next (s.issue o (s.sylT (· - ·) o))

/-- CMPEQ (12 R334). Compare equal writing two predicates. -/
def execCmpeq (o : SylEnc) (s : State) : Out := .next (s.issue o (s.sylCmpR (fun a b => a == b) o))

/-- CMPEQI (12 R334). Compare equal with immediate. -/
def execCmpeqi (o : SylEnc) (s : State) : Out := .next (s.issue o (s.sylCmpI (fun a b => a == b) o))

/-- CMPLT (12 R334). Signed compare less than. -/
def execCmplt (o : SylEnc) (s : State) : Out := .next (s.issue o (s.sylCmpR BitVec.slt o))

/-- CMPLTI (12 R334). Signed compare less than immediate. -/
def execCmplti (o : SylEnc) (s : State) : Out := .next (s.issue o (s.sylCmpI BitVec.slt o))

/-- CMPLTU (12 R334). Unsigned compare less than. -/
def execCmpltu (o : SylEnc) (s : State) : Out := .next (s.issue o (s.sylCmpR BitVec.ult o))

/-- CMPLTUI (12 R334). Unsigned compare less than immediate. -/
def execCmpltui (o : SylEnc) (s : State) : Out := .next (s.issue o (s.sylCmpI BitVec.ult o))

/-- SEL (12 R334). Select by predicate. -/
def execSel (o : SylEnc) (s : State) : Out := .next (s.issue o (s.sylSel o))

/-- MIN (12 R334). Signed minimum. -/
def execMin (o : SylEnc) (s : State) : Out := .next (s.issue o (s.sylR .a minOp o))

/-- MAX (12 R334). Signed maximum. -/
def execMax (o : SylEnc) (s : State) : Out := .next (s.issue o (s.sylR .a maxOp o))

/-- EXT (12 R334). Sign or zero extend byte or half. -/
def execExt (o : SylEnc) (s : State) : Out := .next (s.issue o (s.sylUn (extOp o.f) (decide (o.f.toNat < 4)) o))

/-- CLZ (12 R334). Count leading zeros. -/
def execClz (o : SylEnc) (s : State) : Out := .next (s.issue o (s.sylUn clzOp (o.f == 0) o))

/-- PLOG (12 R334). Predicate logic operation. -/
def execPlog (o : SylEnc) (s : State) : Out := .next (s.issue o (s.sylPlog o))

/-- LDW (12 R325). Load word with two-bundle delay. -/
def execLdw (o : SylEnc) (s : State) : Out := .next (s.issue o (s.sylLd 4 false o))

/-- LDH (12 R325). Load half sign-extended. -/
def execLdh (o : SylEnc) (s : State) : Out := .next (s.issue o (s.sylLd 2 true o))

/-- LDHU (12 R325). Load half zero-extended. -/
def execLdhu (o : SylEnc) (s : State) : Out := .next (s.issue o (s.sylLd 2 false o))

/-- LDB (12 R325). Load byte sign-extended. -/
def execLdb (o : SylEnc) (s : State) : Out := .next (s.issue o (s.sylLd 1 true o))

/-- LDBU (12 R325). Load byte zero-extended. -/
def execLdbu (o : SylEnc) (s : State) : Out := .next (s.issue o (s.sylLd 1 false o))

/-- LDX (12 R325). Indexed load of the width F selects. -/
def execLdx (o : SylEnc) (s : State) : Out := .next (s.issue o (s.sylLdx o))

/-- STW (12 R329). Store word, near, posted far or deferred. -/
def execStw (o : SylEnc) (s : State) : Out := .next (s.issue o (s.sylSt 4 o))

/-- STH (12 R329). Store half. -/
def execSth (o : SylEnc) (s : State) : Out := .next (s.issue o (s.sylSt 2 o))

/-- STB (12 R329). Store byte. -/
def execStb (o : SylEnc) (s : State) : Out := .next (s.issue o (s.sylSt 1 o))

/-- STX (12 R329). Indexed store of the width F selects. -/
def execStx (o : SylEnc) (s : State) : Out := .next (s.issue o (s.sylStx o))

/-- MUL (12 R334). Multiply, low 32 bits. -/
def execMul (o : SylEnc) (s : State) : Out := .next (s.issue o (s.sylR .m (· * ·) o))

/-- MULI (12 R334). Multiply by immediate. -/
def execMuli (o : SylEnc) (s : State) : Out := .next (s.issue o (s.sylI .m (· * ·) o))

/-- MULH (12 R334). Signed multiply high. -/
def execMulh (o : SylEnc) (s : State) : Out := .next (s.issue o (s.sylR .m mulhOp o))

/-- MULHU (12 R334). Unsigned multiply high. -/
def execMulhu (o : SylEnc) (s : State) : Out := .next (s.issue o (s.sylR .m mulhuOp o))

/-- MULQ (12 R334). Q31 multiply with rounding and saturation. -/
def execMulq (o : SylEnc) (s : State) : Out := .next (s.issue o (s.sylR .m mulqOp o))

/-- DIV (12 R335). Signed divide, 18 cycles. -/
def execDiv (o : SylEnc) (s : State) : Out := .next (s.issue o (s.sylDiv divOp o))

/-- DIVU (12 R335). Unsigned divide. -/
def execDivu (o : SylEnc) (s : State) : Out := .next (s.issue o (s.sylDiv divuOp o))

/-- REM (12 R335). Signed remainder. -/
def execRem (o : SylEnc) (s : State) : Out := .next (s.issue o (s.sylDiv remOp o))

/-- REMU (12 R335). Unsigned remainder. -/
def execRemu (o : SylEnc) (s : State) : Out := .next (s.issue o (s.sylDiv remuOp o))

/-- BR (12 R334). Relative branch. -/
def execBr (o : SylEnc) (s : State) : Out := .next (s.issue o (s.sylBr o))

/-- JR (12 R334). Jump to register. -/
def execJr (o : SylEnc) (s : State) : Out := .next (s.issue o (s.sylJr o))

/-- CALL (12 R324). Call with window advance. -/
def execCall (o : SylEnc) (s : State) : Out := .next (s.issue o (s.sylCall o))

/-- CALLR (12 R324). Call to register with window advance. -/
def execCallr (o : SylEnc) (s : State) : Out := .next (s.issue o (s.sylCallr o))

/-- RET (12 R324). Return with window retreat. -/
def execRet (o : SylEnc) (s : State) : Out := .next (s.issue o (s.sylRet o))

/-- SCALL (12 R337). System call into privileged mode. -/
def execScall (o : SylEnc) (s : State) : Out :=
  .next (s.issue o { s.sylB o [] (unused o true true false false) 3 (.scall (immNine o)) with dst := some 31 })

/-- SRET (12 R337). Return from system call. -/
def execSret (o : SylEnc) (s : State) : Out := .next (s.issue o { s.sylBare 3 .sret o with dst := some 31 })

/-- ERET (13 R361). Return from exception or interrupt, chaining when eligible. -/
def execEret (o : SylEnc) (s : State) : Out := .next (s.issue o (s.sylBare 10 .eret o))

/-- MFSR (12 R348). Read a system register. -/
def execMfsr (o : SylEnc) (s : State) : Out := .next (s.issue o (s.sylMfsr o))

/-- MTSR (12 R348). Write a system register. -/
def execMtsr (o : SylEnc) (s : State) : Out :=
  .next (s.issue o (s.sylMtsr o))

/-- ZISS (12 R338). Offer a Zinik descriptor to the command queue. -/
def execZiss (o : SylEnc) (s : State) : Out := .next (s.issue o (s.sylZiss o))

/-- ZWAIT (12 R338). Wait for a Zinik command's completion flag. -/
def execZwait (o : SylEnc) (s : State) : Out :=
  .next (s.issue o (s.sylB o [o.ra] (unused o true false true true) 1 (.zwait ((s.rf o.ra).setWidth 8))))

/-- COMMIT (09 R240). Issue the scan commit and end scan context. -/
def execCommit (o : SylEnc) (s : State) : Out := .next (s.issue o (s.sylBare 6 .commit o))

/-- FENCE (12 R334). Wait until no far store is outstanding. -/
def execFence (o : SylEnc) (s : State) : Out := .next (s.issue o (s.sylBare 1 .fence o))

/-- SYNC (12 R336). Synchronisation point for imprecise exceptions. -/
def execSync (o : SylEnc) (s : State) : Out := .next (s.issue o (s.sylBare 1 .sync o))

/-- IDLE (12 R339). Wait until an interrupt above the mask is pending. -/
def execIdle (o : SylEnc) (s : State) : Out := .next (s.issue o (s.sylBare 1 .idle o))

/-- BREAK (12 R334). Raise the breakpoint exception. -/
def execBrk (o : SylEnc) (s : State) : Out := .next (s.issue o (s.sylB o [] (unused o true true false false) 1 .brk))

end Sys2Proof.Machine
end

