-- ==== Sys2Proof/Machine/Disturb.lean ====
section
/-! DEFINITION. Meanings: The disturbance recorder (10). -/

namespace Sys2Proof.Machine

/-- RECORDER_SAMPLE (10 R271). At each recorder sample the armed slot writes a frame and the sequencers evaluate. -/
def execRecorderSample (bad : Option (Fin 4)) (s : State) : Out := .next (s.recSample bad)

/-- REC_ARM (10 R275). REC_CTL.ARM = 1 arms the lowest free slot at the next sample. -/
def execRecArm (s : State) : Out := .next (s.regCmd (s.recArm))

/-- REC_DISARM (10 R275). REC_CTL.ARM = 0 discards a pre-trigger slot and arms no further slot. -/
def execRecDisarm (s : State) : Out := .next (s.regCmd (s.recDisarm))

/-- BRM_CTL_WRITE (10 R285). A BRM_CTL.EN write enables or stops sequencers at the next sample. -/
def execBrmCtlWrite (v : Word) (s : State) : Out := .next (s.regCmd (s.brmCtlWrite v))

/-- BRM_SWTRIG (10 R282). A BRM_SWTRIG bit is 1 for exactly one sample. -/
def execBrmSwtrig (v : Word) (s : State) : Out := .next (s.regCmd (s.brmSwtrig v))

/-- DRAINED (10 R278). The drain of a sealed slot to its RECORDS cell completes and frees the slot. -/
def execDrained (us : Word) (fail : Option Byte) (ue : Option (BitVec 19)) (s : State) : Out := .next (s.drained us fail ue)

end Sys2Proof.Machine
end

