-- ==== Sys2Proof/Machine/EntropyCmds.lean ====
section
/-! DEFINITION. Meanings: The entropy source (19). -/

namespace Sys2Proof.Machine

/-- ESU_SAMPLE (19 R538). Each source is sampled, health-tested and its bit gathered. -/
def execEsuSample (bits : BitVec 5) (s : State) : Out := .next (s.esuSample bits)

/-- BLOCK_RELEASE (19 R543). A held conditioned block is released after 41 instants. -/
def execBlockRelease (s : State) : Out := .next (s.blockRelease)

/-- DRBG_GENERATE (19 R548). A DRBG generate fills 512 bits into the DRBG FIFO. -/
def execDrbgGenerate (s : State) : Out := .next (s.when s.esuOn s.drbgGen)

/-- DRBG_RESEED (19 R549). The DRBG reseeds from two blocks when due. -/
def execDrbgReseed (s : State) : Out := .next (s.drbgReseed)

/-- DRBG_STOP (19 R549). A reseed not supplied within 10 ms stops the DRBG. -/
def execDrbgStop (s : State) : Out := .next (s.drbgStop)

/-- ESU_COND_READ (19 R546). A privileged ESU_COND read removes the next conditioned word. -/
def execEsuCondRead (m : Master) (s : State) : Out := .next (s.readReg m 0x120008)

/-- ESU_DRBG_READ (19 R550). An ESU_DRBG read removes the next DRBG word. -/
def execEsuDrbgRead (m : Master) (s : State) : Out := .next (s.readReg m 0x120010)

/-- RETEST (19 R551). ESU_CTL.RETEST puts isolated sources into STARTUP. -/
def execRetest (v : Word) (s : State) : Out := .next (s.regCmd (s.esuCtl v))

/-- RESEED (19 R549). ESU_CTL.RESEED requests a DRBG reseed. -/
def execReseed (v : Word) (s : State) : Out := .next (s.regCmd (s.esuCtl v))

end Sys2Proof.Machine
end

