-- ==== Sys2Proof/Machine/EventLog.lean ====
section
/-! DEFINITION. Meanings: The event log (11). -/

namespace Sys2Proof.Machine

/-- STAGE_ENTRY (11 R296). An offered log entry is staged, refused or counted lost. -/
def execStageEntry (s : State) : Out := .next (s.stageOne)

/-- LOG_CTL_FLUSH (11 R298). LOG_CTL.FLUSH triggers a flush and clears FLUSH_ERR. -/
def execLogCtlFlush (v : Word) (s : State) : Out := .next (s.regCmd (s.logCtl v))

/-- FLUSH_COMPLETE (11 R299). A flush ends with its entries written and the write point advanced. -/
def execFlushComplete (res : FlushRes) (s : State) : Out := .next (s.flushComplete res)

/-- RESERVE_ERASE (11 R300). A background erase of log sectors for the erased reserve completes. -/
def execReserveErase (s : State) : Out := .next (s.reserveErase)

/-- LOG_SWE_CODE (11 R303). A LOG_SWE_CODE write offers a software entry to staging. -/
def execLogSweCode (v : Word) (s : State) : Out := .next (s.regCmd (s.sweCode v))

/-- LOG_CURSOR_WRITE (11 R305). A LOG_CURSOR write starts a fetch of the entry at that index. -/
def execLogCursorWrite (v : Word) (s : State) : Out := .next (s.regCmd (s.startFetch (fld v 0 20)))

/-- LOG_FETCH_COMPLETE (11 R305). The fetch ends and the window shows the entry. -/
def execLogFetchComplete (s : State) : Out := .next (s.logFetched)

/-- LOG_WIN7_READ (11 R306). A read of LOG_WIN7 in VALID or ERR advances the cursor and starts the next fetch. -/
def execLogWin7Read (m : Master) (s : State) : Out := .next (s.readReg m 0x9005C)

/-- LOG_CLEAR (11 R308). A keyed LOG_CLEAR write in Service starts clearing the log. -/
def execLogClear (v : Word) (s : State) : Out := .next (s.regCmd (s.logClearWr v))

/-- LOG_CLEARED (11 R309). The clear erases the LOG area, resets counts and writes LOG_CLEARED. -/
def execLogCleared (s : State) : Out := .next (s.logCleared)

end Sys2Proof.Machine
end

