-- ==== Sys2Proof/Machine/FrontEnd.lean ====
section
/-! DEFINITION. Meanings: The analogue front end (06). -/

namespace Sys2Proof.Machine

/-- AFE_CH_CTL_WRITE (06 R163). A write changing RANGE, GAIN or OW is accepted only in Ready and Service. -/
def execAfeChCtlWrite (n : Fin 16) (v : Word) (s : State) : Out :=
  .next (s.regAt (decide (n.val < s.part.channels)) (s.chCtlWrite n v))

/-- CHANNEL_SETTING_APPLY (06 R163). An accepted channel change applies at the next output boundary and clears the chain. -/
def execChannelSettingApply (n : Fin 16) (s : State) : Out := within (decide (n.val < s.part.channels)) (s.settingApply n)

/-- MOD_RESET (06 R162). An integrator clipped for 16 clocks resets the modulator and clears its chain. -/
def execModReset (n : Fin 16) (s : State) : Out :=
  within (decide (n.val < s.part.channels)) (s.when (s.chanEn n && s.converts) (s.modReset n))

/-- OW_SET (06 R164). A pin outside its open-wire window for 64 samples counts as open. -/
def execOwSet (n : Fin 16) (pins : BitVec 2) (s : State) : Out :=
  within (decide (n.val < s.part.channels)) (s.when (s.chanEn n && s.converts && bit s.afe.ctl[n] 5) (s.owChange n pins true))

/-- OW_CLEAR (06 R164). A pin inside its window for 64 samples counts as connected again. -/
def execOwClear (n : Fin 16) (pins : BitVec 2) (s : State) : Out :=
  within (decide (n.val < s.part.channels)) (s.when (s.chanEn n && s.converts && bit s.afe.ctl[n] 5) (s.owChange n pins false))

/-- OWT_GO (06 R166). AFE_OWT_CTL.GO starts an open-wire test burst on the masked channels. -/
def execOwtGo (v : Word) (s : State) : Out := .next (s.regCmd (s.owtGo v))

/-- OWT_DONE (06 R166). At burst end pins are sampled, currents turned off and tested chains cleared. -/
def execOwtDone (pos neg : BitVec 16) (s : State) : Out := .next (s.owtDone pos neg)

/-- SAR_CONVERSION (06 R169). The SAR completes a slot conversion and stores the result. -/
def execSarConversion (slot : Fin 20) (uv : Int) (s : State) : Out := .next (s.when s.sarRuns (s.sarConv slot uv))

/-- COMPARATOR_CROSSING (06 R171). A comparator input crossing a threshold changes its fabric signal and may trip a feeder. -/
def execComparatorCrossing (m : Fin 8) (uv : Int) (stuck1 stuck0 : BitVec 4) (s : State) : Out :=
  within (decide (m.val < s.part.comparators)) (s.when (s.cmpEn m && s.mode.past8) (s.crossing m uv stuck1 stuck0))

/-- CMP_CELL_TEST (06 R174). Every 250 µs each comparator tests its next cell. -/
def execCmpCellTest (pass : BitVec 8) (s : State) : Out :=
  .next (s.when (s.mode.coreOn && s.mode.past8 && !s.mode.pf) ((s.cellTest pass).settle))

/-- AFE_CMP_CTL_WRITE (06 R173). A HYST change is accepted only in Ready and Service. -/
def execAfeCmpCtlWrite (m : Fin 8) (v : Word) (s : State) : Out :=
  .next (s.regAt (decide (m.val < s.part.comparators)) (s.cmpCtlWrite m v))

end Sys2Proof.Machine
end

