-- ==== Sys2Proof/Machine/Further.lean ====
section
/-! DEFINITION. Meanings: Further events (02, 05, 17, 18, 20, 21, 24). -/

namespace Sys2Proof.Machine

/-- PLL_UNLOCK (02 R61). A core-die island PLL losing lock sends the part to Safe with cause CLOCK at once, without waiting for
two monitor windows. -/
def execPllUnlock (island : Fin 8) (s : State) : Out := .next (s.pllUnlock island)

/-- TJF_MEASUREMENT (05 R150). While the primary Safe cause is THERMAL, the field die measures TJF every 1 ms and releases a held
core-die wake request after eight readings at or below 130 °C. -/
def execTjfMeasurement (deg : Byte) (s : State) : Out := .next (s.tjfReading deg)

/-- UART3_CTS_N_CHANGE (21 R586). UART3_CTS_N falling lets a UART3 transmitter, core-die or sentinel, start the character it has
held back. -/
def execUart3CtsNChange (high : Bool) (s : State) : Out := .next (s.cts3Change high)

/-- CAN_FRAME_ERROR (21 R578). A bus error in a frame updates TEC or REC, re-offers the frame, or ends an abort-pending frame ABORTED. -/
def execCanFrameError (k : Fin 2) (b : Option (Fin 64)) (lec : BitVec 3) (big : Bool) (s : State) : Out :=
  .next (s.canError k b lec big)

/-- CAN_ARBITRATION_LOST (21 R581). A transmitted frame that loses arbitration is offered again, or ends ABORTED if TXABORT is pending. -/
def execCanArbitrationLost (k : Fin 2) (b : Fin 64) (s : State) : Out := .next (s.canLost k b)

/-- SCRUB_CORRECTED (20 R561). The background scrubber corrects a single-bit error, rewrites the word and increments SAF_ECC_CNT. -/
def execScrubCorrected (mem : Fin 6) (s : State) : Out := .next (s.scrubCorrected mem)

/-- HOUR_METER_GATE (17 R489). A SEL 2 hour meter gate becomes active after SIG has read 1 at 32,768 consecutive RTC ticks, and
inactive at the first tick at which SIG reads 0 or the mode condition fails. -/
def execHourMeterGate (m : Fin 4) (sig : Bool) (s : State) : Out := .next (s.meterGate m sig)

/-- AUTH_LOCK_EXPIRY (18 R532). The 1 s lock after a failed Service or debug authentication ends, so GO is accepted again and
AUTH_LOCK clears. -/
def execAuthLockExpiry (debug : Bool) (s : State) : Out := .next (s.authLockEnd debug)

/-- XRTC_START_TIMEOUT (24 R649). With no XRTC edge within 2 s of Winter power-on, the RTC switches to the RC fallback and stamps
become coarse. -/
def execXrtcStartTimeout (s : State) : Out := .next (s.when s.pwr.winter s.xrtcTimeout)

end Sys2Proof.Machine
end

