-- ==== Sys2Proof/Machine/Islands.lean ====
section
/-! DEFINITION. Meanings: Events of the die bridge, the clock monitors and the crystal (01, 02). -/

namespace Sys2Proof.Machine

/-- BRIDGE_TIMEOUT (01 R35). A die-bridge handshake not completed within four times its bound sends the part to Safe with cause BRIDGE. -/
def execBridgeTimeout (ch : BridgeCh) (s : State) : Out := .next (s.bridgeTimeout ch)

/-- CORE_LOST (01 R36). A core-die heartbeat missing for 1 ms sends the part to Safe with cause CORE_LOST. -/
def execCoreLost (s : State) : Out := .next (s.coreLost)

/-- SYNC_PAIR_CAPTURE (02 R48). At each RTC tick with RTCT a multiple of 32, TIME captures the RTCT and DT sync pair. -/
def execSyncPairCapture (s : State) : Out := .next (s.syncPair)

/-- CLOCK_MONITOR_WINDOW (02 R59). At the end of each monitor window the island clock count is compared with its limits. -/
def execClockMonitorWindow (island : Fin 8) (count : Nat) (s : State) : Out := .next (s.clkWindow island count)

/-- DT_FAULT (02 R63). A received DT Gray code that jumps or decreases sends the part to Safe with cause DT_FAULT. -/
def execDtFault (island : Fin 8) (s : State) : Out := .next (s.dtFault island)

/-- XING (02 R64). A core-die crossing not completed within four times its bound sends the part to Safe with cause XING. -/
def execXing (row : Fin 12) (s : State) : Out := .next (s.xing row)

/-- CRYSTAL_STOP (02 R65). With no XRTC edge for 1 ms the RTC runs from the RC fallback and stamps become coarse. -/
def execCrystalStop (s : State) : Out := .next (s.crystalStop)

end Sys2Proof.Machine
end

