-- ==== Sys2Proof/Machine/KeyCmds.lean ====
section
/-! DEFINITION. Meanings: Mover, key vault, Service authentication (18). -/

namespace Sys2Proof.Machine

/-- MOVER_READ (18 R526). MOV_CTL.GO with OP READ starts a software read job. -/
def execMoverRead (c : Fin 8) (push : Bool) (ring : Fin 64) (s : State) : Out := .next (s.regCmd (s.movGo c 1 push ring))

/-- MOVER_WRITE (18 R526). MOV_CTL.GO with OP WRITE starts a software write job. -/
def execMoverWrite (c : Fin 8) (push : Bool) (ring : Fin 64) (s : State) : Out := .next (s.regCmd (s.movGo c 2 push ring))

/-- MOVER_ERASE (18 R526). MOV_CTL.GO with OP ERASE starts a software erase job. -/
def execMoverErase (c : Fin 8) (push : Bool) (ring : Fin 64) (s : State) : Out := .next (s.regCmd (s.movGo c 3 push ring))

/-- MOVER_JOB_END (18 R526). A mover job ends and sets its event, optionally pushing a ring item. -/
def execMoverJobEnd (c : Fin 8) (res : MovEnd) (s : State) : Out := .next (s.moverJobEnd c res)

/-- MOV_ABORT (18 R527). A keyed MOV_ABORT ends the job at the next line boundary. -/
def execMovAbort (c : Fin 8) (v : Word) (s : State) : Out := .next (s.regCmd (s.movAbort c v))

/-- STAGE (18 R530). VAULT_CMD STAGE programs a key into an EMPTY slot. -/
def execStage (m : Master) (key role : Half) (slot : Fin 16) (s : State) : Out :=
  .next (s.regCmd (s.vaultStage m key slot (role.setWidth 4)))

/-- REVOKE (18 R530). VAULT_CMD REVOKE revokes a STAGED or ACTIVE slot. -/
def execRevoke (m : Master) (key : Half) (slot : Fin 16) (s : State) : Out := .next (s.regCmd (s.vaultRevoke m key slot))

/-- VAULT_PROGRAM_DONE (18 R530). Vault programming ends and reports its result. -/
def execVaultProgramDone (ok : Bool) (s : State) : Out := .next (s.vaultDone ok)

/-- AUTH_NEW (18 R532). SEC_AUTH_CTL.NEW loads a fresh challenge. -/
def execAuthNew (s : State) : Out := .next (s.regCmd (s.askSec))

/-- AUTH_GO (18 R532). SEC_AUTH_CTL.GO starts verification of the Service token. -/
def execAuthGo (s : State) : Out := .next (s.regCmd (s.secGo))

/-- AUTH_VERIFY_DONE (18 R532). Token verification ends and sets AUTH_VALID or a failure result. -/
def execAuthVerifyDone (s : State) : Out := .next (s.secVerify)

/-- AUTH_VALID_EXPIRY (18 R532). AUTH_VALID clears when no M7 follows within DURATION. -/
def execAuthValidExpiry (s : State) : Out := .next (s.secExpiry)

end Sys2Proof.Machine
end

