-- ==== Sys2Proof/Machine/Protection.lean ====
section
/-! DEFINITION. Meanings: The protection fabric (08). -/

namespace Sys2Proof.Machine

/-- THRESHOLD_EVALUATION (08 R205). At its use tick a chain output is evaluated by threshold units and integrators. -/
def execThresholdEvaluation (k : Fin 16) (s : State) : Out := within (decide (k.val < s.part.channels)) (s.evalChain k)

/-- FABRIC_TIMER_EXPIRY (08 R212). A fabric timer count reaching its preset changes the timer output. -/
def execFabricTimerExpiry (t : Fin 32) (s : State) : Out := .next (s.timerExpiry t)

/-- BST_CHANGE (08 R213). A BST pin level held for DEB + 1 ticks changes its fabric signal. -/
def execBstChange (n : Fin 12) (level : Bool) (s : State) : Out := .next (s.bstChange n level)

/-- BST_CFG_WRITE (08 R213). A FAB_BST_CFG write in Ready or Service applies from the next tick. -/
def execBstCfgWrite (n : Fin 12) (v : Word) (s : State) : Out := .next (s.regCmd (s.bstCfgWrite n v))

/-- TRIP_RESET (08 R215). A FAB_TRIP_RST write with the key applies a trip-reset pulse to latched records. -/
def execTripReset (v : Word) (s : State) : Out := .next (s.regCmd (s.tripRstWrite v))

/-- KDRV_OC (08 R222). Driver current above 1.6 A for 10 µs turns the driver off and latches it. -/
def execKdrvOc (d : Fin 4) (ma : BitVec 12) (s : State) : Out := .next (s.kdrvOcEv d ma)

/-- KDRV_OPEN (08 R222). Driver current below 20 mA for 1 ms while on is reported as open load. -/
def execKdrvOpen (d : Fin 4) (ma : BitVec 12) (s : State) : Out := .next (s.kdrvOpenEv d ma)

/-- FAB_CMP (08 R223). A primary and shadow mismatch on two edges sends the part to Safe. -/
def execFabCmp (elem : BitVec 10) (s : State) : Out :=
  .next (s.when (s.fabOn && decide (8 ≤ elem.toNat ∧ elem.toNat < 512)) (s.fabCmpEv elem.toNat))

/-- READBACK (08 R224). An output readback mismatch for 10 ticks sends the part to Safe. -/
def execReadback (out : Fin 36) (s : State) : Out :=
  .next (match s.rbIndex out with
    | none => s
    | some i => s.readbackEv i)

/-- SETTINGS_CRC_CHECK (08 R225). Every 1 ms each settings group CRC is compared with its baseline. -/
def execSettingsCrcCheck (upset : Option (Bool × Fin 4 × Fin 160 × Word)) (s : State) : Out := .next (s.setCrcCheck upset)

/-- FAB_GRP_REQ (08 R227). A privileged FAB_GRP_REQ write places a group switch request for the next commit. -/
def execFabGrpReq (v : Word) (s : State) : Out := .next (s.regCmd (s.grpReqWrite v))

/-- FAB_SET_DATA_WRITE (08 R228). A settings word write takes effect only in Service for an inactive group. -/
def execFabSetDataWrite (v : Word) (s : State) : Out := .next (s.regCmd (s.setDataWrite v))

end Sys2Proof.Machine
end

