-- ==== Sys2Proof/Machine/Registers.lean ====
section
/-! DEFINITION. Meanings: Register accesses that have a row of their own (00). -/

namespace Sys2Proof.Machine

/-- REGISTER_WRITE (00 R13). A write to a register with no row of its own sets its fields by their access codes, with the access
checks of R20. -/
def execRegisterWrite (m : Master) (w : Width) (addr v : Word) (s : State) : Out := .next (s.busWrite m w addr v)

/-- RC_FIELD_READ (00 R13). A privileged read of a register with RC fields returns their values and then clears them. -/
def execRcFieldRead (m : Master) (w : Width) (addr : Word) (s : State) : Out := .next (s.busRead m w addr)

/-- PAIR_LOW_READ (00 R16). A read of the low word of a 64-bit pair latches the high word for the reading master. -/
def execPairLowRead (m : Master) (w : Width) (addr : Word) (s : State) : Out := .next (s.busRead m w addr)

/-- PAIR_LOW_WRITE (00 R17). A write of the low word of a writable 64-bit pair only stages it. -/
def execPairLowWrite (m : Master) (w : Width) (addr v : Word) (s : State) : Out := .next (s.busWrite m w addr v)

/-- PAIR_HIGH_WRITE (00 R18). A write of the high word of a writable 64-bit pair applies it with the staged low word. -/
def execPairHighWrite (m : Master) (w : Width) (addr v : Word) (s : State) : Out := .next (s.busWrite m w addr v)

end Sys2Proof.Machine
end

