-- ==== Sys2Proof/Machine/SafetyCmds.lean ====
section
/-! DEFINITION. Meanings: The safety monitor (20). -/

namespace Sys2Proof.Machine

/-- SAF_ALARM (20 R559). A safety alarm reaching the monitor takes its reaction. -/
def execSafAlarm (s : State) : Out := .next (s.safAlarm)

/-- DEG_LIMIT (20 R560). The degraded-operation timer expires and sends the part to Safe. -/
def execDegLimit (s : State) : Out := .next (s.degLimit)

/-- SCRUB_UE (20 R561). The scrubber meets an uncorrectable error and reports it. -/
def execScrubUe (mem : Fin 6) (addr : Word) (s : State) : Out := .next (s.scrubUe mem addr)

/-- WDT_KICK (20 R563). A SAF_WDT_KICK write is accepted or is a violation. -/
def execWdtKick (v : Word) (s : State) : Out := .next (s.regCmd (s.wdtKick v))

/-- WDT_LATE (20 R564). E passing OPEN with no kick is a late violation. -/
def execWdtLate (s : State) : Out := .next (s.wdtLate)

/-- SAF_WDT_CFG_WRITE (20 R566). A SAF_WDT_CFG write sets the window until the first kick locks it. -/
def execSafWdtCfgWrite (v : Word) (s : State) : Out := .next (s.regCmd (s.wdtCfgWrite v))

/-- SAF_DEG_CFG_WRITE (20 R560). A SAF_DEG_CFG write in Service sets the degraded limit. -/
def execSafDegCfgWrite (v : Word) (s : State) : Out := .next (s.regCmd (s.degCfgWrite v))

/-- INJECT_FAB_CMP (20 R567). SAF_INJ TARGET 1 forces a shadow element mismatch. -/
def execInjectFabCmp (key : Half) (s : State) : Out := .next (s.regCmd (s.inject key 1))

/-- INJECT_READBACK (20 R567). SAF_INJ TARGET 2 inverts TRPB0 readback. -/
def execInjectReadback (key : Half) (s : State) : Out := .next (s.regCmd (s.inject key 2))

/-- INJECT_WDT_KEY (20 R567). SAF_INJ TARGET 3 kicks the watchdog with a wrong key. -/
def execInjectWdtKey (key : Half) (s : State) : Out := .next (s.regCmd (s.inject key 3))

/-- INJECT_REF_OFFSET (20 R567). SAF_INJ TARGET 4 offsets SAR slot 13 by 2 %. -/
def execInjectRefOffset (key : Half) (s : State) : Out := .next (s.regCmd (s.inject key 4))

/-- INJECT_MON_CHANNEL (20 R567). SAF_INJ TARGET 5 forces a monitor channel to disagree. -/
def execInjectMonChannel (key : Half) (s : State) : Out := .next (s.regCmd (s.inject key 5))

/-- INJECT_CLOCK (20 R567). SAF_INJ TARGET 6 forces the CORE clock monitor out of limits. -/
def execInjectClock (key : Half) (s : State) : Out := .next (s.regCmd (s.inject key 6))

/-- MON_MISMATCH (20 R572). Monitor channels disagreeing for 10 µs raise alarm MON. -/
def execMonMismatch (a b : Word) (s : State) : Out := .next (s.monMismatch a b)

end Sys2Proof.Machine
end

