-- ==== Sys2Proof/Machine/ScanCycle.lean ====
section
/-! DEFINITION. Meanings: Scan entry, commit, overrun, discard (09, 12, 13). -/

namespace Sys2Proof.Machine

/-- SCAN_ENTRY (13 R364). At the scan boundary the scan entry stacks the context and writes the input image. -/
def execScanEntry (pushUe : BitVec 2) (s : State) : Out := .next (s.scanEntry pushUe)

/-- COMMIT_APPLY (09 R240). At the apply tick the fabric takes REQ, group switch and settings writes and the harvest flips. -/
def execCommitApply (s : State) : Out := .next (s.commitApply)

/-- COMMIT_COMPLETE (09 R242). 300 cycles after COMMIT the deferred stores are released and the context resumes. -/
def execCommitComplete (s : State) : Out := .next (s.commitComplete)

/-- OVERRUN (09 R253). No COMMIT by the deadline abandons the scan. -/
def execOverrun (s : State) : Out := .next (s.overrun)

/-- DISCARD (09 R255). A lockstep, ECC, lane or stacking fault in scan context discards the scan. -/
def execDiscard (cause : Fin 4) (s : State) : Out := .next (s.discard (cause.val + 1))

/-- REEXECUTION (09 R256). 64 cycles after a discard the scan restarts at SCAN_ENTRY. -/
def execReexecution (s : State) : Out := .next (s.reexecute)

/-- LOCKSTEP_MISMATCH (12 R342). A difference between the lockstep cores discards the scan or starts a warm start. -/
def execLockstepMismatch (s : State) : Out := .next (s.lockstep)

end Sys2Proof.Machine
end

