-- ==== Sys2Proof/Machine/SntEvents.lean ====
section
/-! DEFINITION. Meanings: Winter events, and writes of I/O registers by the running sentinel (16). -/

namespace Sys2Proof.Machine

/-- SENTINEL_WAKE (16 R456). A pending enabled source wakes the sleeping sentinel. -/
def execSentinelWake (s : State) : Out := .next (s.sntWake)

/-- SNT_INTERRUPT_ENTRY (16 R455). A pending enabled sentinel source is entered through its vector. -/
def execSntInterruptEntry (s : State) : Out := .next (s.sntEnter)

/-- RC_CALIBRATION (16 R449). The 4 MHz RC is measured against the crystal and its trim corrected. -/
def execRcCalibration (s : State) : Out := .next (s.rcCorrect)

/-- RTC_SECOND (16 R457). At each whole UTC second the calendar advances and sets IP13. -/
def execRtcSecond (s : State) : Out := .next (s.rtcSecond)

/-- RTC_ALARM (16 R459). UTC reaching ALARM fires the alarm. -/
def execRtcAlarm (s : State) : Out := .next (s.alarmEval)

/-- TIMEOFS_WRITE (16 R458). The sixth TIMEOFS byte write applies the new time offset. -/
def execTimeofsWrite (v : Byte) (s : State) : Out := .next (s.sntWrites 0xF015 v)

/-- LOCAL_WRITE (16 R458). A LOCAL write sets the local offset within its range. -/
def execLocalWrite (v : Byte) (s : State) : Out := .next (s.sntWrites 0xF016 v)

/-- ALARM_WRITE (16 R459). An ALARM write sets the alarm and re-evaluates it. -/
def execAlarmWrite (v : Byte) (s : State) : Out := .next (s.sntWrites 0xF025 v)

/-- WTMR_WRITE (16 R460). The fourth WTMR byte write starts or stops the wake timer. -/
def execWtmrWrite (v : Byte) (s : State) : Out := .next (s.sntWrites 0xF02B v)

/-- WAKE_TIMER (16 R460). The wake timer reaching 0 sets IP4 and may request a core-die wake. -/
def execWakeTimer (s : State) : Out := .next (s.wakeTimer)

/-- WAKE (16 R461). An enabled debounced WAKE edge counts and wakes the sentinel or core die. -/
def execWake (n : Fin 4) (level : Bool) (s : State) : Out := .next (s.when s.pwr.winter (s.wakeEdge n level))

/-- WAKECORE_WRITE (16 R463). A sentinel write of SCTL.WAKECORE sets a core-die wake request. -/
def execWakecoreWrite (s : State) : Out := .next (s.wakeCore)

/-- TAMPER_CHECK (16 R462). A tamper loop check drives and samples the loop. -/
def execTamperCheck (loop : Fin 2) (kind : BitVec 2) (s : State) : Out := .next (s.when s.pwr.winter (s.tamper loop kind))

/-- SPWDATA_WRITE (16 R464). A SPWDATA write starts an 8-bit SPIW exchange. -/
def execSpwdataWrite (v : Byte) (s : State) : Out := .next (s.sntWrites 0xF062 v)

/-- SPIW_EXCHANGE_DONE (16 R464). The SPIW exchange ends and sets IP9. -/
def execSpiwExchangeDone (rx : Byte) (s : State) : Out := .next (s.spwDone rx)

/-- WINTER_GPIO_EDGE (16 R465). An enabled Winter GPIO edge sets IP11. -/
def execWinterGpioEdge (i : Fin 4) (level : Bool) (s : State) : Out := .next (s.when s.pwr.winter (s.winterPin i level))

/-- SNT_UART_RX (16 R466). A sentinel UART receives a byte into its FIFO. -/
def execSntUartRx (u : Fin 2) (v : Byte) (ferr perr : Bool) (s : State) : Out := .next (s.suRx u v ferr perr)

/-- SNT_UART_TX (16 R466). A sentinel UART finishes sending a byte. -/
def execSntUartTx (u : Fin 2) (s : State) : Out := .next (s.suTx u)

/-- SNT_UART_REQ_WRITE (16 R467). The core die requests or releases UART2 or UART3. -/
def execSntUartReqWrite (v : Word) (s : State) : Out :=
  .next (s.regCmd (((s.setReg R.sntUartReq (v &&& 3)).suChange 0).suChange 1))

/-- UART_OWNER (16 R467). UART ownership changes hands once the line is idle. -/
def execUartOwner (u : Fin 2) (s : State) : Out := .next (s.suHandover u)

/-- C2S_GO (16 R468). SNT_C2S_CTL.GO delivers the core-to-sentinel mailbox. -/
def execC2sGo (s : State) : Out := .next (s.regCmd (s.c2sGo))

/-- MBSTAT_ACK (16 R468). The sentinel acknowledges the inbound mailbox. -/
def execMbstatAck (s : State) : Out := .next (s.sntWrites 0xF120 2)

/-- OUTGO_MAILBOX (16 R469). OUTGO 1 copies the outgoing words to SNT_S2C. -/
def execOutgoMailbox (s : State) : Out := .next (s.sntWrites 0xF152 1)

/-- OUTGO_RING_PUSH (16 R469). OUTGO 2 pushes the outgoing words as one ring item. -/
def execOutgoRingPush (s : State) : Out := .next (s.sntWrites 0xF152 2)

/-- S2C_ACK (16 R469). SNT_S2C_ACK clears BUSY and signals DONE to the sentinel. -/
def execS2cAck (s : State) : Out := .next (s.regCmd (s.s2cAck))

/-- SEAL (16 R474). SOP = 1 seals the payload under the next outgoing counter. -/
def execSeal (s : State) : Out := .next (s.sntWrites 0xF200 1)

/-- OPEN (16 R475). SOP = 2 checks and opens an incoming command. -/
def execOpenReq (s : State) : Out := .next (s.sntWrites 0xF200 2)

/-- SEAL_OPERATION_DONE (16 R477). The seal operation ends and sets IP10. -/
def execSealOperationDone (s : State) : Out := .next (s.sealDone)

/-- SEAL_UNLOCK (16 R475). The 100 ms seal lock ends. -/
def execSealUnlock (s : State) : Out := .next { s with wnt := { s.wnt with sealLock := false } }

/-- AUTH_EXPIRY (16 R476). AUTH clears 1 s after it was set. -/
def execAuthExpiry (s : State) : Out := .next { s with wnt := { s.wnt with auth := false } }

/-- SENTINEL_BOOT (16 R479). After a sentinel reset the boot ROM checks code RAM and starts or halts. -/
def execSentinelBoot (s : State) : Out := .next (s.sntBoot)

/-- SWS_ENTRY_WRITE (16 R480). A write of 0xF171 offers a sentinel software log entry. -/
def execSwsEntryWrite (v : Byte) (s : State) : Out := .next (s.sntWrites 0xF171 v)

/-- SNT_FAULT (16 R483). A sentinel fault resets the sentinel and may halt it. -/
def execSntFault (cause : Fin 3) (s : State) : Out := .next (s.when s.sntRuns (s.sntFault (cause.val + 1)))

/-- SWDT_EXPIRY (16 R483). The sentinel watchdog expires and raises a sentinel fault. -/
def execSwdtExpiry (s : State) : Out := .next (s.when (s.iob 0xF006 != 0) (s.sntFault 4))

/-- WINTER_POWER_ON (16 R485). The Winter supply rising through 2.2 V powers on the Winter domain (M1). -/
def execWinterPowerOn (s : State) : Out := .next (s.when (!s.pwr.winter) s.winterOn)

/-- WINTER_POWER_LOSS (05 R136). The Winter supply below 2.0 V loses every Winter retained value. -/
def execWinterPowerLoss (s : State) : Out := .next (s.winterOff)

/-- FIRST_XRTC_EDGE (24 R650). The first XRTC edge after Winter power-on starts RTCT counting. -/
def execFirstXrtcEdge (s : State) : Out := .next (s.when s.pwr.winter s.firstXrtc)

end Sys2Proof.Machine
end

