-- ==== Sys2Proof/Machine/SntInstr.lean ====
section
/-! DEFINITION. Meanings: Sentinel instructions (16 Table SNT-2). -/

namespace Sys2Proof.Machine

/-- SNT_NOP (16 R453). Sentinel no operation. -/
def execSntNop (s : State) : Out := .next (s.snt 1 true (fun s n => .go s n))

/-- SNT_MOV (16 R453). Sentinel register move. -/
def execSntMov (o : Byte) (s : State) : Out := .next (s.snt 2 (okRR o) (fun s n => .go (s.putB (opR1 o) (s.sb (opR o))) n))

/-- SNT_MOVI (16 R453). Sentinel move immediate byte. -/
def execSntMovi (o : Byte) (i : Byte) (s : State) : Out := .next (s.snt 3 (okR o) (fun s n => .go (s.putB (opR o) i) n))

/-- SNT_MOVW (16 R453). Sentinel move immediate to pointer pair. -/
def execSntMovw (o : Byte) (w : Half) (s : State) : Out := .next (s.snt 4 (okQ o) (fun s n => .go (s.putQ (opQ o) w) n))

/-- SNT_MOVQ (16 R453). Sentinel pointer pair move. -/
def execSntMovq (o : Byte) (s : State) : Out := .next (s.snt 2 (okQQ o) (fun s n => .go (s.putQ (opQ1 o) (s.sq (opQ o))) n))

/-- SNT_LD (16 R450). Sentinel load byte via pointer. -/
def execSntLd (o : Byte) (s : State) : Out :=
  .next (s.snt 2 (okRQ o) (fun s n => s.loadB (s.sq (opQ o)).toNat (opR1 o) (fun t => .go t n)))

/-- SNT_LD_INC (16 R450). Sentinel load byte with post-increment. -/
def execSntLdInc (o : Byte) (s : State) : Out :=
  .next (s.snt 2 (okRQ o) (fun s n => s.loadB (s.sq (opQ o)).toNat (opR1 o) (fun t => .go (t.putQ (opQ o) (t.sq (opQ o) + 1)) n)))

/-- SNT_LD_DISP (16 R450). Sentinel load byte with displacement. -/
def execSntLdDisp (o : Byte) (i : Byte) (s : State) : Out :=
  .next (s.snt 3 (okRQ o) (fun s n => s.loadB (s.sq (opQ o) + i.setWidth 16).toNat (opR1 o) (fun t => .go t n)))

/-- SNT_LDA (16 R450). Sentinel load byte absolute. -/
def execSntLda (o : Byte) (w : Half) (s : State) : Out :=
  .next (s.snt 4 (okR o) (fun s n => s.loadB w.toNat (opR o) (fun t => .go t n)))

/-- SNT_ST (16 R450). Sentinel store byte via pointer. -/
def execSntSt (o : Byte) (s : State) : Out :=
  .next (s.snt 2 (okQR o) (fun s n => s.storeB (s.sq (opQ1 o)).toNat (s.sb (opR o)) (fun t => .go t n)))

/-- SNT_ST_INC (16 R450). Sentinel store byte with post-increment. -/
def execSntStInc (o : Byte) (s : State) : Out :=
  .next (s.snt 2 (okQR o) (fun s n => s.storeB (s.sq (opQ1 o)).toNat (s.sb (opR o)) (fun t => .go (t.putQ (opQ1 o) (t.sq (opQ1 o) + 1)) n)))

/-- SNT_ST_DISP (16 R450). Sentinel store byte with displacement. -/
def execSntStDisp (o : Byte) (i : Byte) (s : State) : Out :=
  .next (s.snt 3 (okQR o) (fun s n => s.storeB (s.sq (opQ1 o) + i.setWidth 16).toNat (s.sb (opR o)) (fun t => .go t n)))

/-- SNT_STA (16 R450). Sentinel store byte absolute. -/
def execSntSta (o : Byte) (w : Half) (s : State) : Out :=
  .next (s.snt 4 (okR o) (fun s n => s.storeB w.toNat (s.sb (opR o)) (fun t => .go t n)))

/-- SNT_LDW (16 R452). Sentinel 16-bit load. -/
def execSntLdw (o : Byte) (s : State) : Out := .next (s.snt 2 (okQQ o) (fun s n => s.loadH (s.sq (opQ o)) (opQ1 o) n))

/-- SNT_STW (16 R452). Sentinel 16-bit store. -/
def execSntStw (o : Byte) (s : State) : Out := .next (s.snt 2 (okQQ o) (fun s n => s.storeH (s.sq (opQ1 o)) (s.sq (opQ o)) n))

/-- SNT_XCH (16 R453). Sentinel register exchange. -/
def execSntXch (o : Byte) (s : State) : Out :=
  .next (s.snt 2 (okRR o) (fun s n => .go ((s.putB (opR1 o) (s.sb (opR o))).putB (opR o) (s.sb (opR1 o))) n))

/-- SNT_PUSH (16 R453). Sentinel push byte. -/
def execSntPush (o : Byte) (s : State) : Out := .next (s.snt 2 (okR o) (fun s n => s.pushB (s.sb (opR o)) n))

/-- SNT_POP (16 R453). Sentinel pop byte. -/
def execSntPop (o : Byte) (s : State) : Out := .next (s.snt 2 (okR o) (fun s n => s.popB (fun v t => .go (t.putB (opR o) v) n)))

/-- SNT_PUSHQ (16 R453). Sentinel push pointer pair. -/
def execSntPushq (o : Byte) (s : State) : Out := .next (s.snt 2 (okQ o) (fun s n => (s.pushH (s.sq (opQ o))).to n))

/-- SNT_POPQ (16 R453). Sentinel pop pointer pair. -/
def execSntPopq (o : Byte) (s : State) : Out :=
  .next (s.snt 2 (okQ o) (fun s n => s.popH (fun v t => .go (t.putQ (opQ o) v) n)))

/-- SNT_PUSHF (16 R453). Sentinel push flags. -/
def execSntPushf (s : State) : Out := .next (s.snt 1 true (fun s n => s.pushB (s.wnt.flags.setWidth 8) n))

/-- SNT_POPF (16 R454). Sentinel pop flags. -/
def execSntPopf (s : State) : Out := .next (s.snt 1 true (fun s n => s.popB (fun v t => .go (t.putF (v.setWidth 5)) n)))

/-- SNT_GETSP (16 R453). Sentinel copy SP to a pair. -/
def execSntGetsp (o : Byte) (s : State) : Out := .next (s.snt 2 (okQ o) (fun s n => .go (s.putQ (opQ o) s.wnt.sp) n))

/-- SNT_SETSP (16 R453). Sentinel set SP from a pair. -/
def execSntSetsp (o : Byte) (s : State) : Out :=
  .next (s.snt 2 (okQ o) (fun s n => .go { s with wnt := { s.wnt with sp := s.sq (opQ o) } } n))

/-- SNT_ADD (16 R454). Sentinel add. -/
def execSntAdd (o : Byte) (s : State) : Out := .next (s.sntAluR .add o)

/-- SNT_ADC (16 R454). Sentinel add with carry. -/
def execSntAdc (o : Byte) (s : State) : Out := .next (s.sntAluR .adc o)

/-- SNT_SUB (16 R454). Sentinel subtract. -/
def execSntSub (o : Byte) (s : State) : Out := .next (s.sntAluR .sub o)

/-- SNT_SBC (16 R454). Sentinel subtract with borrow. -/
def execSntSbc (o : Byte) (s : State) : Out := .next (s.sntAluR .sbc o)

/-- SNT_AND (16 R454). Sentinel AND. -/
def execSntAnd (o : Byte) (s : State) : Out := .next (s.sntAluR .and o)

/-- SNT_OR (16 R454). Sentinel OR. -/
def execSntOr (o : Byte) (s : State) : Out := .next (s.sntAluR .or o)

/-- SNT_XOR (16 R454). Sentinel XOR. -/
def execSntXor (o : Byte) (s : State) : Out := .next (s.sntAluR .xor o)

/-- SNT_CMP (16 R454). Sentinel compare. -/
def execSntCmp (o : Byte) (s : State) : Out := .next (s.sntAluR .cmp o)

/-- SNT_ADD_IMM (16 R454). Sentinel add immediate. -/
def execSntAddImm (o : Byte) (i : Byte) (s : State) : Out := .next (s.sntAluI .add o i)

/-- SNT_ADC_IMM (16 R454). Sentinel add with carry immediate. -/
def execSntAdcImm (o : Byte) (i : Byte) (s : State) : Out := .next (s.sntAluI .adc o i)

/-- SNT_SUB_IMM (16 R454). Sentinel subtract immediate. -/
def execSntSubImm (o : Byte) (i : Byte) (s : State) : Out := .next (s.sntAluI .sub o i)

/-- SNT_SBC_IMM (16 R454). Sentinel subtract with borrow immediate. -/
def execSntSbcImm (o : Byte) (i : Byte) (s : State) : Out := .next (s.sntAluI .sbc o i)

/-- SNT_AND_IMM (16 R454). Sentinel AND immediate. -/
def execSntAndImm (o : Byte) (i : Byte) (s : State) : Out := .next (s.sntAluI .and o i)

/-- SNT_OR_IMM (16 R454). Sentinel OR immediate. -/
def execSntOrImm (o : Byte) (i : Byte) (s : State) : Out := .next (s.sntAluI .or o i)

/-- SNT_XOR_IMM (16 R454). Sentinel XOR immediate. -/
def execSntXorImm (o : Byte) (i : Byte) (s : State) : Out := .next (s.sntAluI .xor o i)

/-- SNT_CMP_IMM (16 R454). Sentinel compare immediate. -/
def execSntCmpImm (o : Byte) (i : Byte) (s : State) : Out := .next (s.sntAluI .cmp o i)

/-- SNT_INC (16 R454). Sentinel increment. -/
def execSntInc (o : Byte) (s : State) : Out := .next (s.sntUnR .inc o)

/-- SNT_DEC (16 R454). Sentinel decrement. -/
def execSntDec (o : Byte) (s : State) : Out := .next (s.sntUnR .dec o)

/-- SNT_NEG (16 R454). Sentinel negate. -/
def execSntNeg (o : Byte) (s : State) : Out := .next (s.sntUnR .neg o)

/-- SNT_NOT (16 R454). Sentinel complement. -/
def execSntNot (o : Byte) (s : State) : Out := .next (s.sntUnR .not o)

/-- SNT_SHL (16 R454). Sentinel shift left. -/
def execSntShl (o : Byte) (s : State) : Out := .next (s.sntUnR .shl o)

/-- SNT_SHR (16 R454). Sentinel logical shift right. -/
def execSntShr (o : Byte) (s : State) : Out := .next (s.sntUnR .shr o)

/-- SNT_SAR (16 R454). Sentinel arithmetic shift right. -/
def execSntSar (o : Byte) (s : State) : Out := .next (s.sntUnR .sar o)

/-- SNT_RLC (16 R454). Sentinel rotate left through carry. -/
def execSntRlc (o : Byte) (s : State) : Out := .next (s.sntUnR .rlc o)

/-- SNT_RRC (16 R454). Sentinel rotate right through carry. -/
def execSntRrc (o : Byte) (s : State) : Out := .next (s.sntUnR .rrc o)

/-- SNT_SWAP (16 R454). Sentinel nibble swap. -/
def execSntSwap (o : Byte) (s : State) : Out := .next (s.sntUnR .swap o)

/-- SNT_ADDW (16 R454). Sentinel 16-bit add. -/
def execSntAddw (o : Byte) (s : State) : Out :=
  .next (s.snt 2 (okQQ o) (fun s n => .go (s.sntPair (opQ1 o) (addC (s.sq (opQ1 o)) (s.sq (opQ o)) false) true) n))

/-- SNT_SUBW (16 R454). Sentinel 16-bit subtract. -/
def execSntSubw (o : Byte) (s : State) : Out :=
  .next (s.snt 2 (okQQ o) (fun s n => .go (s.sntPair (opQ1 o) (subC (s.sq (opQ1 o)) (s.sq (opQ o)) false) true) n))

/-- SNT_CMPW (16 R454). Sentinel 16-bit compare. -/
def execSntCmpw (o : Byte) (s : State) : Out :=
  .next (s.snt 2 (okQQ o) (fun s n => .go (s.sntPair (opQ1 o) (subC (s.sq (opQ1 o)) (s.sq (opQ o)) false) false) n))

/-- SNT_INCW (16 R454). Sentinel 16-bit increment. -/
def execSntIncw (o : Byte) (s : State) : Out := .next (s.snt 2 (okQ o) (fun s n => .go (s.sntStep (opQ o) 1 0x7FFF) n))

/-- SNT_DECW (16 R454). Sentinel 16-bit decrement. -/
def execSntDecw (o : Byte) (s : State) : Out := .next (s.snt 2 (okQ o) (fun s n => .go (s.sntStep (opQ o) 0xFFFF 0x8000) n))

/-- SNT_ADDWI (16 R454). Sentinel 16-bit add immediate. -/
def execSntAddwi (o : Byte) (w : Half) (s : State) : Out :=
  .next (s.snt 4 (okQ o) (fun s n => .go (s.sntPair (opQ o) (addC (s.sq (opQ o)) w false) true) n))

/-- SNT_MUL (16 R453). Sentinel unsigned multiply into q0. -/
def execSntMul (o : Byte) (s : State) : Out :=
  .next (s.snt 2 (okRR o) (fun s n => .go (s.sntMulQ0 (s.sb (opR1 o)) (s.sb (opR o))) n))

/-- SNT_BSET (16 R453). Sentinel set bit. -/
def execSntBset (o : Byte) (s : State) : Out :=
  .next (s.snt 2 (okRR o) (fun s n => .go (s.putB (opR1 o) (setBit (s.sb (opR1 o)) (o.toNat % 8) true)) n))

/-- SNT_BCLR (16 R453). Sentinel clear bit. -/
def execSntBclr (o : Byte) (s : State) : Out :=
  .next (s.snt 2 (okRR o) (fun s n => .go (s.putB (opR1 o) (setBit (s.sb (opR1 o)) (o.toNat % 8) false)) n))

/-- SNT_BTST (16 R454). Sentinel test bit. -/
def execSntBtst (o : Byte) (s : State) : Out :=
  .next (s.snt 2 (okRR o) (fun s n => .go (s.putF (setBit s.wnt.flags 1 (!(s.sb (opR1 o)).getLsbD (o.toNat % 8)))) n))

/-- SNT_JMP (16 R453). Sentinel jump absolute. -/
def execSntJmp (w : Half) (s : State) : Out := .next (s.snt 3 true (fun s _ => .go s w))

/-- SNT_JMPQ (16 R453). Sentinel jump to pair. -/
def execSntJmpq (o : Byte) (s : State) : Out := .next (s.snt 2 (okQ o) (fun s _ => .go s (s.sq (opQ o))))

/-- SNT_CALL (16 R453). Sentinel call absolute. -/
def execSntCall (w : Half) (s : State) : Out := .next (s.snt 3 true (fun s n => (s.pushH n).to w))

/-- SNT_CALLQ (16 R453). Sentinel call to pair. -/
def execSntCallq (o : Byte) (s : State) : Out := .next (s.snt 2 (okQ o) (fun s n => (s.pushH n).to (s.sq (opQ o))))

/-- SNT_RET (16 R453). Sentinel return. -/
def execSntRet (s : State) : Out := .next (s.snt 1 true (fun s _ => s.popH (fun v t => .go t v)))

/-- SNT_RETI (16 R453). Sentinel return from interrupt. -/
def execSntReti (s : State) : Out :=
  .next (s.snt 1 true (fun s _ => s.popB (fun f t => (t.putF (f.setWidth 5)).popH (fun v u => .go u v))))

/-- SNT_BRA (16 R453). Sentinel branch always. -/
def execSntBra (i : Byte) (s : State) : Out := .next (s.sntBranch i (fun _ => true))

/-- SNT_BEQ (16 R453). Sentinel branch if Z. -/
def execSntBeq (i : Byte) (s : State) : Out := .next (s.sntBranch i (fun f => f.getLsbD 1))

/-- SNT_BNE (16 R453). Sentinel branch if not Z. -/
def execSntBne (i : Byte) (s : State) : Out := .next (s.sntBranch i (fun f => !f.getLsbD 1))

/-- SNT_BCS (16 R453). Sentinel branch if C. -/
def execSntBcs (i : Byte) (s : State) : Out := .next (s.sntBranch i (fun f => f.getLsbD 0))

/-- SNT_BCC (16 R453). Sentinel branch if not C. -/
def execSntBcc (i : Byte) (s : State) : Out := .next (s.sntBranch i (fun f => !f.getLsbD 0))

/-- SNT_BMI (16 R453). Sentinel branch if N. -/
def execSntBmi (i : Byte) (s : State) : Out := .next (s.sntBranch i (fun f => f.getLsbD 2))

/-- SNT_BPL (16 R453). Sentinel branch if not N. -/
def execSntBpl (i : Byte) (s : State) : Out := .next (s.sntBranch i (fun f => !f.getLsbD 2))

/-- SNT_BVS (16 R453). Sentinel branch if V. -/
def execSntBvs (i : Byte) (s : State) : Out := .next (s.sntBranch i (fun f => f.getLsbD 3))

/-- SNT_BVC (16 R453). Sentinel branch if not V. -/
def execSntBvc (i : Byte) (s : State) : Out := .next (s.sntBranch i (fun f => !f.getLsbD 3))

/-- SNT_DJNZ (16 R453). Sentinel decrement and branch if not zero. -/
def execSntDjnz (o : Byte) (i : Byte) (s : State) : Out :=
  .next (s.snt 3 (okR o) (fun s n => .go (s.putB (opR o) (s.sb (opR o) - 1)) (if s.sb (opR o) = 1 then n else n + i.signExtend 16)))

/-- SNT_EI (16 R453). Sentinel enable interrupts. -/
def execSntEi (s : State) : Out := .next (s.snt 1 true (fun s n => .go (s.putF (s.wnt.flags ||| 0x10)) n))

/-- SNT_DI (16 R453). Sentinel disable interrupts. -/
def execSntDi (s : State) : Out := .next (s.snt 1 true (fun s n => .go (s.putF (s.wnt.flags &&& 0x0F)) n))

/-- SNT_SLEEP (16 R456). Sentinel sleeps unless a wake event is pending (M3). -/
def execSntSleep (s : State) : Out := .next (s.snt 1 true (fun s n => .go s.sleepNow n))

/-- SNT_WFI (16 R453). Sentinel waits awake for an enabled source. -/
def execSntWfi (s : State) : Out := .next (s.snt 1 true (fun s n => .go { s with wnt := { s.wnt with wfi := true } } n))

/-- SNT_TRAP (16 R453). Sentinel enters vector 14. -/
def execSntTrap (s : State) : Out := .next (s.snt 1 true (fun s n => s.sntVector n 14))

end Sys2Proof.Machine
end

