-- ==== Sys2Proof/Machine/Staging.lean ====
section
/-! DEFINITION. Meanings: Image staging (03). -/

namespace Sys2Proof.Machine

/-- STAGE_OPEN (03 R89). CFG_STAGE_CTL command OPEN in Service opens region 0 staging of the inactive slot. -/
def execStageOpen (m : Master) (s : State) : Out := .next (s.regCmd (s.stageCmd m 1))

/-- CHECK (03 R92). CFG_STAGE_CTL command CHECK starts the full load check of the inactive slot. -/
def execCheck (m : Master) (s : State) : Out := .next (s.regCmd (s.stageCmd m 2))

/-- CHECK_COMPLETE (03 R92). The CHECK run ends and reports its first refusal code in CFG_STAGE_STAT.RESULT. -/
def execCheckComplete (s : State) : Out := .next (s.checkDone)

/-- STAGE_CLOSE (03 R93). CFG_STAGE_CTL command CLOSE ends staging once a running mover job completes. -/
def execStageClose (m : Master) (s : State) : Out := .next (s.regCmd (s.stageCmd m 3))

end Sys2Proof.Machine
end

