-- ==== Sys2Proof/Machine/Starts.lean ====
section
/-! DEFINITION. Meanings: Mode requests, starts, Safe (04). -/

namespace Sys2Proof.Machine

/-- REQ_DORMANT (04 R103). SYS_MODE_REQ = 0 from Ready or Service starts the Dormant entry sequence (M9). -/
def execReqDormant (s : State) : Out := .next (s.regCmd (s.modeReq 0))

/-- REQ_SENTRY (04 R103). SYS_MODE_REQ = 1 from Ready or Service starts the entry sequence ending in Sentry (M9). -/
def execReqSentry (s : State) : Out := .next (s.regCmd (s.modeReq 1))

/-- REQ_READY (04 R103). SYS_MODE_REQ = 2 returns Protect or Service to Ready (M6, M8). -/
def execReqReady (s : State) : Out := .next (s.regCmd (s.modeReq 2))

/-- REQ_PROTECT (04 R104). SYS_MODE_REQ = 3 passes an M5 request to the fabric for guard sampling. -/
def execReqProtect (s : State) : Out := .next (s.regCmd (s.modeReq 3))

/-- REQ_SERVICE (04 R103). SYS_MODE_REQ = 4 enters Service from Ready when authentication is valid (M7). -/
def execReqService (s : State) : Out := .next (s.regCmd (s.modeReq 4))

/-- REQ_SAFE (04 R103). SYS_MODE_REQ = 5 enters Safe with cause SW_REQ (M15). -/
def execReqSafe (s : State) : Out := .next (s.regCmd (s.modeReq 5))

/-- REQ_NO_TRANSITION (04 R107). A SYS_MODE_REQ write of 6 or 7 has no effect and sets RESULT 3. -/
def execReqNoTransition (req : BitVec 1) (s : State) : Out := .next (s.regCmd (s.modeReq (6 + req.toNat)))

/-- PROTECT_GUARD_SAMPLE (04 R104). At the first FABRIC tick after an M5 request the four guards are sampled and Protect starts
or is refused. -/
def execProtectGuardSample (s : State) : Out := .next (s.guardSample)

/-- DORMANT_ENTRY_SEQUENCE (04 R108). The Dormant entry steps complete the scan, drain records, flush the log, checkpoint the UMU
and power down. -/
def execDormantEntrySequence (s : State) : Out := .next (s.dormantEntry)

/-- RST_N_RESET (04 R106). RST_N low for 8,000 FIELD cycles powers down the core die; a cold start follows at its rising edge. -/
def execRstNReset (s : State) : Out := .next (s.rstN)

/-- COLD_START (04 R109). A core-die wake request, RST_N release or return of VBAT runs the thirteen cold start steps. -/
def execColdStart (e : ColdIn) (s : State) : Out := .next (s.coldStart e)

/-- START_TO (04 R130). A cold start not reaching step 13 within 500 ms sends the part to Safe. -/
def execStartTo (s : State) : Out := .next (s.startTo)

/-- SYS_RESET_REQ (04 R113). A SYS_RESET_REQ write with the correct key requests a warm start with cause 1. -/
def execSysResetReq (v : Word) (s : State) : Out := .next (s.regCmd (s.resetReq v))

/-- WARM_START (04 R115). A warm start cause resets CORE and VECTOR and runs the warm start steps. -/
def execWarmStart (cal : CalIn) (laneBad : BitVec 18) (harvBad : BitVec 3) (us : Word) (s : State) : Out :=
  .next (s.warmStart cal laneBad harvBad us)

/-- SAFE_ENTRY (04 R122). A latched Safe cause forces the safe state, halts the processors and records the cause. -/
def execSafeEntry (s : State) : Out := .next (s.safeEntry)

/-- READOUT_WINDOW_END (04 R125). The 600 s Safe readout window ends and the core die powers down. -/
def execReadoutWindowEnd (s : State) : Out := .next (s.windowEnd)

end Sys2Proof.Machine
end

