-- ==== Sys2Proof/Machine/Supply.lean ====
section
/-! DEFINITION. Meanings: Supply, backup, temperature and rail events (05). -/

namespace Sys2Proof.Machine

/-- POWER_FAIL (05 R139). VBAT below 3.3 V for 20 µs latches power-fail and runs the power-fail sequence. -/
def execPowerFail (vbakOk : Bool) (s : State) : Out := .next (s.powerFail vbakOk)

/-- VBAT_VALID (05 R137). VBAT at or above 3.8 V for 5 ms makes VBAT valid for M4. -/
def execVbatValid (s : State) : Out := .next (s.vbatGood)

/-- SURGE_BEGIN (05 R137). VBAT above 42 V for 10 µs sets SURGE and writes SURGE_BEGIN. -/
def execSurgeBegin (s : State) : Out := .next s.surgeBegin

/-- SURGE_END (05 R137). VBAT at or below 41 V for 10 µs ends the surge and writes SURGE_END. -/
def execSurgeEnd (s : State) : Out := .next s.surgeEnd

/-- CHARGER_TARGET (05 R144). VBAK reaching the charger target stops charging. -/
def execChargerTarget (s : State) : Out := .next (s.chgTarget)

/-- CHARGER_RESTART (05 R144). VBAK falling 0.1 V below the target restarts charging. -/
def execChargerRestart (s : State) : Out := .next (s.chgRestart)

/-- PWR_BAK_CTL_WRITE (05 R145). A PWR_BAK_CTL write takes effect only with KEY 0xB4C2. -/
def execPwrBakCtlWrite (v : Word) (s : State) : Out := .next (s.regCmd (s.bakCtl v))

/-- VBAK_LOW (05 R151). VBAK_OK falling with the charger enabled writes VBAK_LOW. -/
def execVbakLow (s : State) : Out := .next s.vbakFall

/-- TEMP_WARN (05 R148). Eight readings above 135 °C set the sensor warning and write TEMP_WARN. -/
def execTempWarn (sensor : Fin 3) (s : State) : Out := .next (s.tempWarn sensor)

/-- TEMP_CLEAR (05 R148). Eight readings at or below 130 °C clear the warning and write TEMP_CLEAR. -/
def execTempClear (sensor : Fin 3) (s : State) : Out := .next (s.tempClear sensor)

/-- TEMP_SHUTDOWN (05 R149). Eight readings above 150 °C send the part to Safe with cause THERMAL. -/
def execTempShutdown (sensor : Fin 3) (s : State) : Out := .next (s.tempShutdown sensor)

/-- RAIL_FAULT (05 R153). A rail outside its window for 10 µs sends the part to Safe with cause SUPPLY. -/
def execRailFault (rail : Fin 4) (mv : Half) (s : State) : Out := .next (s.railFault rail mv)

end Sys2Proof.Machine
end

