-- ==== Sys2Proof/Machine/TestPort.lean ====
section
/-! DEFINITION. Meanings: TAP, debug, locks, release for return (22). -/

namespace Sys2Proof.Machine

/-- TAP_RESET (22 R596). TRST_N low or five TMS-high edges reset the TAP. -/
def execTapReset (s : State) : Out := .next (s.tapUpdate .idcode)

/-- EXTEST (22 R601). EXTEST takes the boundary pins outside Protect. -/
def execExtest (s : State) : Out := .next (s.tapUpdate .extest)

/-- IDCODE (22 R599). IDCODE selects the identification register. -/
def execIdcode (s : State) : Out := .next (s.tapUpdate .idcode)

/-- SAMPLE_PRELOAD (22 R597). SAMPLE/PRELOAD selects the boundary register without taking the pins. -/
def execSamplePreload (cells : BitVec 123) (s : State) : Out := .next (s.tapPreload cells)

/-- CLAMP (22 R601). CLAMP holds the boundary outputs outside Protect. -/
def execClamp (s : State) : Out := .next (s.tapUpdate .clamp)

/-- HIGHZ (22 R601). HIGHZ floats the boundary outputs outside Protect. -/
def execHighz (s : State) : Out := .next (s.tapUpdate .highz)

/-- DBGACC (22 R603). DBGACC selects the debug access register. -/
def execDbgacc (s : State) : Out := .next (s.tapUpdate .dbgacc)

/-- BYPASS (22 R598). BYPASS, and every unlisted opcode, selects the bypass register. -/
def execBypass (opcode : Byte) (s : State) : Out := .next (s.tapUpdate (tapOf opcode))

/-- DBGACC_READ (22 R603). A debug word read through the privileged view. -/
def execDbgaccRead (addr : Word) (s : State) : Out := .next (s.dbgAccess false addr 0)

/-- DBGACC_WRITE (22 R603). A debug word write through the privileged view. -/
def execDbgaccWrite (addr v : Word) (s : State) : Out := .next (s.dbgAccess true addr v)

/-- LOCK_TO_LOCKED (22 R605). DBG_LOCK_CMD TARGET 1 steps the lock state to LOCKED. -/
def execLockToLocked (key : Half) (programmed : Bool) (s : State) : Out := .next (s.regCmd (s.lockStep key false programmed))

/-- LOCK_TO_SEALED (22 R605). DBG_LOCK_CMD TARGET 2 steps the lock state to SEALED. -/
def execLockToSealed (key : Half) (programmed : Bool) (s : State) : Out := .next (s.regCmd (s.lockStep key true programmed))

/-- DBG_AUTH_NEW (22 R606). DBG_AUTH_CTL.NEW loads a debug challenge. -/
def execDbgAuthNew (s : State) : Out := .next (s.regCmd (s.askDbg))

/-- DBG_AUTH_GO (22 R606). DBG_AUTH_CTL.GO starts debug unlock verification. -/
def execDbgAuthGo (s : State) : Out := .next (s.regCmd (s.dbgGo))

/-- DEBUG_UNLOCK (22 R606). Verification ends and sets UNLOCKED or writes DEBUG_AUTH_FAIL. -/
def execDebugUnlock (s : State) : Out := .next (s.dbgVerify)

/-- UNLOCK_EXPIRY (22 R606). UNLOCKED clears after DURATION seconds. -/
def execUnlockExpiry (s : State) : Out := .next (s.unlockExpiry)

/-- HALT (22 R607). DBG_CTL.HALT stops the kernel at the next non-scan boundary. -/
def execHalt (m : Master) (s : State) : Out := .next (s.regCmd (s.dbgHalt m))

/-- RESUME (22 R607). DBG_CTL.RESUME ends the debug halt. -/
def execResume (m : Master) (s : State) : Out := .next (s.regCmd (s.dbgResume m))

/-- STEP (22 R607). DBG_CTL.STEP executes one kernel bundle. -/
def execStep (m : Master) (s : State) : Out := .next (s.regCmd (s.dbgStep m))

/-- WARM (22 R608). DBG_CTL.WARM starts a warm start with cause 5. -/
def execWarm (m : Master) (s : State) : Out := .next (s.regCmd (s.dbgWarm m))

/-- RFR (22 R613). An accepted DBG_RFR flushes the log, marks RETURNED, revokes keys and enters Safe. -/
def execRfr (v : Word) (programmed : Bool) (s : State) : Out := .next (s.regCmd (s.rfrWrite v programmed))

end Sys2Proof.Machine
end

