-- ==== Sys2Proof/Machine/Threads.lean ====
section
/-! DEFINITION. Meanings: Interrupt entry, thread scheduler and rings (13, 14). -/

namespace Sys2Proof.Machine

/-- INTERRUPT_ENTRY (13 R358). An eligible interrupt source is entered at a bundle boundary. -/
def execInterruptEntry (pushUe : BitVec 2) (s : State) : Out := .next (s.irqEntry pushUe)

/-- CONTEXT_SWITCH (14 R387). At a switch point with a switch due the core exchanges context with the next slot. -/
def execContextSwitch (bad : Option (Fin 168)) (s : State) : Out :=
  .next (s.ctxChecked (if s.switchDue then s.sch.sel else none) bad s.contextSwitch)

/-- NEXT_SLOT_LOADED (14 R389). The next slot load of 84 cycles completes. -/
def execNextSlotLoaded (bad : Option (Fin 168)) (s : State) : Out :=
  .next (s.ctxChecked (if s.sch.en && s.sch.wb.isNone then s.sch.sel else none) bad s.nextLoaded)

/-- CONTEXT_WRITE_BACK (14 R389). The outgoing context write-back of 84 cycles completes. -/
def execContextWriteBack (bad : Option (Fin 168)) (s : State) : Out := .next (s.ctxChecked s.sch.wb bad s.writeBack)

/-- SCH_CTL_WRITE (14 R392). SCH_CTL.EN = 1 starts scheduling. -/
def execSchCtlWrite (v : Word) (s : State) : Out := .next (s.regCmd (s.schCtlWrite v))

/-- SCH_CTX_BASE_WRITE (14 R413). A SCH_CTX_BASE write is accepted only when valid and EN is 0. -/
def execSchCtxBaseWrite (v : Word) (s : State) : Out := .next (s.regCmd (s.schBaseWrite v))

/-- SCH_WAIT (14 R393). A SCH_WAIT write waits on the flag mask or runs on when met. -/
def execSchWait (v : Word) (s : State) : Out := .next (s.regCmd (s.schWait v (s.core.scan || s.core.efp != 0)))

/-- SCH_YIELD (14 R397). A SCH_YIELD write requests a switch to an equal or higher slot. -/
def execSchYield (v : Word) (s : State) : Out := .next (s.regCmd (s.schYield v (s.core.scan || s.core.efp != 0)))

/-- WAIT_TIMEOUT (14 R396). A wait not met by its timeout tick makes the slot READY with TIMEOUT. -/
def execWaitTimeout (t : Fin 64) (s : State) : Out := .next (s.waitTimeout t)

/-- SCH_FLAGS_WRITE (14 R398). A SCH_FLAGS write sets slot flags and may meet a wait. -/
def execSchFlagsWrite (t : Fin 64) (v : Word) (s : State) : Out := .next (s.regCmd (s.setFlags t v))

/-- SCH_SLOT_WRITE (14 R386). A SCH_SLOT write creates, ends or frees a thread and may set PRIO. -/
def execSchSlotWrite (t : Fin 64) (v : Word) (s : State) : Out := .next (s.regCmd (s.schSlotWrite t v))

/-- RING_PUSH_HDR (14 R401). A header write opens an item of LEN words or is refused. -/
def execRingPushHdr (r : Fin 64) (port : Fin 5) (v : Word) (s : State) : Out := .next (s.regCmd (s.ringHdr r port v))

/-- RING_PUSH_DATA (14 R401). A data word fills the port's open item, which exists after its last word. -/
def execRingPushData (r : Fin 64) (port : Fin 5) (v : Word) (bad : Bool) (s : State) : Out :=
  .next (s.regCmd (if bad && (s.ringCfg r).role != 0 then s.ctxEccFree else s.ringData r port v))

/-- RING_POP (14 R404). A RING_POP read removes the oldest item and latches its words. -/
def execRingPop (r : Fin 64) (s : State) : Out :=
  .next (if s.regsOn then (s.ringPop r).2.answer .ok (s.ringPop r).1 else s.answer .busError 0)

/-- RING_FLUSH (14 R409). RING_CTL.FLUSH discards every item and open item of the ring. -/
def execRingFlush (r : Fin 64) (v : Word) (s : State) : Out := .next (s.regCmd (s.ringCtlWrite r v))

end Sys2Proof.Machine
end

