-- ==== Sys2Proof/Machine/UsageCmds.lean ====
section
/-! DEFINITION. Meanings: Hour meters, UMU, hire, theft (17). -/

namespace Sys2Proof.Machine

/-- HOUR_METER_SECOND (17 R488). An hour meter tick count reaching 32,768 adds one second. -/
def execHourMeterSecond (m : Fin 4) (s : State) : Out := .next (s.meterSecond m)

/-- HM_CFG (17 R490). A meter gate configuration write is accepted in Service or with AUTH. -/
def execHmCfg (core : Bool) (m : Fin 4) (sel : BitVec 3) (pin : BitVec 2) (inv : Bool) (sig : BitVec 10) (s : State) : Out :=
  .next (if core then s.regCmd (s.hmCfg m true sel pin inv sig) else s.when s.sntRuns (s.hmCfg m false sel pin inv sig))

/-- HMT_PRESET_GO (17 R490). A keyed preset request is queued for the meter's next RTC tick. -/
def execHmtPresetGo (v : Word) (s : State) : Out := .next (s.regCmd (s.presetGo v))

/-- HM_PRESET (17 R490). At the next RTC tick the preset raises the meter if larger. -/
def execHmPreset (s : State) : Out := .next (s.presetApply)

/-- UMU_COMMIT_INPUT (17 R491). The UMU processes a commit's power into accumulators after the sorter hold. -/
def execUmuCommitInput (s : State) : Out := .next (s.umuCommitInput)

/-- UMU_BOUNDARY (17 R496). The UMU processes a minute boundary with interval close and tariff switch. -/
def execUmuBoundary (s : State) : Out := .next (s.umuBoundary)

/-- UMU_BILL (17 R494). A keyed UMU_BILL_CTL close copies maximum demand and starts a billing period. -/
def execUmuBill (v : Word) (s : State) : Out := .next (s.regCmd (s.umuBillWrite v))

/-- UMU_SCHED_DATA_WRITE (17 R495). A staged schedule word write is accepted only in Service. -/
def execUmuSchedDataWrite (v : Word) (s : State) : Out := .next (s.regCmd (s.schedDataWrite v))

/-- UMU_SCHED_APPLY (17 R495). APPLY makes the staged schedule active at the next boundary or is refused. -/
def execUmuSchedApply (v : Word) (s : State) : Out := .next (s.regCmd (s.schedCtlWrite v))

/-- UMU_SCHED_REVERT (17 R495). REVERT copies the active schedule into the staged copy. -/
def execUmuSchedRevert (v : Word) (s : State) : Out := .next (s.regCmd (s.schedCtlWrite v))

/-- HIRE (17 R499). The hire permit changes when UTC crosses the window or its controls change. -/
def execHire (s : State) : Out := .next (s.when s.pwr.winter s.hireEval)

/-- HIRE_CTL_WRITE (17 R503). A HIRE_CTL write sets EN, HOLD or applies the staged window subject to AUTH. -/
def execHireCtlWrite (v : Byte) (s : State) : Out := .next (s.sntWrites 0xF43C v)

/-- HMT_WITHDRAW (17 R500). A keyed core-die write sets HOLD and withdraws the permit. -/
def execHmtWithdraw (v : Word) (s : State) : Out := .next (s.regCmd (s.withdraw v))

/-- USAGE_REGISTER_WRITE (17 R503). A sentinel usage register write acts at once in the free direction or needs AUTH. -/
def execUsageRegisterWrite (a : Half) (v : Byte) (s : State) : Out := .next (s.sntWrites a.toNat v)

/-- THEFT_SET (17 R504). A THEFT_SET write raises the geofence or firmware theft input. -/
def execTheftSet (v : Byte) (s : State) : Out := .next (s.sntWrites 0xF451 v)

/-- THEFT_CLEAR (17 R506). A W1C of THEFT_STAT with AUTH clears latched theft bits. -/
def execTheftClear (v : Byte) (s : State) : Out := .next (s.sntWrites 0xF450 v)

/-- VBAT_CUT (17 R505). VBAT falling below 3.3 V stamps a VBAT cut and raises theft input 4. -/
def execVbatCut (s : State) : Out := .next (s.when s.pwr.winter s.vbatCut)

/-- VBAT_RESTORE (17 R505). VBAT at or above 3.8 V for 164 ticks clears the cut. -/
def execVbatRestore (s : State) : Out := .next (s.when s.pwr.winter s.vbatRestore)

end Sys2Proof.Machine
end

