-- ==== Sys2Proof/Machine/Vector.lean ====
section
/-! DEFINITION. Meanings: The Zinik vector engine (15). A vector operation is one link of the chain that runs. -/

namespace Sys2Proof.Machine

/-- VADD (15 R420). Zinik elementwise add. -/
def execVadd (s : State) : Out := .next (s.linkStep 1)

/-- VSUB (15 R420). Zinik elementwise subtract. -/
def execVsub (s : State) : Out := .next (s.linkStep 2)

/-- VABS (15 R420). Zinik absolute value. -/
def execVabs (s : State) : Out := .next (s.linkStep 3)

/-- VCVT (15 R421). Zinik type conversion. -/
def execVcvt (s : State) : Out := .next (s.linkStep 4)

/-- VMUL (15 R420). Zinik elementwise multiply. -/
def execVmul (s : State) : Out := .next (s.linkStep 8)

/-- VCMULJ (15 R420). Zinik complex multiply by conjugate. -/
def execVcmulj (s : State) : Out := .next (s.linkStep 9)

/-- VSQ (15 R420). Zinik square. -/
def execVsq (s : State) : Out := .next (s.linkStep 10)

/-- VDIV (15 R421). Zinik divide. -/
def execVdiv (s : State) : Out := .next (s.linkStep 16)

/-- VSQRT (15 R420). Zinik square root. -/
def execVsqrt (s : State) : Out := .next (s.linkStep 17)

/-- VMAG (15 R420). Zinik complex magnitude. -/
def execVmag (s : State) : Out := .next (s.linkStep 18)

/-- VPHASE (15 R420). Zinik complex argument. -/
def execVphase (s : State) : Out := .next (s.linkStep 19)

/-- VCIS (15 R420). Zinik cosine and sine. -/
def execVcis (s : State) : Out := .next (s.linkStep 20)

/-- VAND (15 R420). Zinik bitwise AND. -/
def execVand (s : State) : Out := .next (s.linkStep 24)

/-- VOR (15 R420). Zinik bitwise OR. -/
def execVor (s : State) : Out := .next (s.linkStep 25)

/-- VXOR (15 R420). Zinik bitwise XOR. -/
def execVxor (s : State) : Out := .next (s.linkStep 26)

/-- VMAX (15 R420). Zinik elementwise maximum. -/
def execVmax (s : State) : Out := .next (s.linkStep 27)

/-- VMIN (15 R420). Zinik elementwise minimum. -/
def execVmin (s : State) : Out := .next (s.linkStep 28)

/-- VCMPGT (15 R420). Zinik greater-than mask. -/
def execVcmpgt (s : State) : Out := .next (s.linkStep 29)

/-- VSHRA (15 R420). Zinik arithmetic right shift with rounding. -/
def execVshra (s : State) : Out := .next (s.linkStep 30)

/-- VCOPY (15 R420). Zinik copy. -/
def execVcopy (s : State) : Out := .next (s.linkStep 31)

/-- VGATHER (15 R421). Zinik indexed gather. -/
def execVgather (s : State) : Out := .next (s.linkStep 32)

/-- VSCATTER (15 R421). Zinik indexed scatter. -/
def execVscatter (s : State) : Out := .next (s.linkStep 33)

/-- VSUM (15 R421). Zinik sum reduction. -/
def execVsum (s : State) : Out := .next (s.linkStep 40)

/-- VMAXR (15 R420). Zinik maximum reduction. -/
def execVmaxr (s : State) : Out := .next (s.linkStep 41)

/-- ZVE_CHAIN_START (15 R428). A queued chain begins 8 cycles after its last link and the previous chain. -/
def execZveChainStart (s : State) : Out := .next (s.when s.mode.m9.isNone s.zvStart)

/-- ZVE_CHAIN_COMPLETE (15 R434, R445). A chain completes, writes its status word and performs its notification; ue: the byte offset of an
uncorrectable error that it read. -/
def execZveChainComplete (ue : Option (Fin 499712)) (s : State) : Out := .next (s.zvComplete ue)

/-- ZVE_ABORT_RUN (15 R437). ZVE_ABORT with RUN ends the running chain. -/
def execZveAbortRun (s : State) : Out := .next (s.zvAbortRun)

/-- ZVE_ABORT_QUEUE (15 R437). ZVE_ABORT with QUEUE flushes every queued entry. -/
def execZveAbortQueue (s : State) : Out := .next (s.zvFlushQueue)

/-- ZVE_CHAIN_ABORTED (15 R437). The aborted chain finishes its started groups and ends ABORTED. -/
def execZveChainAborted (n : Nat) (s : State) : Out := .next (s.zvAborted n)

/-- LANE_FAULT (15 R440). A residue, parity or shadow fault abandons the chain, retires lanes and replays. -/
def execLaneFault (kind : Fin 4) (lane : Fin 18) (failed : BitVec 18) (s : State) : Out :=
  let t := s.laneFaultEv (kind.val + 1) lane failed
  .next (s.when s.vecOn (if t.2 then t.1.discard 3 else t.1))

/-- SHADOW_ROTATION (15 R439). Every 1,024 cycles the shadow role moves to the next lane. -/
def execShadowRotation (s : State) : Out := .next (s.when s.vecOn s.rotate)

/-- IDLE_SELF_TEST (15 R439). After 8 ms without a chain every lane is self-tested. -/
def execIdleSelfTest (failed : BitVec 18) (s : State) : Out := .next (s.selfTest failed)

end Sys2Proof.Machine
end

