-- ==== Sys2Proof/Machine/Dispatch.lean ====
section
/-! DEFINITION. The meaning of each command: one arm per constructor, one call per arm. -/

namespace Sys2Proof.Machine

def exec (i : Instr) (s : State) : Host.Outcome State Fault Refusal :=
  match i with
  | .registerWrite m w addr v => Sys2Proof.Machine.execRegisterWrite m w addr v s
  | .rcFieldRead m w addr => Sys2Proof.Machine.execRcFieldRead m w addr s
  | .pairLowRead m w addr => Sys2Proof.Machine.execPairLowRead m w addr s
  | .pairLowWrite m w addr v => Sys2Proof.Machine.execPairLowWrite m w addr v s
  | .pairHighWrite m w addr v => Sys2Proof.Machine.execPairHighWrite m w addr v s
  | .bridgeTimeout ch => Sys2Proof.Machine.execBridgeTimeout ch s
  | .coreLost => Sys2Proof.Machine.execCoreLost s
  | .syncPairCapture => Sys2Proof.Machine.execSyncPairCapture s
  | .clockMonitorWindow island count => Sys2Proof.Machine.execClockMonitorWindow island count s
  | .dtFault island => Sys2Proof.Machine.execDtFault island s
  | .xing row => Sys2Proof.Machine.execXing row s
  | .crystalStop => Sys2Proof.Machine.execCrystalStop s
  | .stageOpen m => Sys2Proof.Machine.execStageOpen m s
  | .check m => Sys2Proof.Machine.execCheck m s
  | .checkComplete => Sys2Proof.Machine.execCheckComplete s
  | .stageClose m => Sys2Proof.Machine.execStageClose m s
  | .reqDormant => Sys2Proof.Machine.execReqDormant s
  | .reqSentry => Sys2Proof.Machine.execReqSentry s
  | .reqReady => Sys2Proof.Machine.execReqReady s
  | .reqProtect => Sys2Proof.Machine.execReqProtect s
  | .reqService => Sys2Proof.Machine.execReqService s
  | .reqSafe => Sys2Proof.Machine.execReqSafe s
  | .reqNoTransition req => Sys2Proof.Machine.execReqNoTransition req s
  | .protectGuardSample => Sys2Proof.Machine.execProtectGuardSample s
  | .dormantEntrySequence => Sys2Proof.Machine.execDormantEntrySequence s
  | .rstNReset => Sys2Proof.Machine.execRstNReset s
  | .coldStart e => Sys2Proof.Machine.execColdStart e s
  | .startTo => Sys2Proof.Machine.execStartTo s
  | .sysResetReq v => Sys2Proof.Machine.execSysResetReq v s
  | .warmStart cal laneBad harvBad us => Sys2Proof.Machine.execWarmStart cal laneBad harvBad us s
  | .safeEntry => Sys2Proof.Machine.execSafeEntry s
  | .readoutWindowEnd => Sys2Proof.Machine.execReadoutWindowEnd s
  | .powerFail vbakOk => Sys2Proof.Machine.execPowerFail vbakOk s
  | .vbatValid => Sys2Proof.Machine.execVbatValid s
  | .surgeBegin => Sys2Proof.Machine.execSurgeBegin s
  | .surgeEnd => Sys2Proof.Machine.execSurgeEnd s
  | .chargerTarget => Sys2Proof.Machine.execChargerTarget s
  | .chargerRestart => Sys2Proof.Machine.execChargerRestart s
  | .pwrBakCtlWrite v => Sys2Proof.Machine.execPwrBakCtlWrite v s
  | .vbakLow => Sys2Proof.Machine.execVbakLow s
  | .tempWarn sensor => Sys2Proof.Machine.execTempWarn sensor s
  | .tempClear sensor => Sys2Proof.Machine.execTempClear sensor s
  | .tempShutdown sensor => Sys2Proof.Machine.execTempShutdown sensor s
  | .railFault rail mv => Sys2Proof.Machine.execRailFault rail mv s
  | .afeChCtlWrite n v => Sys2Proof.Machine.execAfeChCtlWrite n v s
  | .channelSettingApply n => Sys2Proof.Machine.execChannelSettingApply n s
  | .modReset n => Sys2Proof.Machine.execModReset n s
  | .owSet n pins => Sys2Proof.Machine.execOwSet n pins s
  | .owClear n pins => Sys2Proof.Machine.execOwClear n pins s
  | .owtGo v => Sys2Proof.Machine.execOwtGo v s
  | .owtDone pos neg => Sys2Proof.Machine.execOwtDone pos neg s
  | .sarConversion slot uv => Sys2Proof.Machine.execSarConversion slot uv s
  | .comparatorCrossing m uv stuck1 stuck0 => Sys2Proof.Machine.execComparatorCrossing m uv stuck1 stuck0 s
  | .cmpCellTest pass => Sys2Proof.Machine.execCmpCellTest pass s
  | .afeCmpCtlWrite m v => Sys2Proof.Machine.execAfeCmpCtlWrite m v s
  | .chainOutput k idx => Sys2Proof.Machine.execChainOutput k idx s
  | .fltSync v => Sys2Proof.Machine.execFltSync v s
  | .coefCrc upset => Sys2Proof.Machine.execCoefCrc upset s
  | .rateMon => Sys2Proof.Machine.execRateMon s
  | .thresholdEvaluation k => Sys2Proof.Machine.execThresholdEvaluation k s
  | .fabricTimerExpiry t => Sys2Proof.Machine.execFabricTimerExpiry t s
  | .bstChange n level => Sys2Proof.Machine.execBstChange n level s
  | .bstCfgWrite n v => Sys2Proof.Machine.execBstCfgWrite n v s
  | .tripReset v => Sys2Proof.Machine.execTripReset v s
  | .kdrvOc d ma => Sys2Proof.Machine.execKdrvOc d ma s
  | .kdrvOpen d ma => Sys2Proof.Machine.execKdrvOpen d ma s
  | .fabCmp elem => Sys2Proof.Machine.execFabCmp elem s
  | .readback out => Sys2Proof.Machine.execReadback out s
  | .settingsCrcCheck upset => Sys2Proof.Machine.execSettingsCrcCheck upset s
  | .fabGrpReq v => Sys2Proof.Machine.execFabGrpReq v s
  | .fabSetDataWrite v => Sys2Proof.Machine.execFabSetDataWrite v s
  | .scanEntry pushUe => Sys2Proof.Machine.execScanEntry pushUe s
  | .commitApply => Sys2Proof.Machine.execCommitApply s
  | .commitComplete => Sys2Proof.Machine.execCommitComplete s
  | .overrun => Sys2Proof.Machine.execOverrun s
  | .discard cause => Sys2Proof.Machine.execDiscard cause s
  | .reexecution => Sys2Proof.Machine.execReexecution s
  | .lockstepMismatch => Sys2Proof.Machine.execLockstepMismatch s
  | .recorderSample bad => Sys2Proof.Machine.execRecorderSample bad s
  | .recArm => Sys2Proof.Machine.execRecArm s
  | .recDisarm => Sys2Proof.Machine.execRecDisarm s
  | .brmCtlWrite v => Sys2Proof.Machine.execBrmCtlWrite v s
  | .brmSwtrig v => Sys2Proof.Machine.execBrmSwtrig v s
  | .drained us fail ue => Sys2Proof.Machine.execDrained us fail ue s
  | .stageEntry => Sys2Proof.Machine.execStageEntry s
  | .logCtlFlush v => Sys2Proof.Machine.execLogCtlFlush v s
  | .flushComplete res => Sys2Proof.Machine.execFlushComplete res s
  | .reserveErase => Sys2Proof.Machine.execReserveErase s
  | .logSweCode v => Sys2Proof.Machine.execLogSweCode v s
  | .logCursorWrite v => Sys2Proof.Machine.execLogCursorWrite v s
  | .logFetchComplete => Sys2Proof.Machine.execLogFetchComplete s
  | .logWin7Read m => Sys2Proof.Machine.execLogWin7Read m s
  | .logClear v => Sys2Proof.Machine.execLogClear v s
  | .logCleared => Sys2Proof.Machine.execLogCleared s
  | .add o => Sys2Proof.Machine.execAdd o s
  | .addi o => Sys2Proof.Machine.execAddi o s
  | .sub o => Sys2Proof.Machine.execSub o s
  | .and o => Sys2Proof.Machine.execAnd o s
  | .andi o => Sys2Proof.Machine.execAndi o s
  | .or o => Sys2Proof.Machine.execOr o s
  | .ori o => Sys2Proof.Machine.execOri o s
  | .xor o => Sys2Proof.Machine.execXor o s
  | .xori o => Sys2Proof.Machine.execXori o s
  | .shl o => Sys2Proof.Machine.execShl o s
  | .shli o => Sys2Proof.Machine.execShli o s
  | .shr o => Sys2Proof.Machine.execShr o s
  | .shri o => Sys2Proof.Machine.execShri o s
  | .sar o => Sys2Proof.Machine.execSar o s
  | .sari o => Sys2Proof.Machine.execSari o s
  | .addt o => Sys2Proof.Machine.execAddt o s
  | .subt o => Sys2Proof.Machine.execSubt o s
  | .cmpeq o => Sys2Proof.Machine.execCmpeq o s
  | .cmpeqi o => Sys2Proof.Machine.execCmpeqi o s
  | .cmplt o => Sys2Proof.Machine.execCmplt o s
  | .cmplti o => Sys2Proof.Machine.execCmplti o s
  | .cmpltu o => Sys2Proof.Machine.execCmpltu o s
  | .cmpltui o => Sys2Proof.Machine.execCmpltui o s
  | .sel o => Sys2Proof.Machine.execSel o s
  | .min o => Sys2Proof.Machine.execMin o s
  | .max o => Sys2Proof.Machine.execMax o s
  | .ext o => Sys2Proof.Machine.execExt o s
  | .clz o => Sys2Proof.Machine.execClz o s
  | .plog o => Sys2Proof.Machine.execPlog o s
  | .ldw o => Sys2Proof.Machine.execLdw o s
  | .ldh o => Sys2Proof.Machine.execLdh o s
  | .ldhu o => Sys2Proof.Machine.execLdhu o s
  | .ldb o => Sys2Proof.Machine.execLdb o s
  | .ldbu o => Sys2Proof.Machine.execLdbu o s
  | .ldx o => Sys2Proof.Machine.execLdx o s
  | .stw o => Sys2Proof.Machine.execStw o s
  | .sth o => Sys2Proof.Machine.execSth o s
  | .stb o => Sys2Proof.Machine.execStb o s
  | .stx o => Sys2Proof.Machine.execStx o s
  | .mul o => Sys2Proof.Machine.execMul o s
  | .muli o => Sys2Proof.Machine.execMuli o s
  | .mulh o => Sys2Proof.Machine.execMulh o s
  | .mulhu o => Sys2Proof.Machine.execMulhu o s
  | .mulq o => Sys2Proof.Machine.execMulq o s
  | .div o => Sys2Proof.Machine.execDiv o s
  | .divu o => Sys2Proof.Machine.execDivu o s
  | .rem o => Sys2Proof.Machine.execRem o s
  | .remu o => Sys2Proof.Machine.execRemu o s
  | .br o => Sys2Proof.Machine.execBr o s
  | .jr o => Sys2Proof.Machine.execJr o s
  | .call o => Sys2Proof.Machine.execCall o s
  | .callr o => Sys2Proof.Machine.execCallr o s
  | .ret o => Sys2Proof.Machine.execRet o s
  | .scall o => Sys2Proof.Machine.execScall o s
  | .sret o => Sys2Proof.Machine.execSret o s
  | .eret o => Sys2Proof.Machine.execEret o s
  | .mfsr o => Sys2Proof.Machine.execMfsr o s
  | .mtsr o => Sys2Proof.Machine.execMtsr o s
  | .ziss o => Sys2Proof.Machine.execZiss o s
  | .zwait o => Sys2Proof.Machine.execZwait o s
  | .commit o => Sys2Proof.Machine.execCommit o s
  | .fence o => Sys2Proof.Machine.execFence o s
  | .sync o => Sys2Proof.Machine.execSync o s
  | .idle o => Sys2Proof.Machine.execIdle o s
  | .brk o => Sys2Proof.Machine.execBrk o s
  | .interruptEntry pushUe => Sys2Proof.Machine.execInterruptEntry pushUe s
  | .contextSwitch bad => Sys2Proof.Machine.execContextSwitch bad s
  | .nextSlotLoaded bad => Sys2Proof.Machine.execNextSlotLoaded bad s
  | .contextWriteBack bad => Sys2Proof.Machine.execContextWriteBack bad s
  | .schCtlWrite v => Sys2Proof.Machine.execSchCtlWrite v s
  | .schCtxBaseWrite v => Sys2Proof.Machine.execSchCtxBaseWrite v s
  | .schWait v => Sys2Proof.Machine.execSchWait v s
  | .schYield v => Sys2Proof.Machine.execSchYield v s
  | .waitTimeout t => Sys2Proof.Machine.execWaitTimeout t s
  | .schFlagsWrite t v => Sys2Proof.Machine.execSchFlagsWrite t v s
  | .schSlotWrite t v => Sys2Proof.Machine.execSchSlotWrite t v s
  | .ringPushHdr r port v => Sys2Proof.Machine.execRingPushHdr r port v s
  | .ringPushData r port v bad => Sys2Proof.Machine.execRingPushData r port v bad s
  | .ringPop r => Sys2Proof.Machine.execRingPop r s
  | .ringFlush r v => Sys2Proof.Machine.execRingFlush r v s
  | .vadd => Sys2Proof.Machine.execVadd s
  | .vsub => Sys2Proof.Machine.execVsub s
  | .vabs => Sys2Proof.Machine.execVabs s
  | .vcvt => Sys2Proof.Machine.execVcvt s
  | .vmul => Sys2Proof.Machine.execVmul s
  | .vcmulj => Sys2Proof.Machine.execVcmulj s
  | .vsq => Sys2Proof.Machine.execVsq s
  | .vdiv => Sys2Proof.Machine.execVdiv s
  | .vsqrt => Sys2Proof.Machine.execVsqrt s
  | .vmag => Sys2Proof.Machine.execVmag s
  | .vphase => Sys2Proof.Machine.execVphase s
  | .vcis => Sys2Proof.Machine.execVcis s
  | .vand => Sys2Proof.Machine.execVand s
  | .vor => Sys2Proof.Machine.execVor s
  | .vxor => Sys2Proof.Machine.execVxor s
  | .vmax => Sys2Proof.Machine.execVmax s
  | .vmin => Sys2Proof.Machine.execVmin s
  | .vcmpgt => Sys2Proof.Machine.execVcmpgt s
  | .vshra => Sys2Proof.Machine.execVshra s
  | .vcopy => Sys2Proof.Machine.execVcopy s
  | .vgather => Sys2Proof.Machine.execVgather s
  | .vscatter => Sys2Proof.Machine.execVscatter s
  | .vsum => Sys2Proof.Machine.execVsum s
  | .vmaxr => Sys2Proof.Machine.execVmaxr s
  | .zveChainStart => Sys2Proof.Machine.execZveChainStart s
  | .zveChainComplete ue => Sys2Proof.Machine.execZveChainComplete ue s
  | .zveAbortRun => Sys2Proof.Machine.execZveAbortRun s
  | .zveAbortQueue => Sys2Proof.Machine.execZveAbortQueue s
  | .zveChainAborted n => Sys2Proof.Machine.execZveChainAborted n s
  | .laneFault kind lane failed => Sys2Proof.Machine.execLaneFault kind lane failed s
  | .shadowRotation => Sys2Proof.Machine.execShadowRotation s
  | .idleSelfTest failed => Sys2Proof.Machine.execIdleSelfTest failed s
  | .sentinelWake => Sys2Proof.Machine.execSentinelWake s
  | .sntInterruptEntry => Sys2Proof.Machine.execSntInterruptEntry s
  | .rcCalibration => Sys2Proof.Machine.execRcCalibration s
  | .rtcSecond => Sys2Proof.Machine.execRtcSecond s
  | .rtcAlarm => Sys2Proof.Machine.execRtcAlarm s
  | .timeofsWrite v => Sys2Proof.Machine.execTimeofsWrite v s
  | .localWrite v => Sys2Proof.Machine.execLocalWrite v s
  | .alarmWrite v => Sys2Proof.Machine.execAlarmWrite v s
  | .wtmrWrite v => Sys2Proof.Machine.execWtmrWrite v s
  | .wakeTimer => Sys2Proof.Machine.execWakeTimer s
  | .wake n level => Sys2Proof.Machine.execWake n level s
  | .wakecoreWrite => Sys2Proof.Machine.execWakecoreWrite s
  | .tamperCheck loop kind => Sys2Proof.Machine.execTamperCheck loop kind s
  | .spwdataWrite v => Sys2Proof.Machine.execSpwdataWrite v s
  | .spiwExchangeDone rx => Sys2Proof.Machine.execSpiwExchangeDone rx s
  | .winterGpioEdge idx level => Sys2Proof.Machine.execWinterGpioEdge idx level s
  | .sntUartRx u v ferr perr => Sys2Proof.Machine.execSntUartRx u v ferr perr s
  | .sntUartTx u => Sys2Proof.Machine.execSntUartTx u s
  | .sntUartReqWrite v => Sys2Proof.Machine.execSntUartReqWrite v s
  | .uartOwner u => Sys2Proof.Machine.execUartOwner u s
  | .c2sGo => Sys2Proof.Machine.execC2sGo s
  | .mbstatAck => Sys2Proof.Machine.execMbstatAck s
  | .outgoMailbox => Sys2Proof.Machine.execOutgoMailbox s
  | .outgoRingPush => Sys2Proof.Machine.execOutgoRingPush s
  | .s2cAck => Sys2Proof.Machine.execS2cAck s
  | .seal => Sys2Proof.Machine.execSeal s
  | .openReq => Sys2Proof.Machine.execOpenReq s
  | .sealOperationDone => Sys2Proof.Machine.execSealOperationDone s
  | .sealUnlock => Sys2Proof.Machine.execSealUnlock s
  | .authExpiry => Sys2Proof.Machine.execAuthExpiry s
  | .sentinelBoot => Sys2Proof.Machine.execSentinelBoot s
  | .swsEntryWrite v => Sys2Proof.Machine.execSwsEntryWrite v s
  | .sntFault cause => Sys2Proof.Machine.execSntFault cause s
  | .swdtExpiry => Sys2Proof.Machine.execSwdtExpiry s
  | .winterPowerOn => Sys2Proof.Machine.execWinterPowerOn s
  | .winterPowerLoss => Sys2Proof.Machine.execWinterPowerLoss s
  | .firstXrtcEdge => Sys2Proof.Machine.execFirstXrtcEdge s
  | .sntNop => Sys2Proof.Machine.execSntNop s
  | .sntMov o => Sys2Proof.Machine.execSntMov o s
  | .sntMovi o idx => Sys2Proof.Machine.execSntMovi o idx s
  | .sntMovw o w => Sys2Proof.Machine.execSntMovw o w s
  | .sntMovq o => Sys2Proof.Machine.execSntMovq o s
  | .sntLd o => Sys2Proof.Machine.execSntLd o s
  | .sntLdInc o => Sys2Proof.Machine.execSntLdInc o s
  | .sntLdDisp o idx => Sys2Proof.Machine.execSntLdDisp o idx s
  | .sntLda o w => Sys2Proof.Machine.execSntLda o w s
  | .sntSt o => Sys2Proof.Machine.execSntSt o s
  | .sntStInc o => Sys2Proof.Machine.execSntStInc o s
  | .sntStDisp o idx => Sys2Proof.Machine.execSntStDisp o idx s
  | .sntSta o w => Sys2Proof.Machine.execSntSta o w s
  | .sntLdw o => Sys2Proof.Machine.execSntLdw o s
  | .sntStw o => Sys2Proof.Machine.execSntStw o s
  | .sntXch o => Sys2Proof.Machine.execSntXch o s
  | .sntPush o => Sys2Proof.Machine.execSntPush o s
  | .sntPop o => Sys2Proof.Machine.execSntPop o s
  | .sntPushq o => Sys2Proof.Machine.execSntPushq o s
  | .sntPopq o => Sys2Proof.Machine.execSntPopq o s
  | .sntPushf => Sys2Proof.Machine.execSntPushf s
  | .sntPopf => Sys2Proof.Machine.execSntPopf s
  | .sntGetsp o => Sys2Proof.Machine.execSntGetsp o s
  | .sntSetsp o => Sys2Proof.Machine.execSntSetsp o s
  | .sntAdd o => Sys2Proof.Machine.execSntAdd o s
  | .sntAdc o => Sys2Proof.Machine.execSntAdc o s
  | .sntSub o => Sys2Proof.Machine.execSntSub o s
  | .sntSbc o => Sys2Proof.Machine.execSntSbc o s
  | .sntAnd o => Sys2Proof.Machine.execSntAnd o s
  | .sntOr o => Sys2Proof.Machine.execSntOr o s
  | .sntXor o => Sys2Proof.Machine.execSntXor o s
  | .sntCmp o => Sys2Proof.Machine.execSntCmp o s
  | .sntAddImm o idx => Sys2Proof.Machine.execSntAddImm o idx s
  | .sntAdcImm o idx => Sys2Proof.Machine.execSntAdcImm o idx s
  | .sntSubImm o idx => Sys2Proof.Machine.execSntSubImm o idx s
  | .sntSbcImm o idx => Sys2Proof.Machine.execSntSbcImm o idx s
  | .sntAndImm o idx => Sys2Proof.Machine.execSntAndImm o idx s
  | .sntOrImm o idx => Sys2Proof.Machine.execSntOrImm o idx s
  | .sntXorImm o idx => Sys2Proof.Machine.execSntXorImm o idx s
  | .sntCmpImm o idx => Sys2Proof.Machine.execSntCmpImm o idx s
  | .sntInc o => Sys2Proof.Machine.execSntInc o s
  | .sntDec o => Sys2Proof.Machine.execSntDec o s
  | .sntNeg o => Sys2Proof.Machine.execSntNeg o s
  | .sntNot o => Sys2Proof.Machine.execSntNot o s
  | .sntShl o => Sys2Proof.Machine.execSntShl o s
  | .sntShr o => Sys2Proof.Machine.execSntShr o s
  | .sntSar o => Sys2Proof.Machine.execSntSar o s
  | .sntRlc o => Sys2Proof.Machine.execSntRlc o s
  | .sntRrc o => Sys2Proof.Machine.execSntRrc o s
  | .sntSwap o => Sys2Proof.Machine.execSntSwap o s
  | .sntAddw o => Sys2Proof.Machine.execSntAddw o s
  | .sntSubw o => Sys2Proof.Machine.execSntSubw o s
  | .sntCmpw o => Sys2Proof.Machine.execSntCmpw o s
  | .sntIncw o => Sys2Proof.Machine.execSntIncw o s
  | .sntDecw o => Sys2Proof.Machine.execSntDecw o s
  | .sntAddwi o w => Sys2Proof.Machine.execSntAddwi o w s
  | .sntMul o => Sys2Proof.Machine.execSntMul o s
  | .sntBset o => Sys2Proof.Machine.execSntBset o s
  | .sntBclr o => Sys2Proof.Machine.execSntBclr o s
  | .sntBtst o => Sys2Proof.Machine.execSntBtst o s
  | .sntJmp w => Sys2Proof.Machine.execSntJmp w s
  | .sntJmpq o => Sys2Proof.Machine.execSntJmpq o s
  | .sntCall w => Sys2Proof.Machine.execSntCall w s
  | .sntCallq o => Sys2Proof.Machine.execSntCallq o s
  | .sntRet => Sys2Proof.Machine.execSntRet s
  | .sntReti => Sys2Proof.Machine.execSntReti s
  | .sntBra idx => Sys2Proof.Machine.execSntBra idx s
  | .sntBeq idx => Sys2Proof.Machine.execSntBeq idx s
  | .sntBne idx => Sys2Proof.Machine.execSntBne idx s
  | .sntBcs idx => Sys2Proof.Machine.execSntBcs idx s
  | .sntBcc idx => Sys2Proof.Machine.execSntBcc idx s
  | .sntBmi idx => Sys2Proof.Machine.execSntBmi idx s
  | .sntBpl idx => Sys2Proof.Machine.execSntBpl idx s
  | .sntBvs idx => Sys2Proof.Machine.execSntBvs idx s
  | .sntBvc idx => Sys2Proof.Machine.execSntBvc idx s
  | .sntDjnz o idx => Sys2Proof.Machine.execSntDjnz o idx s
  | .sntEi => Sys2Proof.Machine.execSntEi s
  | .sntDi => Sys2Proof.Machine.execSntDi s
  | .sntSleep => Sys2Proof.Machine.execSntSleep s
  | .sntWfi => Sys2Proof.Machine.execSntWfi s
  | .sntTrap => Sys2Proof.Machine.execSntTrap s
  | .hourMeterSecond m => Sys2Proof.Machine.execHourMeterSecond m s
  | .hmCfg core m sel pin inv sig => Sys2Proof.Machine.execHmCfg core m sel pin inv sig s
  | .hmtPresetGo v => Sys2Proof.Machine.execHmtPresetGo v s
  | .hmPreset => Sys2Proof.Machine.execHmPreset s
  | .umuCommitInput => Sys2Proof.Machine.execUmuCommitInput s
  | .umuBoundary => Sys2Proof.Machine.execUmuBoundary s
  | .umuBill v => Sys2Proof.Machine.execUmuBill v s
  | .umuSchedDataWrite v => Sys2Proof.Machine.execUmuSchedDataWrite v s
  | .umuSchedApply v => Sys2Proof.Machine.execUmuSchedApply v s
  | .umuSchedRevert v => Sys2Proof.Machine.execUmuSchedRevert v s
  | .hire => Sys2Proof.Machine.execHire s
  | .hireCtlWrite v => Sys2Proof.Machine.execHireCtlWrite v s
  | .hmtWithdraw v => Sys2Proof.Machine.execHmtWithdraw v s
  | .usageRegisterWrite a v => Sys2Proof.Machine.execUsageRegisterWrite a v s
  | .theftSet v => Sys2Proof.Machine.execTheftSet v s
  | .theftClear v => Sys2Proof.Machine.execTheftClear v s
  | .vbatCut => Sys2Proof.Machine.execVbatCut s
  | .vbatRestore => Sys2Proof.Machine.execVbatRestore s
  | .moverRead c push ring => Sys2Proof.Machine.execMoverRead c push ring s
  | .moverWrite c push ring => Sys2Proof.Machine.execMoverWrite c push ring s
  | .moverErase c push ring => Sys2Proof.Machine.execMoverErase c push ring s
  | .moverJobEnd c res => Sys2Proof.Machine.execMoverJobEnd c res s
  | .movAbort c v => Sys2Proof.Machine.execMovAbort c v s
  | .stage m key role slot => Sys2Proof.Machine.execStage m key role slot s
  | .revoke m key slot => Sys2Proof.Machine.execRevoke m key slot s
  | .vaultProgramDone ok => Sys2Proof.Machine.execVaultProgramDone ok s
  | .authNew => Sys2Proof.Machine.execAuthNew s
  | .authGo => Sys2Proof.Machine.execAuthGo s
  | .authVerifyDone => Sys2Proof.Machine.execAuthVerifyDone s
  | .authValidExpiry => Sys2Proof.Machine.execAuthValidExpiry s
  | .esuSample bits => Sys2Proof.Machine.execEsuSample bits s
  | .blockRelease => Sys2Proof.Machine.execBlockRelease s
  | .drbgGenerate => Sys2Proof.Machine.execDrbgGenerate s
  | .drbgReseed => Sys2Proof.Machine.execDrbgReseed s
  | .drbgStop => Sys2Proof.Machine.execDrbgStop s
  | .esuCondRead m => Sys2Proof.Machine.execEsuCondRead m s
  | .esuDrbgRead m => Sys2Proof.Machine.execEsuDrbgRead m s
  | .retest v => Sys2Proof.Machine.execRetest v s
  | .reseed v => Sys2Proof.Machine.execReseed v s
  | .safAlarm => Sys2Proof.Machine.execSafAlarm s
  | .degLimit => Sys2Proof.Machine.execDegLimit s
  | .scrubUe mem addr => Sys2Proof.Machine.execScrubUe mem addr s
  | .wdtKick v => Sys2Proof.Machine.execWdtKick v s
  | .wdtLate => Sys2Proof.Machine.execWdtLate s
  | .safWdtCfgWrite v => Sys2Proof.Machine.execSafWdtCfgWrite v s
  | .safDegCfgWrite v => Sys2Proof.Machine.execSafDegCfgWrite v s
  | .injectFabCmp key => Sys2Proof.Machine.execInjectFabCmp key s
  | .injectReadback key => Sys2Proof.Machine.execInjectReadback key s
  | .injectWdtKey key => Sys2Proof.Machine.execInjectWdtKey key s
  | .injectRefOffset key => Sys2Proof.Machine.execInjectRefOffset key s
  | .injectMonChannel key => Sys2Proof.Machine.execInjectMonChannel key s
  | .injectClock key => Sys2Proof.Machine.execInjectClock key s
  | .monMismatch a b => Sys2Proof.Machine.execMonMismatch a b s
  | .canBitTimingWrite k data v => Sys2Proof.Machine.execCanBitTimingWrite k data v s
  | .canFrameReceived k id ctrl stamp data => Sys2Proof.Machine.execCanFrameReceived k id ctrl stamp data s
  | .canTxRequest k m => Sys2Proof.Machine.execCanTxRequest k m s
  | .canFrameTransmitted k b stamp => Sys2Proof.Machine.execCanFrameTransmitted k b stamp s
  | .canTxabort k m onBus => Sys2Proof.Machine.execCanTxabort k m onBus s
  | .canPassive k => Sys2Proof.Machine.execCanPassive k s
  | .canBusOff k => Sys2Proof.Machine.execCanBusOff k s
  | .canRecover k => Sys2Proof.Machine.execCanRecover k s
  | .uartDataWrite u v => Sys2Proof.Machine.execUartDataWrite u v s
  | .uartDataRead m u => Sys2Proof.Machine.execUartDataRead m u s
  | .uartRxCharacter u v ferr perr brk => Sys2Proof.Machine.execUartRxCharacter u v ferr perr brk s
  | .uartTxCharacter u => Sys2Proof.Machine.execUartTxCharacter u s
  | .rxTimeout u => Sys2Proof.Machine.execRxTimeout u s
  | .spiTxWrite k v => Sys2Proof.Machine.execSpiTxWrite k v s
  | .spiFrameDone k rx => Sys2Proof.Machine.execSpiFrameDone k rx s
  | .spiRxRead m k => Sys2Proof.Machine.execSpiRxRead m k s
  | .i2cStart k arbLost => Sys2Proof.Machine.execI2cStart k arbLost s
  | .i2cWrite k ack arbLost => Sys2Proof.Machine.execI2cWrite k ack arbLost s
  | .i2cReadAck k v => Sys2Proof.Machine.execI2cReadAck k v s
  | .i2cReadNack k v => Sys2Proof.Machine.execI2cReadNack k v s
  | .i2cStop k => Sys2Proof.Machine.execI2cStop k s
  | .i2cRxRead m k => Sys2Proof.Machine.execI2cRxRead m k s
  | .i2cStuck k sda => Sys2Proof.Machine.execI2cStuck k sda s
  | .gpioEdge idx level => Sys2Proof.Machine.execGpioEdge idx level s
  | .gpioSet v => Sys2Proof.Machine.execGpioSet v s
  | .gpioClr v => Sys2Proof.Machine.execGpioClr v s
  | .tapReset => Sys2Proof.Machine.execTapReset s
  | .extest => Sys2Proof.Machine.execExtest s
  | .idcode => Sys2Proof.Machine.execIdcode s
  | .samplePreload cells => Sys2Proof.Machine.execSamplePreload cells s
  | .clamp => Sys2Proof.Machine.execClamp s
  | .highz => Sys2Proof.Machine.execHighz s
  | .dbgacc => Sys2Proof.Machine.execDbgacc s
  | .bypass opcode => Sys2Proof.Machine.execBypass opcode s
  | .dbgaccRead addr => Sys2Proof.Machine.execDbgaccRead addr s
  | .dbgaccWrite addr v => Sys2Proof.Machine.execDbgaccWrite addr v s
  | .lockToLocked key programmed => Sys2Proof.Machine.execLockToLocked key programmed s
  | .lockToSealed key programmed => Sys2Proof.Machine.execLockToSealed key programmed s
  | .dbgAuthNew => Sys2Proof.Machine.execDbgAuthNew s
  | .dbgAuthGo => Sys2Proof.Machine.execDbgAuthGo s
  | .debugUnlock => Sys2Proof.Machine.execDebugUnlock s
  | .unlockExpiry => Sys2Proof.Machine.execUnlockExpiry s
  | .halt m => Sys2Proof.Machine.execHalt m s
  | .resume m => Sys2Proof.Machine.execResume m s
  | .step m => Sys2Proof.Machine.execStep m s
  | .warm m => Sys2Proof.Machine.execWarm m s
  | .rfr v programmed => Sys2Proof.Machine.execRfr v programmed s
  | .pllUnlock island => Sys2Proof.Machine.execPllUnlock island s
  | .tjfMeasurement deg => Sys2Proof.Machine.execTjfMeasurement deg s
  | .uart3CtsNChange high => Sys2Proof.Machine.execUart3CtsNChange high s
  | .canFrameError k b lec big => Sys2Proof.Machine.execCanFrameError k b lec big s
  | .canArbitrationLost k b => Sys2Proof.Machine.execCanArbitrationLost k b s
  | .scrubCorrected mem => Sys2Proof.Machine.execScrubCorrected mem s
  | .hourMeterGate m sig => Sys2Proof.Machine.execHourMeterGate m sig s
  | .authLockExpiry debug => Sys2Proof.Machine.execAuthLockExpiry debug s
  | .xrtcStartTimeout => Sys2Proof.Machine.execXrtcStartTimeout s

end Sys2Proof.Machine
end

