-- ==== Sys2Proof/Safety.lean ====
section
/-! DEFINITION. What statements about the part are said in: what a good run is, canonical memories, the identity of the part. -/

namespace Sys2Proof.Machine

/-- Every map of the state is in its one canonical form: keys strictly rising, no entry equal to the value of an unlisted key. -/
def State.mapsWf (s : State) : Bool :=
  mwf 0 s.mem.itcm && mwf 0 s.mem.dtcm && mwf 0 s.mem.vs && mwf 0 s.mem.shared && mwf 0 s.mem.scode && mwf 0 s.mem.sdata &&
  mwf 0 s.recd.mem && mwf 0xFF s.key.flash.cs0 && mwf 0xFF s.key.flash.cs1 && mwf 0 s.regs && mwf 0 s.lows && mwf 0 s.said &&
  mwf 0 s.scan.h0 && mwf 0 s.scan.h1 && mwf 0 s.wnt.io

/-- What no command may change: which part it is and its identity; and how far its one-way lock state has gone. -/
structure Identity where
  part : Part
  uid : BitVec 64
  lock : Nat
  deriving DecidableEq, Repr

/-- The identity of the part. -/
def State.identity (s : State) : Identity := { part := s.part, uid := s.uid, lock := s.dbg.lock.toNat }

/-- A later identity of the same part: the lock state stays or has stepped forward (22 R605). -/
def Identity.to (a b : Identity) : Prop := a.part = b.part ∧ a.uid = b.uid ∧ a.lock ≤ b.lock

/-- A key program in progress aims at an empty slot of the vault (18 R530: programming a slot that is not EMPTY is refused). -/
def VaultOpSound (s : State) : Prop :=
  ∀ op, s.key.vop = some op → op.revoke = false → (s.key.vault[op.slot]).state = .empty

/-- The command completes: it answers a next state. -/
def Completes (i : Instr) (s : State) : Prop := ∃ t, exec i s = .next t

/-! Bundles of one syllable. -/

/-- The core after one more bundle as far as its loads go: those that are due have written their register (12 R325). -/
def CoreSt.passLoads (c : CoreSt) : CoreSt :=
  { (dueLoads c.loads).1.foldl (fun (x : CoreSt) l => x.putAt l.reg l.value) c with loads := (dueLoads c.loads).2 }

/-- The open bundle is over: nothing stands in it, and outside a scan a debug step is used up. -/
def State.closeBundle (s : State) : State :=
  s.withCore (fun c => { c with bundle := [], step := if c.scan then c.step else false })

/-- Words that a syllable takes (12 R317). -/
def sylWords (o : SylEnc) : Nat := if o.ext.isSome then 2 else 1

/-- The core executes, no bundle is open, and no scan entry, interrupt, held IDLE, thread switch or imprecise exception is due. -/
def BundleStart (s : State) : Prop :=
  s.coreRuns = true ∧ s.core.bundle = [] ∧ s.boundaryFree = true ∧ s.aexcDue = none

/-- The command's syllable alone is a bundle that the part executes: it carries the stop bit, its guard is true, the bundle lies
in ITCM, its register fields fs name registers, and in a window double fault none of the windows (12 R315, R317, R321, 13 R373);
no memory that it reaches meets an uncorrectable error (12 R343). -/
def BundleReady (s : State) (o : SylEnc) (fs : List (BitVec 6)) : Prop :=
  BundleStart s ∧ o.stop = true ∧ s.core.pred o.pg.toNat = true ∧ s.core.pc.toNat + 8 ≤ 0x40000 ∧ (∀ f ∈ fs, f.toNat < 56) ∧
    (s.core.df = true → ∀ f ∈ fs, f.toNat < 32) ∧ o.ue = false ∧ o.pushUe = 0

/-- The part after a bundle of n cycles whose syllable does f to the core, the pc at a. -/
def State.afterBundle (s : State) (a : Word) (n : Nat) (f : CoreSt → CoreSt) : State :=
  let c := f s.closeBundle.core.passLoads
  { s with core := { c with pc := a, cyc := c.cyc + BitVec.ofNat 64 n } }

/-- The address after a bundle of one syllable. -/
def State.pcAfter (s : State) (o : SylEnc) : Word := s.core.pc + BitVec.ofNat 32 (4 * sylWords o)

/-- A mode request counted, with its result (04 R103). -/
def State.requested (s : State) (r : BitVec 3) : State :=
  { s with mode := { s.mode with seq := s.mode.seq + 1, result := r, failed := 0 } }

/-- A Safe cause pending, latched now with a parameter (04 R124). -/
def State.withSafeCause (s : State) (cause : Nat) (param : Word) : State :=
  { s with mode := { s.mode with safePend := s.mode.safePend ++ [(cause, param, s.time.dt)] } }

/-- A Safe cause pending whose parameter is a free value (log entry 37). -/
def State.withSafeCauseFree (s : State) (cause : Nat) : State :=
  { s with freeCtr := s.freeCtr + 1,
           mode := { s.mode with safePend := s.mode.safePend ++ [(cause, Config.freeWord s.freeCtr, s.time.dt)] } }

/-! Links of Zinik. -/

/-- The running chain is one link l, not aborted and not precise, of this operation, type and form, that reads its first source and
writes its destination in the vector store; two sources are two streams (15 R420, R422). -/
def LinkReady (s : State) (r : ZRun) (l : ZLink) (op ty : Nat) (cplx : Bool) : Prop :=
  s.vecOn = true ∧ s.zve.run = some r ∧ r.abort = false ∧ r.done = 0 ∧ r.chain.links = [l] ∧ r.chain.precise = false ∧ l.op = op ∧
    l.ty = ty ∧ l.cplx = cplx ∧ l.sat = false ∧ l.chain = false ∧ forwarded l.w2 = false ∧ (opTwo op = true → l.scal = false)

/-- The link has run: n bytes of the vector store from its destination hold the list, and nothing else of the memories, the core or
the queue has changed. -/
def LinkWrote (o : Host.Outcome State Fault Refusal) (s : State) (l : ZLink) (bs : List Byte) : Prop :=
  ∃ t r', o = .next t ∧ t.mem = { s.mem with vs := mwrite 0 s.mem.vs (16 * strBase l.w1) bs } ∧ t.zve.run = some r' ∧ r'.done = 1 ∧
    t.zve.queue = s.zve.queue ∧ t.core = s.core ∧ t.scan = s.scan ∧ t.sch = s.sch

/-! Instructions of the sentinel. -/

/-- The sentinel executes an instruction of n bytes that lies in code RAM, and no interrupt entry is due (16 R450, R455). -/
def SntReady (s : State) (n : Nat) : Prop := s.sntRuns = true ∧ s.sntDue = false ∧ s.wnt.pc.toNat + n ≤ 0x4000

/-- Operand byte with a first and a second operand (16 R453). -/
def opRR (a b : Nat) : Byte := BitVec.ofNat 8 (8 * a + b)

/-- Registers with pair q replaced: the odd register takes the high byte. -/
def pairIn (b : Vector Byte 8) (q : Fin 4) (v : Half) : Vector Byte 8 :=
  vput (vput b ⟨2 * q.val, by omega⟩ (v.setWidth 8)) ⟨2 * q.val + 1, by omega⟩ ((v >>> 8).setWidth 8)

/-- Pair q of the registers. -/
def pairOf (b : Vector Byte 8) (q : Fin 4) : Half := b[2 * q.val + 1] ++ b[2 * q.val]

/-- The part after an instruction of the sentinel: its data RAM, registers, SP, flags and PC; a WFI no longer waits. -/
def State.sntNow (s : State) (data : List Host.Cell) (b : Vector Byte 8) (sp : Half) (f : BitVec 5) (pc : Half) : State :=
  { s with mem := { s.mem with sdata := data }, wnt := { s.wnt with wfi := false, b := b, sp := sp, flags := f, pc := pc } }

/-- After an instruction of n bytes that writes registers and flags. -/
def State.sntAfter (s : State) (n : Nat) (b : Vector Byte 8) (f : BitVec 5) : State :=
  s.sntNow s.mem.sdata b s.wnt.sp f (s.wnt.pc + BitVec.ofNat 16 n)

/-- The byte of plain memory that a load reads: code RAM, data RAM, the shared window while it is valid (16 Table SNT-1, R451). -/
def State.sntPlain (s : State) (a : Nat) : Option Byte :=
  if a < 0x4000 then some (mget 0 s.mem.scode a)
  else if a < 0x6000 then some (mget 0 s.mem.sdata (a - 0x4000))
  else if a < 0x8000 ∧ s.wnt.winValid = true then some (mget 0 s.mem.shared (a - 0x6000))
  else none

/-- The sentinel after a fault with this cause, as its command states it (16 R483). -/
def SntFaults (i : Instr) (s : State) (cause : Fin 3) : Prop := exec i s = exec (.sntFault cause) s

/-- An instruction of the sentinel, with these operands (16 Table SNT-2). -/
def SntInstr (i : Instr) (o v : Byte) (w : Half) : Prop :=
  i ∈ ([.sntNop, .sntMov o, .sntMovi o v, .sntMovw o w, .sntMovq o, .sntLd o, .sntLdInc o, .sntLdDisp o v, .sntLda o w, .sntSt o,
    .sntStInc o, .sntStDisp o v, .sntSta o w, .sntLdw o, .sntStw o, .sntXch o, .sntPush o, .sntPop o, .sntPushq o, .sntPopq o, .sntPushf,
    .sntPopf, .sntGetsp o, .sntSetsp o, .sntAdd o, .sntAdc o, .sntSub o, .sntSbc o, .sntAnd o, .sntOr o, .sntXor o, .sntCmp o,
    .sntAddImm o v, .sntAdcImm o v, .sntSubImm o v, .sntSbcImm o v, .sntAndImm o v, .sntOrImm o v, .sntXorImm o v, .sntCmpImm o v,
    .sntInc o, .sntDec o, .sntNeg o, .sntNot o, .sntShl o, .sntShr o, .sntSar o, .sntRlc o, .sntRrc o, .sntSwap o, .sntAddw o,
    .sntSubw o, .sntCmpw o, .sntIncw o, .sntDecw o, .sntAddwi o w, .sntMul o, .sntBset o, .sntBclr o, .sntBtst o, .sntJmp w,
    .sntJmpq o, .sntCall w, .sntCallq o, .sntRet, .sntReti, .sntBra v, .sntBeq v, .sntBne v, .sntBcs v, .sntBcc v, .sntBmi v,
    .sntBpl v, .sntBvs v, .sntBvc v, .sntDjnz o v, .sntEi, .sntDi, .sntSleep, .sntWfi, .sntTrap] : List Instr)

/-- The scan core's instructions, in the order of the opcode table. -/
def coreInstrs : List (SylEnc → Instr) :=
  [.add, .addi, .sub, .and, .andi, .or, .ori, .xor, .xori, .shl, .shli, .shr, .shri, .sar, .sari, .addt, .subt, .cmpeq, .cmpeqi,
   .cmplt, .cmplti, .cmpltu, .cmpltui, .sel, .min, .max, .ext, .clz, .plog, .ldw, .ldh, .ldhu, .ldb, .ldbu, .ldx, .stw, .sth, .stb,
   .stx, .mul, .muli, .mulh, .mulhu, .mulq, .div, .divu, .rem, .remu, .br, .jr, .call, .callr, .ret, .scall, .sret, .eret, .mfsr,
   .mtsr, .ziss, .zwait, .commit, .fence, .sync, .idle, .brk]

end Sys2Proof.Machine
end

