-- ==== Sys2Proof/WellFormed.lean ====
section
/-! DEFINITION. Which commands name only units that a part has (00 R3, R7). Every other operand is well formed by its type. -/

namespace Sys2Proof

/-- Well-formedness on a part with ch channels and chains and cm comparators (00 Table SCOPE-1: 16 and 8, or 8 and 4). -/
def Instr.wf (ch cm : Nat) : Instr → Bool
  | .afeChCtlWrite n _ => decide (n.val < ch)
  | .channelSettingApply n => decide (n.val < ch)
  | .modReset n => decide (n.val < ch)
  | .owSet n _ => decide (n.val < ch)
  | .owClear n _ => decide (n.val < ch)
  | .comparatorCrossing m _ _ _ => decide (m.val < cm)
  | .afeCmpCtlWrite m _ => decide (m.val < cm)
  | .chainOutput k _ => decide (k.val < ch)
  | .thresholdEvaluation k => decide (k.val < ch)
  | _ => true

end Sys2Proof
end

