-- ==== Sys2Proof/Certificates/Slice0/Obligations.lean ====
section
/-! DEFINITION. The statements for the provers: what each command does, what no command does, what every step keeps. Log entries are
those of notes/assumptions. -/

open Sys2Proof Sys2Proof.Machine

/-- Clocks and the bridge: each event leaves its entry, its status and its Safe cause, and nothing else changes
(01 R35, R36; 02 R48, R59 to R61, R63 to R66). The parameters of causes 3 and 4 are the model's free values (log entry 37). -/
def Obligations.ClockAndBridgeEventsTakeEffect : Prop :=
  (∀ (s : State) (ch : BridgeCh), s.mode.coreOn = true → ch = .sar ∨ ch = .rb ∨ ch = .reg ∨ ch = .win →
    exec (.bridgeTimeout ch) s = .next (s.withSafeCauseFree 3)) ∧
  (∀ s : State, s.mode.coreOn = true → exec .coreLost s = .next (s.withSafeCauseFree 4)) ∧
  (∀ (s : State) (d : DWord), s.time.run = true → s.time.edgeDt = some d → s.time.rtct.toNat % 32 = 0 →
    let pair : TimeSt := { s.time with syncRtc := s.time.rtct, syncDt := d, synced := true }
    (s.time.synced = false ∨ s.time.rtct ≠ s.time.syncRtc ∧ s.time.rtct ≠ s.time.syncRtc + 32 →
      exec .syncPairCapture s = .next { s with time := pair }) ∧
    (∀ n : Nat, s.time.synced = true → s.time.rtct = s.time.syncRtc + 32 → n = (d - s.time.syncDt).toNat →
      390625 ≤ 4 * n + 195 → 4 * n ≤ 390820 → exec .syncPairCapture s = .next { s.setReg (R.cmonCnt 7) (BitVec.ofNat 32 n) with
        time := { pair with clkOk := setBit s.time.clkOk 7 true, clkOver := setBit s.time.clkOver 7 false } })) ∧
  (∀ (s : State) (n : Fin 8), s.mode.coreOn = true → s.time.pwr.getLsbD n.val = true → n.val < 5 → s.safeDue 6 = false →
    exec (.dtFault n) s = .next ((s.say .clkmon 0x8003 (BitVec.ofNat 32 n.val) 0 0 0).withSafeCause 6 (BitVec.ofNat 32 n.val))) ∧
  (∀ (s : State) (r : Fin 12), s.mode.coreOn = true → s.safeDue 7 = false →
    exec (.xing r) s = .next ((s.say .clkmon 0x8004 (BitVec.ofNat 32 r.val) 0 0 0).withSafeCause 7 (BitVec.ofNat 32 r.val))) ∧
  (∀ (s : State) (n : Fin 8), s.mode.coreOn = true → s.time.pwr.getLsbD n.val = true → n.val < 6 → s.safeDue 5 = false →
    exec (.pllUnlock n) s =
      .next ((s.say .clkmon 0x8002 (BitVec.ofNat 32 n.val) 0xFFFFFFFF 0 0).withSafeCause 5 (BitVec.ofNat 32 n.val))) ∧
  (∀ s : State, s.time.xrtcSeen = true → s.time.rcFallback = false → s.time.coarse = false →
    exec .crystalStop s = .next { s.sayWnt 0x7104 0 0 0 0 with
      time := { s.time with coarse := true, coarseAt := s.time.rtct, rcFallback := true } }) ∧
  (∀ s : State, s.pwr.winter = true → s.time.xrtcSeen = false → s.time.rcFallback = false → s.time.coarse = false →
    exec .xrtcStartTimeout s = .next { s.sayWnt 0x7104 0 0 0 0 with
      time := { s.time with coarse := true, coarseAt := s.time.rtct, rcFallback := true } }) ∧
  (∀ (s : State) (count : Nat), s.mode.coreOn = true → s.time.pwr.getLsbD 0 = true → s.saf.inj.getLsbD 6 = false →
    (29700 ≤ count → count ≤ 30300 →
      exec (.clockMonitorWindow 0 count) s = .next { s.setReg (R.cmonCnt 0) (BitVec.ofNat 32 count) with
        time := { s.time with clkOk := setBit s.time.clkOk 0 true, clkOver := setBit s.time.clkOver 0 false } }) ∧
    (count < 29400 → s.time.clkOver.getLsbD 0 = true → bit (s.reg R.cmonWarn) 0 = true → s.safeDue 5 = false →
      exec (.clockMonitorWindow 0 count) s = .next (State.withSafeCause (State.say { s.setReg (R.cmonCnt 0) (BitVec.ofNat 32 count) with
        time := { s.time with clkOk := setBit s.time.clkOk 0 false, clkOver := setBit s.time.clkOver 0 true } }
        .clkmon 0x8002 0 (BitVec.ofNat 32 count) 0 0) 5 0)))

/-- Mode requests: each counts in SEQ, leaves its result, and makes its transition or begins its sequence (04 R103 to R107, M5 to M9,
M15). The parameter of cause SW_REQ is a free value of the model (log entry 37). -/
def Obligations.ModeRequestsTakeEffect : Prop :=
  (∀ (s : State) (req : BitVec 1), s.regsOn = true →
    exec (.reqNoTransition req) s =
      .next (((s.requested 3).say .mode 0x0002 (6 + req.setWidth 32) 3 0 ((s.mode.seq + 1).setWidth 32)).answer .ok 0)) ∧
  (∀ s : State, s.regsOn = true → s.mode.starting = false → s.modeRps = true →
    exec .reqSafe s = .next (((s.requested 5).withSafeCauseFree 19).answer .ok 0)) ∧
  (∀ s : State, s.regsOn = true → s.mode.starting = false → s.mode.mode = .ready → s.mode.m9 = none → s.key.authValid = true →
    s.key.authBusy = false →
    exec .reqService s = .next ((State.say { s.requested 1 with
      mode := { (s.requested 1).mode with mode := .service, prev := .ready } } .mode 0x0001 7 2 4
        ((s.mode.seq + 1).setWidth 32)).answer .ok 0)) ∧
  (∀ s : State, s.regsOn = true → s.mode.starting = false → s.mode.mode = .ready → s.mode.m9 = none →
    s.key.authValid = false ∨ s.key.authBusy = true →
    exec .reqService s = .next (((s.requested 4).say .mode 0x0002 4 4 0 ((s.mode.seq + 1).setWidth 32)).answer .ok 0)) ∧
  (∀ s : State, s.regsOn = true → s.mode.starting = false → s.mode.mode = .service → s.mode.m9 = none →
    exec .reqReady s = .next ((State.say { s.requested 1 with
      mode := { (s.requested 1).mode with mode := .ready, prev := .service }
      cfg := { s.cfg with stage := .closed, closing := false,
                          result := if s.cfg.stage = .checking then 0xFF else s.cfg.result }
      key := { s.key with authValid := false } } .mode 0x0001 8 4 2 ((s.mode.seq + 1).setWidth 32)).answer .ok 0)) ∧
  (∀ s : State, s.regsOn = true → s.mode.starting = false → s.mode.mode = .protect → s.mode.m9 = none →
    exec .reqReady s = .next (
      let u := State.gateClose { s with mode := { s.mode with seq := s.mode.seq + 1 } }
      (State.say { u with mode := { u.mode with mode := .ready, prev := u.mode.mode, result := 1, failed := 0 } } .mode 0x0001 6
        (BitVec.ofNat 32 u.mode.mode.code) 2 (u.mode.seq.setWidth 32)).answer .ok 0)) ∧
  (∀ s : State, s.regsOn = true → s.mode.starting = false → s.mode.mode = .ready → s.mode.m9 = none →
    exec .reqProtect s = .next (State.answer { s.requested 5 with
      mode := { (s.requested 5).mode with m5 := true } } .ok 0)) ∧
  (∀ s : State, s.regsOn = true → s.mode.starting = false → s.mode.mode = .ready ∨ s.mode.mode = .service → s.mode.m9 = none →
    exec .reqDormant s = .next (
      let u := (s.requested 5).abandonBurst
      State.answer { u with mode := { u.mode with m9 := some false, m5 := false }, scan := { u.scan with run := false } } .ok 0)) ∧
  (∀ s : State, s.regsOn = true → s.mode.starting = false → s.mode.mode = .ready ∨ s.mode.mode = .service → s.mode.m9 = none →
    exec .reqSentry s = .next (
      let u := (s.requested 5).abandonBurst
      State.answer { u with mode := { u.mode with m9 := some true, m5 := false }, scan := { u.scan with run := false } } .ok 0))

/-- The four guards decide M5 one tick after the request (04 R104); the sequence of M9, the reset pin, the start-up limit and the
reset request have their effects (04 R106, R108, R113, R130). The parameter of cause START_TO is a free value (log entry 37). -/
def Obligations.GuardSampleAndModeSequencesTakeEffect : Prop :=
  (∀ s : State, s.regsOn = true → s.mode.m5 = true → s.mode.mode = .ready → s.guards = 15 →
    ∃ t, exec .protectGuardSample s = .next t ∧ t.mode.mode = .protect ∧ t.mode.prev = .ready ∧ t.mode.result = 1 ∧ t.mode.m5 = false) ∧
  (∀ s : State, s.regsOn = true → s.mode.m5 = true → s.mode.mode = .ready → s.guards ≠ 15 →
    exec .protectGuardSample s = .next (
      let u := { s with mode := { s.mode with m5 := false, result := 2, failed := ~~~s.guards } }
      u.say .mode 0x0002 3 2 (u.mode.failed.setWidth 32) (s.mode.seq.setWidth 32))) ∧
  (∀ (s : State) (sentry : Bool), s.mode.m9 = some sentry → s.regsOn = true → s.modeRps = true → s.mode.mode ≠ .safe →
    s.core.scan = false → s.scan.commit = none → s.scan.redo = false → s.scan.phase = .idle → s.recd.order = [] →
    ∃ t, exec .dormantEntrySequence s = .next t ∧ t.mode.mode = (if sentry then .sentry else .dormant) ∧ t.mode.coreOn = false ∧
      t.mode.m9 = none ∧ t.core = CoreSt.reset ∧ t.mem.dtcm = [] ∧ t.regs = [] ∧ t.key.vault = s.key.vault ∧ t.dbg.lock = s.dbg.lock) ∧
  (∀ s : State, s.mode.coreOn = true →
    ∃ t, exec .rstNReset s = .next t ∧ t.mode.mode = s.mode.mode ∧ t.mode.pf = false ∧ t.mode.coreOn = false ∧
      t.mode.rstStart = true ∧ t.regs = [] ∧
      t.core = CoreSt.reset) ∧
  (∀ s : State, s.mode.starting = true → s.mode.past13 = false → s.mode.mode = .ready → s.mode.kindWarm = false →
    500000 ≤ s.mode.startUs.toNat + (s.time.dt - s.mode.startMark).toNat / 100 → s.safeDue 24 = false →
    exec .startTo s = .next (State.withSafeCauseFree { s with mode := { s.mode with run := none } } 24)) ∧
  (∀ (s : State) (v : Word), s.regsOn = true → s.modeRps = true → s.mode.warmReq = none →
    (fld v 16 16 = 0x5A3C → bit v 0 = true →
      exec (.sysResetReq v) s = .next (State.answer { s with mode := { s.mode with warmReq := some 1 } } .ok 0)) ∧
    (fld v 16 16 ≠ 0x5A3C ∨ bit v 0 = false → exec (.sysResetReq v) s = .next (s.answer .ok 0)))

/-- Starts and Safe. A cold start begins with the mode, the stamps and SYS_START as 04 R99 and R109 give them, on every path;
a failed trim or monitor self-test latches its cause (04 R129); a warm start takes its cause and reaches its scan program
(04 R113 to R117), a fourth within 10 s goes to Safe instead (R118); SAFE_ENTRY forces Safe and records its cause (R122 to R124);
the readout window ends with the core die down (R125). -/
def Obligations.StartsAndSafeTakeEffect : Prop :=
  (∀ (s : State) (e : ColdIn), s.coldReady = true →
    (∃ t, exec (.coldStart e) s = .next t ∧ t.mode.mode = .ready ∧ t.mode.starting = true ∧ t.mode.prev = s.mode.mode ∧
      t.mode.kindWarm = false ∧ t.mode.startDt = BitVec.ofNat 64 (s.time.rtct.toNat * 100000000 / 32768) ∧ t.mode.wcount = 0 ∧
      t.mode.wcause = 0 ∧ t.mode.seq = 0 ∧ t.mode.wake = false ∧ t.mode.rstStart = false) ∧
    (e.trimOk = false → ∃ t p, exec (.coldStart e) s = .next t ∧ t.mode.safePend = [(22, p, t.time.dt)] ∧ t.mode.past13 = false) ∧
    (e.trimOk = true → e.monOk = false →
      ∃ t, exec (.coldStart e) s = .next t ∧ t.mode.safePend = [(16, 8, t.time.dt)] ∧ t.mode.past13 = false)) ∧
  (∀ (s : State) (cal : CalIn) (cause : Fin 6) (i : Image) (us : Word), s.mode.warmReq = some cause → s.regsOn = true →
    s.modeRps = true → s.mode.mode ≠ .safe → s.mode.past13 = true → s.mode.safePend = [] → s.scan.commit = none → s.key.vop = none →
    s.mode.m9 = none →
    (s.warmStorm = false → s.cfg.img = some i → s.itcmOk = true → s.calDue = false → (∀ c : Fin 8, (s.key.mov[c]).busy = false) →
      ∃ t, exec (.warmStart cal 0 0 us) s = .next t ∧ t.mode.starting = true ∧ t.mode.kindWarm = true ∧
        t.mode.wcause = BitVec.ofNat 4 cause.val ∧ t.mode.wcount = satInc s.mode.wcount ∧ t.mode.warmReq = none ∧
        t.mode.mode = (if s.mode.mode = .service then .ready else s.mode.mode) ∧ t.mode.past13 = true ∧ t.core.pc = i.scan.kernel ∧
        t.core.priv = true ∧ t.scan.first = true) ∧
    (s.warmStorm = true →
      exec (.warmStart cal 0 0 us) s = .next (State.withSafeCauseFree { s with mode := { s.mode with warmReq := none } } 20))) ∧
  (∀ (s : State) (c : Nat) (p : Word) (d : DWord), s.mode.safePend = [(c, p, d)] → c < 32 → c ≠ 4 → c ≠ 12 → c ≠ 21 →
    s.mode.mode ≠ .safe → (∀ k : Fin 8, (s.key.mov[k]).busy = false) →
    ∃ t, exec .safeEntry s = .next t ∧ t.mode.mode = .safe ∧ t.mode.prev = s.mode.mode ∧ t.mode.safePri = BitVec.ofNat 8 c ∧
      t.mode.safeMask = bitAt true c ∧ t.mode.safeDt = s.time.dt ∧ t.mode.safePend = [] ∧ t.mode.window = s.mode.coreOn ∧
      t.mode.warmReq = none ∧ t.fab.close = 0 ∧ t.fab.kdrv = 0 ∧ t.scan.run = false ∧ t.zve.queue = []) ∧
  (∀ s : State, s.mode.mode = .safe → s.mode.window = true → s.mode.coreOn = true → s.mode.pf = false →
    60000000000 ≤ (s.time.dt - s.mode.safeDt).toNat →
    ∃ t, exec .readoutWindowEnd s = .next t ∧ t.mode.mode = .safe ∧ t.mode.window = false ∧ t.mode.coreOn = false ∧ t.regs = [])

/-- Supply, backup and rails (05 R137 to R147, R150 to R153): each event leaves its status, its event bit, its entry and its Safe
cause. A power-fail with VBAK good and step 11 done runs the flush; else the core die goes down. The parameter of cause SUPPLY is
a free value (log entry 37). -/
def Obligations.SupplyEventsTakeEffect : Prop :=
  (∀ s : State, s.mode.coreOn = true → s.mode.pf = false → s.mode.mode ≠ .safe → s.scan.commit = none →
    (∀ k : Fin 8, (s.key.mov[k]).busy = false) →
    (∃ t, exec (.powerFail false) s = .next t ∧ t.mode.mode = .dormant ∧ t.mode.coreOn = false ∧ t.mode.pf = false ∧
        t.pwr.lastFlush = 2 ∧ t.pwr.pfCount = satInc s.pwr.pfCount ∧ t.pwr.vbatMv = s.pwr.vbatMv ∧ t.pwr.vbakMv = s.pwr.vbakMv ∧
        t.core = CoreSt.reset ∧ t.regs = []) ∧
    (s.mode.past11 = true → s.log.flushErr = false → s.log.clearing = false →
      ∃ t, exec (.powerFail true) s = .next t ∧ t.mode.pf = true ∧ t.mode.coreOn = true ∧ t.log.flush = some t.log.staged.length ∧
        t.time.pwr = 0xF0 ∧ t.pwr.bakSrc = true ∧ t.pwr.pfCount = satInc s.pwr.pfCount ∧ t.fab.close = 0 ∧ t.fab.kdrv = 0 ∧
        t.scan.run = false)) ∧
  (∀ s : State, s.pwr.winter = true → exec .vbatValid s = .next { s with pwr := { s.pwr with vbatValid := true } }) ∧
  (∀ s : State, s.mode.coreOn = true → s.pwr.surge = false →
    exec .surgeBegin s = .next ((State.evt { s with pwr := { s.pwr with
      surge := true
      surgeDt := s.time.dt
      surgePeak := s.pwr.vbatMv } } R.pwrEvt 2).say .pwr 0x1003 (s.pwr.vbatMv.setWidth 32) 0 0 0)) ∧
  (∀ s : State, s.mode.coreOn = true → s.pwr.surge = true →
    exec .surgeEnd s = .next (State.say { s with pwr := { s.pwr with surge := false } }
      .pwr 0x1004 (BitVec.ofNat 32 ((s.time.dt - s.pwr.surgeDt).toNat / 100)) (s.pwr.surgePeak.setWidth 32) 0 0)) ∧
  (∀ s : State, s.mode.coreOn = true → s.pwr.bakSrc = false → bit (s.reg R.pwrBakCtl) 0 = true →
    (s.pwr.chgActive = true → exec .chargerTarget s = .next (State.evt { s with
      pwr := { s.pwr with chgActive := false, chgDone := true, vbakOk := true } } R.pwrEvt 4)) ∧
    (s.pwr.chgDone = true → exec .chargerRestart s = .next { s with
      pwr := { s.pwr with chgActive := true, chgDone := false } })) ∧
  (∀ (s : State) (v : Word), s.regsOn = true →
    (fld v 16 16 ≠ 0xB4C2 → exec (.pwrBakCtlWrite v) s = .next (s.answer .ok 0)) ∧
    (fld v 16 16 = 0xB4C2 → s.pwr.bakSrc = false → s.pwr.chgDone = false →
      exec (.pwrBakCtlWrite v) s = .next (State.answer { s.setReg R.pwrBakCtl (v &&& 0xF7) with
        pwr := { s.pwr with chgActive := bit v 0, chgDone := false } } .ok 0))) ∧
  (∀ s : State, s.mode.coreOn = true → s.pwr.vbakOk = true →
    (bit (s.reg R.pwrBakCtl) 0 = false → exec .vbakLow s = .next { s with pwr := { s.pwr with vbakOk := false } }) ∧
    (bit (s.reg R.pwrBakCtl) 0 = true → s.pwr.vbakLowSaid = false →
      exec .vbakLow s = .next (
        let u := (State.say { s with pwr := { s.pwr with vbakOk := false } } .pwr 0x1005 (s.pwr.vbakMv.setWidth 32) 0 0 0).evt R.pwrEvt 3
        { u with pwr := { u.pwr with vbakLowSaid := true } }))) ∧
  (∀ (s : State) (rail : Fin 4) (mv : Half), s.mode.coreOn = true → s.mode.pf = false → s.safeDue 21 = false →
    exec (.railFault rail mv) s = .next ((State.say { s with pwr := { s.pwr with rails := setBit s.pwr.rails rail.val false } }
      .pwr 0x1006 (BitVec.ofNat 32 (rail.val + 1)) (mv.setWidth 32) 0 0).withSafeCauseFree 21)) ∧
  (∀ (s : State) (deg : Byte), s.mode.mode = .safe → s.mode.safePri = 12 → s.pwr.winter = true →
    (194 < deg.toNat → exec (.tjfMeasurement deg) s = .next { s with pwr := { s.pwr with tjf := deg, tjfOk := 0 } }) ∧
    (deg.toNat ≤ 194 → s.pwr.tjfOk = 7 →
      exec (.tjfMeasurement deg) s = .next { s with pwr := { s.pwr with tjf := deg, tjfOk := 8, thermHold := false } }))

/-- Image staging (03 R89, R92, R93): in Service OPEN, CHECK and CLOSE move the stage, a check ends with its result; outside Service
a command only sets DENIED. -/
def Obligations.StagingCommandsMoveTheStage : Prop :=
  (∀ (s : State) (m : Master), s.regsOn = true → s.mode.mode = .service → s.cfg.stage ≠ .checking →
    exec (.stageOpen m) s = .next (State.answer { s with cfg := { s.cfg with stage := .opened, closing := false } } .ok 0) ∧
    exec (.check m) s = .next (State.answer { s with cfg := { s.cfg with stage := .checking } } .ok 0)) ∧
  (∀ (s : State) (m : Master), s.regsOn = true → s.mode.mode = .service →
    (s.slotJob = false → exec (.stageClose m) s = .next (State.answer { s with cfg := { s.cfg with
      stage := .closed, closing := false, result := if s.cfg.stage = .checking then 0xFF else s.cfg.result } } .ok 0)) ∧
    (s.slotJob = true → exec (.stageClose m) s = .next (State.answer { s with cfg := { s.cfg with
      closing := true
      stage := if s.cfg.stage = .checking then .opened else s.cfg.stage
      result := if s.cfg.stage = .checking then 0xFF else s.cfg.result } } .ok 0))) ∧
  (∀ s : State, s.regsOn = true → s.cfg.stage = .checking →
    (∃ t, exec .checkComplete s = .next t ∧ t.cfg.stage = .checked) ∧
    (s.slotKey 0 = none → ∃ t, exec .checkComplete s = .next t ∧ t.cfg.stage = .checked ∧ t.cfg.result = 6)) ∧
  (∀ s : State, s.regsOn = true → s.mode.mode ≠ .service →
    let denied : Out := .next (State.answer { s with cfg := { s.cfg with denied := true } } .ok 0)
    exec (.stageOpen .core) s = denied ∧ exec (.check .core) s = denied ∧ exec (.stageClose .core) s = denied)

/-- Register accesses (00 R13, R16 to R18): a write sets the stored bits of a register by their access codes and nothing else; a
privileged read of an RC field answers it and clears it; the low word of a pair latches the high one for its master, which the
next read of the high word answers; the low word of a writable pair is staged, the high word applies both. -/
def Obligations.RegisterAccessesFollowTheirCodes : Prop :=
  (∀ (s : State) (r : RegRow) (o : Nat) (v : Word), s.running = true → s.mode.pf = false → s.core.priv = true → s.core.scan = false →
    s.scan.commit = none → o < 0x1C0000 → o % 4 = 0 → s.regRow o = some r → r.rw ||| r.w1c ≠ 0 → isPairRw o = false →
    isPairRw (o - 4) = false → s.regAct .core (s.core.efp != 0) o v = none →
    exec (.registerWrite .core .word (BitVec.ofNat 32 (0x40000000 + o)) v) s = .next ((s.setReg o
      ((s.reg o &&& ~~~(r.rw ||| r.w1c)) ||| (v &&& r.rw) ||| (s.reg o &&& r.w1c &&& ~~~v))).answer .ok 0)) ∧
  (∀ s : State, s.running = true → s.mode.pf = false → s.core.priv = true → s.latched (s.latchKey .core) 0x50144 = none →
    exec (.rcFieldRead .core .word 0x40050144) s = .next ((s.setReg 0x50144 0).answer .ok (s.reg 0x50144))) ∧
  (∀ s : State, s.running = true → s.mode.pf = false → s.core.priv = true →
    (s.latched (s.latchKey .core) 0x10010 = none →
      exec (.pairLowRead .core .word 0x40010010) s = .next (State.answer { s with
        latches := { master := s.latchKey .core, offset := 0x10014, value := (s.time.dt >>> 32).setWidth 32 } ::
          s.latches.filter (fun l => !(l.master == s.latchKey .core && l.offset == 0x10014)) } .ok (s.time.dt.setWidth 32))) ∧
    (∀ w : Word, s.latched (s.latchKey .core) 0x10014 = some w →
      exec (.pairLowRead .core .word 0x40010014) s = .next (s.answer .ok w))) ∧
  (∀ (s : State) (v : Word), s.running = true → s.mode.pf = false → s.core.priv = true → s.core.scan = false → s.scan.commit = none →
    exec (.pairLowWrite .core .word 0x40140030 v) s = .next (State.answer { s with lows := mset 0 s.lows 0x140030 v } .ok 0) ∧
    exec (.pairHighWrite .core .word 0x40140034 v) s = .next ((s.putCan 0 { s.ifc.can[0] with
      rxpend := s.ifc.can[0].rxpend &&& ~~~(v ++ mget 0 s.lows 0x140030 : BitVec 64) }).answer .ok 0))

/-- Channels of the analogue front end (06 R162 to R167): a setting is taken only in Ready and Service and applies at the output
boundary, where its chain is cleared; a modulator reset clears the chain and ends its alignment, and two causes on one modulator
edge are one clear (07 R193, R195); open-wire detection and the test burst keep their state. -/
def Obligations.ChannelEventsTakeEffect : Prop :=
  (∀ (s : State) (n : Fin 16) (v : Word), n.val < s.part.channels → s.regsOn = true → s.afe.pend[n] = none →
    (s.afe.ctl[n] &&& ~~~0x3E#32) ||| (v &&& 0x3E#32) ≠ s.afe.ctl[n] →
    let new := (s.afe.ctl[n] &&& ~~~0x3E#32) ||| (v &&& 0x3E#32)
    (s.readyOrService = true → bit v 4 = false → s.chanEn n = true →
      exec (.afeChCtlWrite n v) s = .next (State.answer { s with afe := { s.afe with pend := vput s.afe.pend n (some new) } } .ok 0)) ∧
    (s.readyOrService = true → bit v 4 = false → s.chanEn n = false →
      exec (.afeChCtlWrite n v) s = .next (State.answer { s with afe := { s.afe with ctl := vput s.afe.ctl n new } } .ok 0)) ∧
    (s.readyOrService = false → exec (.afeChCtlWrite n v) s = .next ((s.evt R.afeEvt 7).answer .ok 0))) ∧
  (∀ (s : State) (n : Fin 16) (v : Word) (c : ChainCfg), n.val < s.part.channels → s.afe.pend[n] = some v →
    s.chainCfg (fin 15 (fldN v 8 4)) = some c →
    ∃ t, exec (.channelSettingApply n) s = .next t ∧ t.afe.ctl[n] = v ∧ t.afe.pend[n] = none ∧
      (t.chain[fin 15 (fldN v 8 4)]).int0 = 0 ∧ (t.chain[fin 15 (fldN v 8 4)]).remain = c.unsettled ∧
      (t.chain[fin 15 (fldN v 8 4)]).aligned = (s.chain[fin 15 (fldN v 8 4)]).aligned) ∧
  (∀ (s : State) (n : Fin 16) (c : ChainCfg), n.val < s.part.channels → s.chanEn n = true → s.converts = true →
    s.chainCfg (s.chanChain n) = some c →
    ∃ t, exec (.modReset n) s = .next t ∧ t.afe.modrst[n] = satInc s.afe.modrst[n] ∧ (t.chain[s.chanChain n]).int0 = 0 ∧
      (t.chain[s.chanChain n]).remain = c.unsettled ∧ (t.chain[s.chanChain n]).modClear = true ∧ t.core = s.core ∧ t.fab = s.fab ∧
      ((s.chain[s.chanChain n]).clearedAt ≠ some s.modEdge → (t.chain[s.chanChain n]).aligned = false ∧
        (t.chain[s.chanChain n]).clears = satInc (s.chain[s.chanChain n]).clears) ∧
      ((s.chain[s.chanChain n]).clearedAt = some s.modEdge →
        (t.chain[s.chanChain n]).aligned = (s.chain[s.chanChain n]).aligned ∧
        (t.chain[s.chanChain n]).clears = (s.chain[s.chanChain n]).clears)) ∧
  (∀ (s : State) (n : Fin 16), n.val < s.part.channels → s.chanEn n = true → s.converts = true → bit s.afe.ctl[n] 5 = true →
    (s.afe.owPos.getLsbD n.val = false →
      ∃ t, exec (.owSet n 1) s = .next t ∧ t.afe = { s.afe with owPos := s.afe.owPos ||| ((1 : BitVec 16) <<< n.val) } ∧
        t.chain = s.chain) ∧
    (s.afe.owNeg.getLsbD n.val = true →
      ∃ t, exec (.owClear n 2) s = .next t ∧ t.afe = { s.afe with owNeg := s.afe.owNeg &&& ~~~((1 : BitVec 16) <<< n.val) } ∧
        t.chain = s.chain)) ∧
  (∀ (s : State) (v : Word), s.regsOn = true → bit v 31 = true →
    (s.readyOrService = true → s.afe.burst = none → ∃ m : BitVec 16,
      exec (.owtGo v) s = .next (State.answer { s.setReg R.afeOwtCtl (v &&& 0x3FFFF) with afe := { s.afe with burst := some m } } .ok 0) ∧
      ∀ n : Fin 16, m.getLsbD n.val = (v.getLsbD n.val && s.chanEn n)) ∧
    (s.readyOrService = false → exec (.owtGo v) s = .next (State.answer { s.setReg R.afeOwtCtl (v &&& 0x3FFFF) with
      afe := { s.afe with owDenied := true } } .ok 0))) ∧
  (∀ (s : State) (pos neg mask : BitVec 16), s.afe.burst = some mask →
    ∃ t, exec (.owtDone pos neg) s = .next t ∧ t.afe.burst = none ∧ t.afe.owOpen = (pos ||| neg) &&& mask ∧ t.afe.owDone = true ∧
      t.afe.owAband = false ∧ t.afe.owLatch = (s.afe.owLatch &&& ~~~mask) ||| ((pos ||| neg) &&& mask) ∧ t.core = s.core)

/-- The SAR, the comparators and their cells (06 R169, R171, R173, R174). -/
def Obligations.SarAndComparatorEventsTakeEffect : Prop :=
  (∀ (s : State) (slot : Fin 20) (uv : Int) (code : BitVec 12), s.sarRuns = true → slot = s.afe.sarNext → slot ≠ 19 →
    (code = 0 ↔ uv * 4096 < 1500000) → (code = 0xFFF ↔ 4095 * 1500000 ≤ uv * 4096) →
    (0 ≤ uv → uv < 1500000 → (code.toNat : Int) * 1500000 ≤ uv * 4096 ∧ uv * 4096 < (code.toNat + 1 : Int) * 1500000) →
    exec (.sarConversion slot uv) s = .next { s with afe := { s.afe with
      sar := vput s.afe.sar slot code
      sarDt := vput s.afe.sarDt slot s.time.dt
      sum := vmod s.afe.sum slot (· + code.toNat)
      sarNext := slot + 1 } }) ∧
  (∀ (s : State) (uv : Int), s.sarRuns = true → s.afe.sarNext = 19 → s.afe.cycles < 49 →
    ∃ t, exec (.sarConversion 19 uv) s = .next t ∧ t.afe.sarNext = 0 ∧ t.afe.cycles = s.afe.cycles + 1 ∧ t.pwr = s.pwr) ∧
  (∀ (s : State) (m : Fin 8) (uv : Int), m.val < s.part.comparators → s.cmpEn m = true → s.mode.past8 = true →
    ∃ t, exec (.comparatorCrossing m uv 0 0) s = .next t ∧ t.core = s.core ∧ t.chain = s.chain ∧
      (∀ i : Nat, i < 32 → i / 4 ≠ m.val → t.afe.cells.getLsbD i = s.afe.cells.getLsbD i) ∧
      let hi : Int := ((s.dacCodes m).1 - 512) * 9375
      let lo : Int := ((s.dacCodes m).2 - 512) * 9375
      let h : Int := 8000 * (fldN s.afe.cmpCtl[m] 0 4 : Nat)
      (hi < 4 * uv → ∀ i : Nat, i < 2 → t.afe.cells.getLsbD (4 * m.val + i) = true) ∧
      (4 * uv < hi - h → ∀ i : Nat, i < 2 → t.afe.cells.getLsbD (4 * m.val + i) = false) ∧
      (hi - h ≤ 4 * uv → 4 * uv ≤ hi → ∀ i : Nat, i < 2 → t.afe.cells.getLsbD (4 * m.val + i) = s.afe.cells.getLsbD (4 * m.val + i)) ∧
      (4 * uv < lo → ∀ i : Nat, 2 ≤ i → i < 4 → t.afe.cells.getLsbD (4 * m.val + i) = true) ∧
      (lo + h < 4 * uv → ∀ i : Nat, 2 ≤ i → i < 4 → t.afe.cells.getLsbD (4 * m.val + i) = false) ∧
      (lo ≤ 4 * uv → 4 * uv ≤ lo + h → ∀ i : Nat, 2 ≤ i → i < 4 →
        t.afe.cells.getLsbD (4 * m.val + i) = s.afe.cells.getLsbD (4 * m.val + i))) ∧
  (∀ (s : State) (pass : BitVec 8), s.mode.coreOn = true → s.mode.past8 = true → s.mode.pf = false →
    ∃ t, exec (.cmpCellTest pass) s = .next t ∧ t.afe.nextCell = s.afe.nextCell + 1 ∧
      (∀ m : Fin 8, s.cmpEn m = true → pass.getLsbD m.val = false →
        t.afe.cellOut.getLsbD (4 * m.val + s.afe.nextCell.val) = true) ∧
      (∀ i, s.afe.cellOut.getLsbD i = true → t.afe.cellOut.getLsbD i = true) ∧
      (pass = 0xFF → t.afe = { s.afe with nextCell := s.afe.nextCell + 1 }) ∧ t.core = s.core ∧ t.chain = s.chain) ∧
  (∀ (s : State) (m : Fin 8) (v : Word), m.val < s.part.comparators → s.regsOn = true →
    (s.afe.cmpCtl[m] &&& ~~~0xF#32) ||| (v &&& 0xF#32) ≠ s.afe.cmpCtl[m] →
    (s.readyOrService = true → exec (.afeCmpCtlWrite m v) s = .next (State.answer { s with
      afe := { s.afe with cmpCtl := vput s.afe.cmpCtl m ((s.afe.cmpCtl[m] &&& ~~~0xF#32) ||| (v &&& 0xF#32)) } } .ok 0)) ∧
    (s.readyOrService = false → exec (.afeCmpCtlWrite m v) s = .next ((s.evt R.afeEvt 7).answer .ok 0)))

/-- Filter chains (07 R189 to R198): an output's word and stamp, synchronising resets, the coefficient check and the rate monitor. -/
def Obligations.FilterChainEventsTakeEffect : Prop :=
  (∀ (s : State) (k n : Fin 16) (c : ChainCfg) (bits : List Bool) (st : ChainSt) (y : Int), k.val < s.part.channels →
    s.feeder k = some n → s.chainCfg k = some c → s.converts = true → s.mode.run = none → bits.length = c.period →
    (s.chain[k]).feed c (s.corr n).1 (s.corr n).2 bits none none = (st, some y, none) →
    ∀ v : Int, v = rshift y c.finalShift → -8388608 ≤ v → v ≤ 8388607 → st.remain = 0 → s.afe.burst = none → st.parityNext = false →
    s.afe.owPos.getLsbD n.val = false → s.afe.owNeg.getLsbD n.val = false → s.afe.owLatch.getLsbD n.val = false →
    ∃ t, exec (.chainOutput k { pre := [], bits := bits, parity := none, cal := false }) s = .next t ∧
      (t.chain[k]).out = at_ k.val 24 ||| (BitVec.ofInt 24 v).setWidth 32 ∧ (t.chain[k]).stamp = s.time.dt ∧
      (t.chain[k]).winCount = st.winCount + 1 ∧ (∀ j : Fin 16, j ≠ k → t.chain[j] = s.chain[j]) ∧ t.core = s.core ∧ t.fab = s.fab) ∧
  (∀ (s : State) (v : Word), s.regsOn = true → fld v 0 16 ≠ 0 →
    (s.readyOrService = true → fld v 0 16 &&& s.chainsOn ≠ 0 →
      ∃ t, exec (.fltSync v) s = .next t ∧ ∀ (k : Fin 16) (c : ChainCfg), s.chainCfg k = some c →
        (v.getLsbD k.val = true → (s.feeder k).isSome = true → (t.chain[k]).int0 = 0 ∧ (t.chain[k]).remain = c.unsettled ∧
          (t.chain[k]).aligned = true ∧
          (t.chain[k]).clears = (if (s.chain[k]).clearedAt = some s.modEdge then (s.chain[k]).clears else satInc (s.chain[k]).clears)) ∧
        (v.getLsbD k.val = false → t.chain[k] = s.chain[k])) ∧
    (s.readyOrService = false → exec (.fltSync v) s = .next ((s.setReg R.fltSyncStat 1).answer .ok 0))) ∧
  (∀ s : State, s.converts = true → s.mode.past10 = true →
    ((∀ k : Fin 16, (s.feeder k).isSome = true → s.coefCrcOf k = (s.chain[k]).crc) → exec (.coefCrc none) s = .next s) ∧
    (∀ (k : Fin 16) (j : Fin 96) (x : Word), (s.feeder k).isSome = true → (s.chain[k]).coefSaid = false →
      ∃ t, exec (.coefCrc (some (k, j, x))) s = .next t ∧
        (t.chain[k]).coef = (s.chain[k]).coef.set j.val ((s.chain[k]).coef.getD j.val 0 ^^^ x) ∧
        (t.coefCrcOf k ≠ (s.chain[k]).crc → (t.chain[k]).coefSaid = true ∧ bit (t.reg R.fltEvt) 4 = true ∧
          (4, k.val) ∈ t.saf.raised ∧ ∃ e ∈ t.log.offered, e.code = 0x8202 ∧ e.source = 0x11 ∧ e.p0 = BitVec.ofNat 32 k.val) ∧
        (t.coefCrcOf k = (s.chain[k]).crc → (t.chain[k]).coefSaid = false) ∧ t.core = s.core)) ∧
  (∀ s : State, s.converts = true → s.mode.past10 = true →
    ∃ t, exec .rateMon s = .next t ∧ ∀ (k : Fin 16) (c : ChainCfg), (s.feeder k).isSome = true → s.chainCfg k = some c →
      (t.chain[k]).winCount = 0 ∧ (t.chain[k]).out = (s.chain[k]).out ∧
      (t.chain[k]).rateBad = (decide (c.rate / 1000 + 1 < (s.chain[k]).winCount) || decide ((s.chain[k]).winCount + 1 < c.rate / 1000)))

/-- The protection fabric: threshold units, timers, BST inputs, settings (08 R205, R212, R213, R225, R227, R228). -/
def Obligations.FabricEventsAndSettingsTakeEffect : Prop :=
  (∀ (s : State) (k : Fin 16) (c : FabCfg) (ch : ChainCfg), k.val < s.part.channels → s.fabCfg = some c → s.chainCfg k = some ch →
    s.fabOn = true → s.mode.past10 = true → (s.chain[k]).due = true → s.time.dt.toNat % 10 = 0 →
    (s.chain[k]).stamp.toNat + 30 ≤ s.time.dt.toNat → bit (s.chain[k]).out 31 = false →
    ∃ t, exec (.thresholdEvaluation k) s = .next t ∧ t.core = s.core ∧
      t.chain = vmod s.chain k (fun x => { x with due := false }) ∧
      ∀ u : Fin 64, (c.tu[u]).chain = k → (c.tu[u]).en = true → (c.tu[u]).abs = false → (c.tu[u]).below = false →
        let th : Int := ((s.setWord s.fab.group u.val).setWidth 24 : BitVec 24).toInt
        let data : Int := ((s.chain[k]).out.setWidth 24 : BitVec 24).toInt
        (th < data → t.fab.tu.getLsbD u.val = true) ∧
        (data ≤ th → data ≤ th - (th.natAbs / 32 : Nat) → t.fab.tu.getLsbD u.val = false) ∧
        (data ≤ th → th - (th.natAbs / 32 : Nat) < data → t.fab.tu.getLsbD u.val = s.fab.tu.getLsbD u.val)) ∧
  (∀ (s : State) (n : Fin 32) (c : FabCfg), s.fabCfg = some c → s.fabOn = true → (c.timer[n]).en = true →
    s.sig (c.timer[n]).reset = false →
    ((c.timer[n]).mode = 0 → s.sig (c.timer[n]).start = true → (s.fab.timer[n]).out = false →
      ∃ t, exec (.fabricTimerExpiry n) s = .next t ∧ t.fab.timer[n] = { cnt := s.setWord s.fab.group (112 + n.val), out := true }) ∧
    ((c.timer[n]).mode = 1 → s.sig (c.timer[n]).start = false → (s.fab.timer[n]).out = true →
      ∃ t, exec (.fabricTimerExpiry n) s = .next t ∧ t.fab.timer[n] = { cnt := s.setWord s.fab.group (112 + n.val), out := false })) ∧
  (∀ (s : State) (n : Fin 12) (level : Bool), s.fabOn = true →
    ∃ t, exec (.bstChange n level) s = .next t ∧ t.fab.bstRaw = setBit s.fab.bstRaw n.val level ∧
      t.fab.bst = setBit s.fab.bst n.val (level ^^ bit (s.reg (R.fabBstCfg n.val)) 8) ∧ t.core = s.core) ∧
  (∀ (s : State) (n : Fin 12) (v : Word), s.regsOn = true →
    (s.readyOrService = true → exec (.bstCfgWrite n v) s = .next ((s.setReg (R.fabBstCfg n.val) (v &&& 0x1FF)).answer .ok 0)) ∧
    (s.readyOrService = false → exec (.bstCfgWrite n v) s = .next ((s.evt R.fabEvt 7).answer .ok 0))) ∧
  (∀ s : State, s.fabOn = true → (∀ g : Fin 4, groupCrc s.fab.set[g] = s.fab.crc[g]) →
    exec (.settingsCrcCheck none) s = .next s ∧
    (∀ (g : Fin 4) (w : Fin 160) (x : Word), x ≠ 0 → s.safeDue 13 = false →
      exec (.settingsCrcCheck (some (false, g, w, x))) s = .next ((s.say .fab 0x8301 (BitVec.ofNat 32 (0x3F0 + g.val)) s.fab.crc[g] 0 0).withSafeCause 13
        (BitVec.ofNat 32 (0x3F0 + g.val)))) ∧
    (∀ (g : Fin 4) (w : Fin 160) (x : Word), s.safeDue 13 = false →
      let ws := (s.fab.set[g]).set w.val ((s.fab.set[g]).getD w.val 0 ^^^ x)
      groupCrc ws ≠ s.fab.crc[g] →
      exec (.settingsCrcCheck (some (true, g, w, x))) s = .next ((State.say { s with fab := { s.fab with set := vput s.fab.set g ws } }
        .fab 0x8301 (BitVec.ofNat 32 (0x3F0 + g.val)) (groupCrc ws) 0 0).withSafeCause 13 (BitVec.ofNat 32 (0x3F0 + g.val))))) ∧
  (∀ (s : State) (v : Word), s.regsOn = true → bit v 31 = true →
    ∃ g : Fin 4, g.val = v.toNat % 4 ∧ exec (.fabGrpReq v) s = .next (State.answer { s.setReg R.fabGrpReq (v &&& 3) with
      fab := { s.fab with grpReq := some g } } .ok 0)) ∧
  (∀ (s : State) (g : Fin 4) (w : Nat) (v : Word), s.regsOn = true → g = fin 3 (fldN (s.reg R.fabSetSel) 0 2) →
    w = fldN (s.reg R.fabSetSel) 8 8 →
    (s.mode.mode = .service → g ≠ s.fab.group → w < 160 → settingOk s.fab.set[g] w v = true →
      exec (.fabSetDataWrite v) s = .next (State.answer { s with fab := { s.fab with
        set := vput s.fab.set g ((s.fab.set[g]).set w v), crc := vput s.fab.crc g (groupCrc ((s.fab.set[g]).set w v)) } } .ok 0)) ∧
    (s.mode.mode ≠ .service ∨ g = s.fab.group → exec (.fabSetDataWrite v) s = .next ((s.evt R.fabEvt 7).answer .ok 0)))

/-- Trips and drivers: a trip-reset pulse reports what it cleared and what it refused, a driver overload turns its driver off, a
mismatch goes to Safe (08 R215, R222 to R224). -/
def Obligations.TripAndDriverEventsTakeEffect : Prop :=
  (∀ (s : State) (v : Word) (c : FabCfg), s.regsOn = true → s.fabCfg = some c → s.fabOn = true →
    (fld v 16 16 = 0x7E51 → exec (.tripReset v) s = .next (State.answer { s with
      fab := { s.fab with rstReq := s.fab.rstReq ||| c.latchedMask (fld v 0 12) } } .ok 0)) ∧
    (fld v 16 16 ≠ 0x7E51 → exec (.tripReset v) s = .next (s.answer .ok 0))) ∧
  (∀ (s : State) (c : FabCfg) (m : BitVec 12), m = c.latchedMask s.fab.rstReq → m ≠ 0 →
    ∃ refused e, refused = m &&& (s.tripResetTick c 0).fab.trip ∧ (s.tripResetTick c 0).log.offered.getLast? = some e ∧
      e.code = 0x2303 ∧ e.source = 0x20 ∧ e.p0 = (m &&& ~~~refused).setWidth 32 ∧ e.p1 = refused.setWidth 32 ∧ e.p2 = 1 ∧
      (s.tripResetTick c 0).fab.rstReq = 0 ∧ (s.tripResetTick c 0).fab.pulse = m &&& ~~~refused) ∧
  (∀ (s : State) (d : Fin 4) (ma : BitVec 12), s.fab.kdrv.getLsbD d.val = true →
    exec (.kdrvOc d ma) s = .next ((State.evt { s with fab := { s.fab with kdrv := setBit s.fab.kdrv d.val false,
                                                                           kdrvOc := setBit s.fab.kdrvOc d.val true,
                                                                             kdrvMa := vput s.fab.kdrvMa d ma } } R.fabEvt 6).sayRate 1000000 d.val .fab 0x2308
      (BitVec.ofNat 32 d.val) (ma.setWidth 32) 0 0) ∧
    exec (.kdrvOpen d ma) s = .next ((State.evt { s with fab := { s.fab with kdrvOpen := setBit s.fab.kdrvOpen d.val true,
                                                                             kdrvMa := vput s.fab.kdrvMa d ma } } R.fabEvt 6).sayRate 100000000 d.val .fab 0x2309 (BitVec.ofNat 32 d.val) 0 0 0)) ∧
  (∀ (s : State) (elem : BitVec 10), s.fabOn = true → 8 ≤ elem.toNat → elem.toNat < 512 → s.safeDue 13 = false →
    exec (.fabCmp elem) s = .next ((s.say .fab 0x8301 (elem.setWidth 32) (bitAt (s.sig elem) 0) 0 0).withSafeCause 13 (elem.setWidth 32))) ∧
  (∀ (s : State) (out : Fin 36) (i : Nat), s.fabOn = true → s.safeDue 14 = false → s.rbIndex out = some i →
    exec (.readback out) s = .next ((State.say { s with fab := { s.fab with rbBad := setBit s.fab.rbBad i true } }
      .fab 0x8302 (BitVec.ofNat 32 out.val) (bitAt (s.commanded.getLsbD i) 0) (bitAt (!s.commanded.getLsbD i) 0) 0).withSafeCause 14
      (BitVec.ofNat 32 out.val)))

/-- The disturbance recorder (10 R271, R273, R275, R278, R282, R285, R289, R290): a sample writes one frame and counts it, arming
and disarming, the sequencers' enables and software triggers, the parity check that stops a sequencer, and the drain that frees
the oldest sealed slot or, after its retry, loses it. -/
def Obligations.RecorderEventsTakeEffect : Prop :=
  (∀ (s : State) (c : RecCfg), s.recCfg = some c → s.recRuns = true →
    (∀ n : Fin 8, s.recd.active = some n → (s.recd.slot[n]).st = .capture → s.recd.brmCtl = 0 →
      (∀ q : Fin 4, (s.recd.seqs[q]).en = false) →
      ∃ t, exec (.recorderSample none) s = .next t ∧ (t.recd.slot[n]).written = (s.recd.slot[n]).written + 1 ∧
        (t.recd.slot[n]).st = .capture ∧
        t.recd.swtrig = 0 ∧ t.recd.mem = mwrite 0 s.recd.mem (n.val * c.slotBytes + 64 + 4 * c.ch.length * ((s.recd.slot[n]).written % c.cap))
          (c.ch.flatMap (fun e => bytesLE (s.recWord e))) ∧ t.core = s.core ∧ t.mem = s.mem) ∧
    (s.recd.active = none → s.recd.arm = true → s.running = true → s.mode.starting = false → s.mode.m9 = none → s.mode.pf = false →
      0 < s.cells c → 0 < c.nslot → (s.recd.slot[(0 : Fin 8)]).st = .free →
      s.recd.brmCtl = 0 → (∀ q : Fin 4, (s.recd.seqs[q]).en = false) →
      ∃ t, exec (.recorderSample none) s = .next t ∧ t.recd.active = some 0 ∧ (t.recd.slot[(0 : Fin 8)]).st = .capture ∧
        (t.recd.slot[(0 : Fin 8)]).written = 1)) ∧
  (∀ (s : State) (c : RecCfg) (q : Fin 4), s.recCfg = some c → s.recRuns = true → (s.recd.seqs[q]).stopped = false →
    ∃ t, exec (.recorderSample (some q)) s = .next t ∧ (t.recd.seqs[q]).stopped = true ∧ (t.recd.seqs[q]).en = false ∧
      (t.recd.seqs[q]).q = (s.recd.seqs[q]).q ∧ ∃ e ∈ t.log.offered, e.code = 0x8402 ∧ e.source = 0x30 ∧ e.p0 = BitVec.ofNat 32 q.val) ∧
  (∀ (s : State) (c : RecCfg), s.regsOn = true → s.recCfg = some c →
    (s.recd.arm = false → exec .recArm s = .next (State.answer { s with recd := { s.recd with arm := true, disarmed := true } } .ok 0)) ∧
    (s.recd.active = none → exec .recDisarm s = .next (State.answer { s with recd := { s.recd with arm := false } } .ok 0)) ∧
    (∀ n : Fin 8, s.recd.active = some n → (s.recd.slot[n]).st = .capture → exec .recDisarm s = .next (((State.evt { s with
      recd := { s.recd with arm := false, active := none, slot := vput s.recd.slot n RecSlot.reset } } R.recEvt 4).say .recd 0x3004 0
        (BitVec.ofNat 32 n.val) 1 0).answer .ok 0))) ∧
  (∀ (s : State) (v : Word), s.regsOn = true →
    exec (.brmCtlWrite v) s = .next (State.answer { s with recd := { s.recd with brmCtl := v.extractLsb' 0 4 } } .ok 0) ∧
    exec (.brmSwtrig v) s = .next (State.answer { s with recd := { s.recd with swtrig := s.recd.swtrig ||| v.extractLsb' 0 8 } } .ok 0)) ∧
  (∀ (s : State) (c : RecCfg) (n : Fin 8) (rest : List (Fin 8)) (us : Word) (b : Byte), s.recCfg = some c → s.recd.order = n :: rest →
    s.mode.coreOn = true → s.mode.starting = false → s.recd.known = true →
    (s.recd.retried = true → ∃ t, exec (.drained us (some b) none) s = .next t ∧ t.recd.order = rest ∧ (t.recd.slot[n]).st = .free ∧
      t.recd.retried = false ∧ t.recd.wptr = s.recd.wptr) ∧
    (s.recd.retried = false → s.recd.wptr + 1 < s.cells c → ∃ t, exec (.drained us (some b) none) s = .next t ∧
      t.recd.order = s.recd.order ∧
      t.recd.retried = true ∧ t.recd.wptr = s.recd.wptr + 1) ∧
    (s.recd.retried = false → s.bscan = false → s.recd.wptr + 1 < s.cells c → ∃ t, exec (.drained us none none) s = .next t ∧
      t.recd.wptr = s.recd.wptr + 1 ∧
      (if (s.drainWrite c n).2 then t.recd.order = rest ∧ (t.recd.slot[n]).st = .free ∧ t.recd.retried = false
       else t.recd.order = s.recd.order ∧ t.recd.retried = true)) ∧
    (∀ (fail : Option Byte) (o : BitVec 19), (s.recd.slot[n]).ecc = false → n.val < c.nslot → o.toNat < c.slotBytes →
      ∃ t, exec (.drained us fail (some o)) s = .next t ∧ ∃ e ∈ t.log.offered, e.code = 0x8401 ∧ e.source = 0x30 ∧
        e.p0 = BitVec.ofNat 32 n.val ∧ e.p1 = o.setWidth 32))

/-- Integer operations of units A and M on two registers and on a register and an immediate (12 R318, R320, R333, R334, Table ISA-5):
rd takes the result, the pc moves past the bundle, and nothing else of the part changes. -/
def Obligations.IntegerOperationsWriteResult : Prop :=
  (∀ (s : State) (o : SylEnc), BundleReady s o [o.rd, o.ra, o.rb] → o.ext = none → o.f = 0 →
    let a := s.rf o.ra
    let b := s.rf o.rb
    let wrote (v : Word) : Out := .next (s.afterBundle (s.core.pc + 4) 1 (fun c => c.put o.rd.toNat v))
    exec (.add o) s = wrote (a + b) ∧
    exec (.sub o) s = wrote (a - b) ∧
    exec (.and o) s = wrote (a &&& b) ∧
    exec (.or o) s = wrote (a ||| b) ∧
    exec (.xor o) s = wrote (a ^^^ b) ∧
    exec (.shl o) s = wrote (a <<< (b.toNat % 32)) ∧
    exec (.shr o) s = wrote (a >>> (b.toNat % 32)) ∧
    exec (.sar o) s = wrote (a.sshiftRight (b.toNat % 32)) ∧
    exec (.min o) s = wrote (if a.toInt < b.toInt then a else b) ∧
    exec (.max o) s = wrote (if a.toInt < b.toInt then b else a) ∧
    exec (.mul o) s = wrote (a * b) ∧
    exec (.mulh o) s = wrote (BitVec.ofInt 32 (a.toInt * b.toInt / 2 ^ 32)) ∧
    exec (.mulhu o) s = wrote (BitVec.ofNat 32 (a.toNat * b.toNat / 2 ^ 32)) ∧
    exec (.mulq o) s = wrote (
      let v := (a.toInt * b.toInt + 2 ^ 30) / 2 ^ 31
      if v < -(2 ^ 31) then 0x80000000 else if 2 ^ 31 ≤ v then 0x7FFFFFFF else BitVec.ofInt 32 v)) ∧
  (∀ (s : State) (o : SylEnc), BundleReady s o [o.rd, o.ra] → (∀ e, o.ext = some e → e.extractLsb' 23 6 = 0) →
    let a := s.rf o.ra
    let i : Word := match o.ext with
      | none => (o.rb ++ o.f : BitVec 9).signExtend 32
      | some e => ((e.setWidth 23 : BitVec 23) ++ (o.rb ++ o.f : BitVec 9) : BitVec 32)
    let wrote (v : Word) : Out := .next (s.afterBundle (s.pcAfter o) 1 (fun c => c.put o.rd.toNat v))
    exec (.addi o) s = wrote (a + i) ∧
    exec (.andi o) s = wrote (a &&& i) ∧
    exec (.ori o) s = wrote (a ||| i) ∧
    exec (.xori o) s = wrote (a ^^^ i) ∧
    exec (.muli o) s = wrote (a * i)) ∧
  (∀ (s : State) (o : SylEnc), BundleReady s o [o.rd, o.ra] → o.ext = none → (o.rb ++ o.f : BitVec 9).toNat < 32 →
    let a := s.rf o.ra
    let n := (o.rb ++ o.f : BitVec 9).toNat
    let wrote (v : Word) : Out := .next (s.afterBundle (s.core.pc + 4) 1 (fun c => c.put o.rd.toNat v))
    exec (.shli o) s = wrote (a <<< n) ∧
    exec (.shri o) s = wrote (a >>> n) ∧
    exec (.sari o) s = wrote (a.sshiftRight n))

/-- Temperature warnings and shutdown (05 R147 to R149, R153): eight consecutive measurements qualify a crossing; a warning that
sets or clears sets TWARN for its sensor, its event bit and one entry; a shutdown crossing of any sensor goes to Safe with cause
THERMAL. Nothing else changes. -/
def Obligations.TemperatureCrossingsTakeEffect : Prop :=
  ∀ (s : State) (n : Fin 3), s.mode.coreOn = true →
    let deg := s.pwr.reading n
    (8 ≤ s.pwr.tHigh[n] → s.pwr.twarn.getLsbD n.val = false →
      exec (.tempWarn n) s = .next ((State.evt { s with pwr := { s.pwr with twarn := setBit s.pwr.twarn n.val true } }
        R.pwrEvt 0).say .therm 0x1010 (BitVec.ofNat 32 n.val) (BitVec.ofInt 32 (deg.toNat - 64)) 0 0)) ∧
    (8 ≤ s.pwr.tLow[n] → s.pwr.twarn.getLsbD n.val = true →
      exec (.tempClear n) s = .next ((State.evt { s with pwr := { s.pwr with twarn := setBit s.pwr.twarn n.val false } }
        R.pwrEvt 1).say .therm 0x1011 (BitVec.ofNat 32 n.val) (BitVec.ofInt 32 (deg.toNat - 64)) 0 0)) ∧
    (8 ≤ s.pwr.tShut[n] → s.safeDue 12 = false →
      ∃ t, exec (.tempShutdown n) s = .next t ∧ t.mode = { s.mode with
          safePend := s.mode.safePend ++ [(12, BitVec.ofNat 32 n.val, s.time.dt)] } ∧
        t.pwr = (if 8 ≤ s.pwr.tHigh[n] then { s.pwr with twarn := setBit s.pwr.twarn n.val true } else s.pwr) ∧
        t.core = s.core ∧ t.mem = s.mem ∧ ∃ e, t.log.offered.getLast? = some e ∧ e.code = 0x1012 ∧ e.source = 0x05 ∧
          e.p0 = BitVec.ofNat 32 n.val ∧ e.p1 = BitVec.ofInt 32 (deg.toNat - 64)) ∧
    (s.pwr.tShut[n] < 8 → 8 ≤ s.pwr.tOut[n] → s.safeDue 12 = false →
      exec (.tempShutdown n) s = .next (s.withSafeCause 12 (BitVec.ofNat 32 n.val))) ∧
    (∀ a b c : Byte,
      let p := s.pwr.temps a b c
      let x := (if n.val = 0 then a else if n.val = 1 then b else c).toNat
      p.tHigh[n] = (if 135 + 64 < x then min 8 (s.pwr.tHigh[n] + 1) else 0) ∧
      p.tLow[n] = (if x ≤ 130 + 64 then min 8 (s.pwr.tLow[n] + 1) else 0) ∧
      p.tShut[n] = if 150 + 64 < x then min 8 (s.pwr.tShut[n] + 1) else 0)

/-- Compares and predicate logic (12 R321, R334, Table ISA-5): a compare writes its predicate and the complement, PLOG its function;
the pc moves on and nothing else changes. -/
def Obligations.CompareAndPredicateLogicWritePredicates : Prop :=
  (∀ (s : State) (o : SylEnc) (pd pe : BitVec 3), BundleReady s o [o.ra, o.rb] → o.ext = none → o.f = 0 → o.rd = pe ++ pd →
    (pd = pe → pd = 0) →
    let a := s.rf o.ra
    let b := s.rf o.rb
    let wrote (r : Bool) : Out := .next (s.afterBundle (s.core.pc + 4) 1 (fun c => (c.putPred pd r).putPred pe (!r)))
    exec (.cmpeq o) s = wrote (a == b) ∧
    exec (.cmplt o) s = wrote (decide (a.toInt < b.toInt)) ∧
    exec (.cmpltu o) s = wrote (decide (a.toNat < b.toNat))) ∧
  (∀ (s : State) (o : SylEnc) (pd pe : BitVec 3), BundleReady s o [o.ra] → (∀ e, o.ext = some e → e.extractLsb' 23 6 = 0) →
    o.rd = pe ++ pd → (pd = pe → pd = 0) →
    let a := s.rf o.ra
    let wrote (r : Bool) : Out := .next (s.afterBundle (s.pcAfter o) 1 (fun c => (c.putPred pd r).putPred pe (!r)))
    exec (.cmpeqi o) s = wrote (a == immOf o) ∧
    exec (.cmplti o) s = wrote (decide (a.toInt < (immOf o).toInt)) ∧
    exec (.cmpltui o) s = wrote (decide (a.toNat < (immOf o).toNat))) ∧
  (∀ (s : State) (o : SylEnc), BundleReady s o [] → o.ext = none → o.rd.toNat < 8 → o.ra.toNat < 8 → o.rb.toNat < 8 →
    o.f.toNat < 4 →
    let a := s.core.pred o.ra.toNat
    let b := s.core.pred o.rb.toNat
    exec (.plog o) s = .next (s.afterBundle (s.core.pc + 4) 1 (fun c => c.putPred (o.rd.setWidth 3)
      (if o.f = 0 then a && b else if o.f = 1 then a || b else if o.f = 2 then a != b else a && !b))))

/-- SEL, EXT, CLZ, the divisions by a divisor that is not 0 and the trapping sums that do not overflow (12 R334 to R336, Table ISA-5):
rd takes the result after the instruction's cycles and nothing else changes. -/
def Obligations.SelectExtendCountDivideTrapAddWriteResult : Prop :=
  (∀ (s : State) (o : SylEnc), BundleReady s o [o.rd, o.ra, o.rb] → o.ext = none →
    exec (.sel o) s = .next (s.afterBundle (s.core.pc + 4) 1 (fun c =>
      c.put o.rd.toNat (if s.core.pred o.f.toNat then s.rf o.ra else s.rf o.rb)))) ∧
  (∀ (s : State) (o : SylEnc), BundleReady s o [o.rd, o.ra] → o.ext = none → o.rb = 0 →
    let a := s.rf o.ra
    let wrote (v : Word) : Out := .next (s.afterBundle (s.core.pc + 4) 1 (fun c => c.put o.rd.toNat v))
    (o.f = 0 → exec (.ext o) s = wrote ((a.setWidth 8).signExtend 32)) ∧
    (o.f = 1 → exec (.ext o) s = wrote ((a.setWidth 16).signExtend 32)) ∧
    (o.f = 2 → exec (.ext o) s = wrote ((a.setWidth 8).setWidth 32)) ∧
    (o.f = 3 → exec (.ext o) s = wrote ((a.setWidth 16).setWidth 32)) ∧
    (o.f = 0 → ∀ n : Nat, n ≤ 32 → (∀ i, 32 - n ≤ i → a.getLsbD i = false) → (n < 32 → a.getLsbD (31 - n) = true) →
      exec (.clz o) s = wrote (BitVec.ofNat 32 n))) ∧
  (∀ (s : State) (o : SylEnc), BundleReady s o [o.rd, o.ra, o.rb] → o.ext = none → o.f = 0 →
    let a := s.rf o.ra
    let b := s.rf o.rb
    let wrote (n : Nat) (v : Word) : Out := .next (s.afterBundle (s.core.pc + 4) n (fun c => c.put o.rd.toNat v))
    ((BitVec.ofInt 32 (a.toInt + b.toInt)).toInt = a.toInt + b.toInt →
      exec (.addt o) s = wrote (if s.core.precise then 3 else 1) (a + b)) ∧
    ((BitVec.ofInt 32 (a.toInt - b.toInt)).toInt = a.toInt - b.toInt →
      exec (.subt o) s = wrote (if s.core.precise then 3 else 1) (a - b)) ∧
    (b ≠ 0 →
      exec (.div o) s = wrote 18 (BitVec.ofInt 32 (Int.tdiv a.toInt b.toInt)) ∧
      exec (.divu o) s = wrote 18 (BitVec.ofNat 32 (a.toNat / b.toNat)) ∧
      exec (.rem o) s = wrote 18 (BitVec.ofInt 32 (Int.tmod a.toInt b.toInt)) ∧
      exec (.remu o) s = wrote 18 (BitVec.ofNat 32 (a.toNat % b.toNat))))

/-- Loads from DTCM (12 R325, R329, R331, R332): the bytes of the address, extended as the instruction says, reach rd at the end of the
second bundle after; until then the load is only waiting. -/
def Obligations.LoadsDeliverDtcmBytesAfterTheirDelay : Prop :=
  (∀ (s : State) (o : SylEnc) (x : Word), BundleReady s o [o.rd, o.ra] → (∀ e, o.ext = some e → e.extractLsb' 23 6 = 0) →
    x = s.rf o.ra + immOf o →
    let got (n : Nat) : Word := BitVec.ofNat 32 (natLE (mread 0 s.mem.dtcm (x.toNat - 0x10000000) n))
    let loads (v : Word) : Out := .next (s.afterBundle (s.pcAfter o) 1 (fun c =>
      { c with loads := c.loads ++ [{ reg := s.core.phys o.rd.toNat, value := v, left := 2 }] }))
    (0x10000000 ≤ x.toNat → x.toNat + 4 ≤ 0x10040000 → x.toNat % 4 = 0 → exec (.ldw o) s = loads (got 4)) ∧
    (0x10000000 ≤ x.toNat → x.toNat + 2 ≤ 0x10040000 → x.toNat % 2 = 0 →
      exec (.ldh o) s = loads (((got 2).setWidth 16).signExtend 32) ∧ exec (.ldhu o) s = loads (got 2)) ∧
    (0x10000000 ≤ x.toNat → x.toNat < 0x10040000 →
      exec (.ldb o) s = loads (((got 1).setWidth 8).signExtend 32) ∧ exec (.ldbu o) s = loads (got 1))) ∧
  (∀ (s : State) (o : SylEnc) (x : Word), BundleReady s o [o.rd, o.ra, o.rb] → o.ext = none → x = s.rf o.ra + s.rf o.rb →
    let got (n : Nat) : Word := BitVec.ofNat 32 (natLE (mread 0 s.mem.dtcm (x.toNat - 0x10000000) n))
    let loads (v : Word) : Out := .next (s.afterBundle (s.core.pc + 4) 1 (fun c =>
      { c with loads := c.loads ++ [{ reg := s.core.phys o.rd.toNat, value := v, left := 2 }] }))
    0x10000000 ≤ x.toNat → x.toNat < 0x10040000 → x.toNat % 4 = 0 →
    (o.f = 0 → exec (.ldx o) s = loads (got 4)) ∧
    (o.f = 1 → exec (.ldx o) s = loads (((got 2).setWidth 16).signExtend 32)) ∧
    (o.f = 2 → exec (.ldx o) s = loads (got 2)) ∧
    (o.f = 3 → exec (.ldx o) s = loads (((got 1).setWidth 8).signExtend 32)) ∧
    (o.f = 4 → exec (.ldx o) s = loads (got 1)))

/-- Stores to DTCM outside its input image (12 R329, R331, R332): the bytes at the address take the low bytes of rd, every other
byte reads as before, no register changes. -/
def Obligations.StoresWriteOnlyTheirDtcmBytes : Prop :=
  (∀ (s : State) (o : SylEnc) (x : Word), BundleReady s o [o.rd, o.ra] → (∀ e, o.ext = some e → e.extractLsb' 23 6 = 0) →
    x = s.rf o.ra + immOf o → 0x10000000 ≤ x.toNat → x.toNat < 0x10040000 → x.toNat < 0x1003E000 ∨ 0x1003F000 ≤ x.toNat →
    let stored (n : Nat) : Out := .next { s.afterBundle (s.pcAfter o) 1 id with
      mem := { s.mem with dtcm := mwrite 0 s.mem.dtcm (x.toNat - 0x10000000) ((bytesLE (s.rf o.rd)).take n) } }
    (x.toNat % 4 = 0 → exec (.stw o) s = stored 4) ∧
    (x.toNat % 2 = 0 → exec (.sth o) s = stored 2) ∧
    exec (.stb o) s = stored 1) ∧
  (∀ (s : State) (o : SylEnc) (x : Word), BundleReady s o [o.rd, o.ra, o.rb] → o.ext = none → x = s.rf o.ra + s.rf o.rb →
    0x10000000 ≤ x.toNat → x.toNat < 0x10040000 → x.toNat < 0x1003E000 ∨ 0x1003F000 ≤ x.toNat →
    let stored (n : Nat) : Out := .next { s.afterBundle (s.core.pc + 4) 1 id with
      mem := { s.mem with dtcm := mwrite 0 s.mem.dtcm (x.toNat - 0x10000000) ((bytesLE (s.rf o.rd)).take n) } }
    (o.f = 0 → x.toNat % 4 = 0 → exec (.stx o) s = stored 4) ∧
    (o.f = 1 → x.toNat % 2 = 0 → exec (.stx o) s = stored 2) ∧
    (o.f = 3 → exec (.stx o) s = stored 1)) ∧
  (∀ (m : List Host.Cell) (a n i : Nat) (v : Word), n ≤ 4 → i < a ∨ a + n ≤ i →
    mget 0 (mwrite 0 m a ((bytesLE v).take n)) i = mget 0 m i)

/-- Jumps, calls and returns (12 R318, R324, Table ISA-5): the pc takes the target, a call writes the return address into h23 and
moves the window on, a return takes h7 and moves it back; nothing else changes. -/
def Obligations.ControlTransfersMoveThePcAndTheWindow : Prop :=
  (∀ (s : State) (o : SylEnc) (t : Word), BundleReady s o [] → o.ext = none → t.toNat % 4 = 0 →
    t = s.core.pc + ((o.rd ++ o.ra ++ o.rb ++ o.f : BitVec 21).signExtend 32) <<< 2 →
    exec (.br o) s = .next (s.afterBundle t 2 id) ∧
    (s.core.df = false → s.core.wtrap = false → s.core.cwp + 1 ≠ s.core.rw →
      exec (.call o) s = .next (s.afterBundle t 2 (fun c => { c.put 55 (s.core.pc + 4) with cwp := s.core.cwp + 1 })))) ∧
  (∀ (s : State) (o : SylEnc), BundleReady s o [o.ra] → o.ext = none → o.rd = 0 → o.rb = 0 → o.f = 0 → (s.rf o.ra).toNat % 4 = 0 →
    exec (.jr o) s = .next (s.afterBundle (s.rf o.ra) 2 id) ∧
    (s.core.df = false → s.core.wtrap = false → s.core.cwp + 1 ≠ s.core.rw →
      exec (.callr o) s = .next (s.afterBundle (s.rf o.ra) 2 (fun c =>
        { c.put 55 (s.core.pc + 4) with cwp := s.core.cwp + 1 })))) ∧
  (∀ (s : State) (o : SylEnc), BundleReady s o [] → o.ext = none → o.rd = 0 → o.ra = 0 → o.rb = 0 → o.f = 0 → s.core.df = false →
    s.core.wtrap = false → s.core.cwp - 1 ≠ s.core.rw → (s.core.get 39).toNat % 4 = 0 →
    exec (.ret o) s = .next (s.afterBundle (s.core.get 39) 2 (fun c => { c with cwp := s.core.cwp - 1 })))

/-- SCALL and SRET (12 R337), MFSR and MTSR (13 R381, Table ISA-5 and the table of special registers), SYNC, FENCE, IDLE with a request
pending and ZWAIT for a tag that no queued chain has (12 R336 to R339): each has its effect and changes nothing else. -/
def Obligations.SystemCallsAndSystemRegistersTakeEffect : Prop :=
  (∀ (s : State) (o : SylEnc), BundleReady s o [] → o.ext = none → o.rd = 0 → o.ra = 0 → s.core.priv = false →
    exec (.scall o) s = .next (s.afterBundle s.core.sceEntry 3 (fun c =>
      { c.put 31 s.core.sceSp with xcode := o.rb ++ o.f, xpc := s.core.pc + 4, xpsr := s.core.psr, sceSp := s.core.get 31,
                                   priv := true }))) ∧
  (∀ (s : State) (o : SylEnc), BundleReady s o [] → o.ext = none → o.rd = 0 → o.ra = 0 → o.rb = 0 → o.f = 0 → s.core.priv = true →
    exec (.sret o) s = .next (s.afterBundle s.core.xpc 3 (fun c =>
      { (c.put 31 s.core.sceSp).setPsr s.core.xpsr with sceSp := s.core.get 31 }))) ∧
  (∀ (s : State) (o : SylEnc), BundleReady s o [o.rd] → o.ext = none → o.ra = 0 → s.core.priv = true →
    (∀ n : Nat, n = (o.rb ++ o.f : BitVec 9).toNat → srAllocated n = true → n ≠ 8 → n ≠ 9 → n < 0x20 ∨ 0x30 ≤ n →
      exec (.mfsr o) s = .next (s.afterBundle (s.core.pc + 4) 1 (fun c => c.put o.rd.toNat (s.core.sr n)))) ∧
    ((o.rb ++ o.f : BitVec 9).toNat = 8 →
      exec (.mfsr o) s = .next { s.afterBundle (s.core.pc + 4) 1 (fun c => c.put o.rd.toNat (s.core.cyc.setWidth 32)) with
        latches := { master := s.latchKey .core, offset := cycLatch, value := (s.core.cyc >>> 32).setWidth 32 } ::
          s.latches.filter (fun l => !(l.master == s.latchKey .core && l.offset == cycLatch)) })) ∧
  (∀ (s : State) (o : SylEnc), BundleReady s o [o.ra] → o.ext = none → o.rd = 0 → s.core.priv = true →
    let v := s.rf o.ra
    let wrote (f : CoreSt → CoreSt) : Out := .next (s.afterBundle (s.core.pc + 4) 1 f)
    ((o.rb ++ o.f : BitVec 9) = 0x00 → exec (.mtsr o) s = wrote (fun c =>
      { c with priv := v.getLsbD 0, ie := v.getLsbD 1, precise := v.getLsbD 3, mask := v.extractLsb' 4 4 })) ∧
    ((o.rb ++ o.f : BitVec 9) = 0x01 → exec (.mtsr o) s = wrote (fun c => { c with cwp := v.extractLsb' 0 3, rw := v.extractLsb' 8 3 })) ∧
    ((o.rb ++ o.f : BitVec 9) = 0x05 → exec (.mtsr o) s = wrote (fun c => { c with sceEntry := v &&& 0xFFFFFFFC })) ∧
    ((o.rb ++ o.f : BitVec 9) = 0x11 → exec (.mtsr o) s = wrote (fun c => { c with efp := v })) ∧
    ((o.rb ++ o.f : BitVec 9) = 0x18 → exec (.mtsr o) s = wrote (fun c => { c with scanSp := v &&& 0xFFFFFFF8 }))) ∧
  (∀ (s : State) (o : SylEnc), BundleReady s o [] → o.ext = none → o.rd = 0 → o.ra = 0 → o.rb = 0 → o.f = 0 →
    exec (.sync o) s = .next (s.afterBundle (s.core.pc + 4) 1 id) ∧
    exec (.fence o) s = .next (s.afterBundle (s.core.pc + 4) (1 + s.core.far.foldl (fun n e => max n (e - s.core.cyc).toNat) 0) id) ∧
    (s.core.priv = true → (s.arbiter s.core.mask).isSome = true →
      exec (.idle o) s = .next (s.afterBundle (s.core.pc + 4) 1 id))) ∧
  (∀ (s : State) (o : SylEnc), BundleReady s o [o.ra] → o.ext = none → o.rd = 0 → o.rb = 0 → o.f = 0 →
    s.zve.hasTag ((s.rf o.ra).setWidth 8) = false →
    exec (.zwait o) s = .next (s.afterBundle (s.core.pc + 4) 1 id))

/-- The event log (11 R296 to R311): staging takes the offered entries in turn, none before one that goes before it, refuses past
its limit and counts what it loses; flush with its retry, reserve, fetch window and clear. -/
def Obligations.EventLogCommandsTakeEffect : Prop :=
  (∀ (s : State) (e : Entry), s.log.offered[s.log.turn]? = some e →
    let l := { s.log with offered := s.log.offered.eraseIdx s.log.turn, ports := s.log.ports.eraseIdx s.log.turn }
    (s.log.full = true → exec .stageEntry s = .next { s with log := { l with lost := satInc s.log.lost } }) ∧
    (s.log.full = false → s.log.staged.length < 95 → e.code.extractLsb' 12 4 ≠ 8 →
      exec .stageEntry s = .next { s with log := { l with staged := s.log.staged ++ [{ e with pf := e.pf || s.mode.pf }] } }) ∧
    (∀ st : List Entry, s.log.full = false → 127 ≤ s.log.staged.length → bumpOvf s.log.staged = some st →
      exec .stageEntry s = .next { s with log := { l with staged := st, lost := satInc s.log.lost } }) ∧
    (s.log.full = false → s.log.staged.length = 127 → bumpOvf s.log.staged = none →
      exec .stageEntry s = .next (State.evt { s with log := { l with
        staged := s.log.staged ++ [{ e with
          code := 0x0030, source := 0x07, pf := s.mode.pf, hw := true, p0 := 1, p1 := e.code.setWidth 32, p2 := e.source.setWidth 32,
          p3 := 0 }]
        lost := satInc s.log.lost } } R.logEvt 1)) ∧
    (s.log.full = false → 128 ≤ s.log.staged.length → bumpOvf s.log.staged = none →
      exec .stageEntry s = .next { s with log := { l with lost := satInc s.log.lost } })) ∧
  (∀ (l : LogSt) (j : Nat) (x y : Entry × Nat × Nat × Nat), (l.offered.zip l.ports)[l.turn]? = some y →
    (l.offered.zip l.ports)[j]? = some x → goesBefore x y = false) ∧
  (∀ (s : State) (v : Word), s.regsOn = true → bit v 0 = true → s.mode.past11 = true → s.log.clearing = false →
    (s.log.flush = none → exec (.logCtlFlush v) s = .next (State.answer { s with log := { s.log with
      flush := some s.log.staged.length, retried := false, flushErr := false } } .ok 0)) ∧
    (∀ n : Nat, s.log.flush = some n → exec (.logCtlFlush v) s = .next (State.answer { s with log := { s.log with
      again := true, flushErr := false } } .ok 0))) ∧
  (∀ (s : State) (n : Nat) (res : FlushRes), s.log.flush = some n → s.mode.pf = false → res = .done →
    n ≤ s.log.reserve - s.log.wptr → s.log.clearWait = false → s.log.again = false →
    ((s.flushN n).2 = true → ∃ t, exec (.flushComplete res) s = .next t ∧ t.log.flush = none ∧
      ((s.log.wptr + n < s.entries → s.logArea ≠ none → n ≤ s.log.staged.length → t.log.wptr = s.log.wptr + n ∧
        t.log.staged = s.log.staged.drop n))) ∧
    ((s.flushN n).2 = false → s.log.retried = false → ∃ t, exec (.flushComplete res) s = .next t ∧ t.log.retried = true ∧
      t.log.flushErr = s.log.flushErr ∧ t.log.flush = some (n - (s.log.staged.length - t.log.staged.length)) ∧
      ∃ e ∈ t.log.offered, e.code = 0x0034 ∧ e.source = 0x07 ∧ e.p2 = 1) ∧
    ((s.flushN n).2 = false → s.log.retried = true → (s.flushN n).1.log.staged = s.log.staged →
      ∃ t, exec (.flushComplete res) s = .next t ∧ t.log.flush = none ∧ t.log.flushErr = true ∧ t.log.staged = s.log.staged ∧
      ∃ e ∈ t.log.offered, e.code = 0x0034 ∧ e.source = 0x07 ∧ e.p2 = 2)) ∧
  (∀ (s : State) (a : Area) (k : List Byte), s.mode.coreOn = true → s.mode.past11 = true → s.mode.pf = false → s.log.clearing = false →
    s.bscan = false → s.logArea = some (a, k) → s.log.reserve < min ((s.reserveNeed + 1023) / 1024 * 1024) s.entries →
    ∃ t, exec .reserveErase s = .next t ∧ t.log.reserve = min ((s.reserveNeed + 1023) / 1024 * 1024) s.entries ∧
      t.log.staged = s.log.staged ∧ t.log.wptr = s.log.wptr) ∧
  (∀ (s : State) (v : Word), s.regsOn = true →
    (v.extractLsb' 12 4 = 0xE → exec (.logSweCode v) s = .next ((s.offer {
      code := v.extractLsb' 0 16
      source := 0xE0
      td := false
      coarse := false
      pf := false
      hw := false
      stamp := s.time.dt
      p0 := s.reg (R.logSwe 0)
      p1 := s.reg (R.logSwe 1)
      p2 := s.reg (R.logSwe 2)
      p3 := s.reg (R.logSwe 3) }).answer .ok 0)) ∧
    (v.extractLsb' 12 4 ≠ 0xE → exec (.logSweCode v) s = .next ((s.evt R.logEvt 4).answer .ok 0)) ∧
    exec (.logCursorWrite v) s = .next (State.answer { s with log := { s.log with
      cursor := v.extractLsb' 0 20, words := List.replicate 8 0, crcBad := false, inStage := false,
      win := if s.log.clearing ∨ s.log.wptr + s.log.staged.length ≤ (v.extractLsb' 0 20).toNat then .ended else .fetching } } .ok 0)) ∧
  (∀ (s : State) (e : Entry), s.regsOn = true → s.log.win = .fetching → s.log.clearing = false → s.log.wptr ≤ s.log.cursor.toNat →
    s.log.staged[s.log.cursor.toNat - s.log.wptr]? = some e →
    exec .logFetchComplete s = .next { s with log := { s.log with win := .valid, words := wordsLE 8 e.bytes, inStage := true } }) ∧
  (∀ s : State, s.running = true → s.mode.pf = false → s.core.priv = true → s.log.win = .valid → s.log.clearing = false →
    s.log.cursor.toNat + 1 < s.log.wptr + s.log.staged.length → s.log.cursor.toNat + 1 < 2 ^ 20 →
    s.latched (s.latchKey .core) 0x9005C = none →
    exec (.logWin7Read .core) s = .next (State.answer { s with log := { s.log with
      cursor := s.log.cursor + 1, win := .fetching, words := List.replicate 8 0, crcBad := false, inStage := false } } .ok
        (s.log.words.getD 7 0))) ∧
  (∀ (s : State) (v : Word), s.regsOn = true →
    (s.mode.mode = .service → v.extractLsb' 16 16 = (0x6C0E : BitVec 16) → (v.extractLsb' 0 16).toNat = s.log.wptr % 65536 →
      s.log.flush = none → exec (.logClear v) s = .next (State.answer { s with log := { s.log with clearing := true } } .ok 0)) ∧
    (s.mode.mode ≠ .service → exec (.logClear v) s = .next ((s.evt R.logEvt 4).answer .ok 0))) ∧
  (∀ (s : State) (a : Area) (k : List Byte), s.mode.coreOn = true → s.log.clearing = true → s.mode.pf = false → s.log.flush = none →
    s.bscan = false → s.logArea = some (a, k) →
    ∃ t, exec .logCleared s = .next t ∧ t.log.wptr = 1 ∧ t.log.lost = 0 ∧ t.log.full = false ∧ t.log.clearing = false ∧
      t.log.staged = s.log.staged)

/-- Entry and return, ZISS, COMMIT and BREAK (09 R240; 12 R334, R338; 13 R358, R361, R363). ERET restores the frame's context; BREAK
enters descriptor 13 and stacks its frame; ZISS puts its descriptor into the queue and answers its tag, or that the queue is full;
COMMIT ends scan context and issues the commit. -/
def Obligations.EretBreakZissAndCommitTakeEffect : Prop :=
  (∀ (s : State) (o : SylEnc), BundleReady s o [] → o.ext = none → o.rd = 0 → o.ra = 0 → o.rb = 0 → o.f = 0 → s.core.priv = true →
    s.core.df = false → s.core.scan = false → s.core.loads = [] → 0x10000000 ≤ s.core.efp.toNat → s.core.efp.toNat + 32 ≤ 0x10040000 →
    s.core.efp.toNat % 4 = 0 →
    let w (i : Nat) : Word := (wordsLE 8 (mread 0 s.mem.dtcm (s.core.efp.toNat - 0x10000000) 32)).getD i 0
    bit (w 1) 1 = false →
    ∃ t, exec (.eret o) s = .next t ∧ t.core.pc = w 0 &&& 0xFFFFFFFC ∧ t.core.priv = bit (w 1) 0 ∧ t.core.ie = false ∧
      t.core.mask = (w 1).extractLsb' 4 4 ∧ t.core.uentry = bit (w 1) 8 ∧ t.core.p = (w 2).extractLsb' 0 8 ∧ t.core.at 28 = w 3 ∧
      t.core.at 29 = w 4 ∧ t.core.at 30 = w 5 ∧ t.core.at 31 = w 6 ∧ t.core.cwp = (w 7).extractLsb' 0 3 ∧ t.core.efp = s.core.at 28 ∧
      t.core.rw = s.core.rw ∧ t.core.cyc = s.core.cyc + 10 ∧ t.mem = s.mem ∧ t.regs = s.regs) ∧
  (∀ (s : State) (o : SylEnc) (x : Desc), BundleReady s o [] → o.ext = none → o.rd = 0 → o.ra = 0 → s.core.df = false →
    s.core.wtrap = false → s.core.scan = false → s.core.loads = [] → s.core.cwp + 1 ≠ s.core.rw → s.descOf 13 = some x →
    pushOk (s.core.at 31) = true →
    ∃ t, exec (.brk o) s = .next t ∧ t.core.pc = x.handler ∧ t.core.efp = s.core.at 31 - 32 ∧ t.core.priv = x.tpriv ∧ t.core.ie = x.ie ∧
      t.core.mask = x.mask ∧ t.core.cwp = s.core.cwp + 1 ∧ t.core.desc = 13 ∧ t.core.at 28 = s.core.efp ∧ t.core.at 29 = 13 ∧
      t.core.at 31 = (if x.own then x.sp else s.core.at 31 - 32) ∧ t.core.xnext = s.core.pc + 4 ∧ t.core.cyc = s.core.cyc + 14 ∧
      t.mem.dtcm = mwrite 0 s.mem.dtcm ((s.core.at 31 - 32).toNat - 0x10000000) (([s.core.pc,
        (s.core.psr &&& 0xFF) ||| bitAt s.core.uentry 8 ||| at_ 13 16, s.core.preds, s.core.at 28, s.core.at 29, s.core.at 30,
        s.core.at 31, s.core.wp] : List Word).flatMap bytesLE) ∧ t.regs = s.regs) ∧
  (∀ (s : State) (o : SylEnc) (a : Word), BundleReady s o [o.rd, o.ra] → o.ext = none → o.rb = 0 → a = s.rf o.ra → a.toNat % 16 = 0 →
    0x10000000 ≤ a.toNat → a.toNat + 16 ≤ 0x10040000 → s.time.pwr.getLsbD 1 = true → s.zve.coverage ≠ 3 →
    let d (i : Nat) : Word := s.dtcmWord (a.toNat - 0x10000000 + 4 * i)
    let l : ZLink := { w0 := d 0, w1 := d 1, w2 := d 2, w3 := d 3, tag := s.zve.tag, pc := s.core.pc }
    s.zve.opened s.core.scan = none → zvCheck [] l s.core.precise = true →
    (s.zve.held < 8 → s.core.scan = true ∨ s.zve.heldKernel < 4 →
      exec (.ziss o) s = .next { s.afterBundle (s.core.pc + 4) 2 (fun c => (c.put o.rd.toNat (s.zve.tag.setWidth 32)).putPred o.f true) with
        zve := { s.zve with
          tag := s.zve.tag + 1
          queue := s.zve.queue ++ [{ links := [l], closed := !l.chain, scan := s.core.scan, precise := s.core.precise,
                                     slot := s.sch.run, susp := false }] } }) ∧
    (8 ≤ s.zve.held → exec (.ziss o) s = .next (s.afterBundle (s.core.pc + 4) 2 (fun c =>
      (c.put o.rd.toNat 0xFFFFFFFF).putPred o.f false)))) ∧
  (∀ (s : State) (o : SylEnc), BundleReady s o [] → o.ext = none → o.rd = 0 → o.ra = 0 → o.rb = 0 → o.f = 0 → s.core.scan = true →
    s.scanCycle + 300 ≤ s.periodCyc →
    exec (.commit o) s = .next { s.afterBundle (s.core.pc + 4) 6 (fun c => { c with scan := false }) with
      scan := { s.scan with
        phase := .commit
        commit := some { dt := BitVec.ofNat 64 ((s.time.dt.toNat + 89) / 10 * 10), issue := s.core.cyc, applied := false } } })

/-- The scan cycle (09 R233 to R257; 12 R342; 13 R364, R365): entry stacks the interrupted context and starts the scan, a commit's
apply tick takes its requests, its completion, an overrun and a discard end the scan, a discarded scan executes again once. -/
def Obligations.ScanCycleEventsTakeEffect : Prop :=
  (∀ (s : State) (pu : BitVec 2), s.mapsWf = true → s.scanDue = true → s.core.loads = [] → s.core.cwp + 1 ≠ s.core.rw →
    pushOk s.core.scanSp = true → pu.getLsbD 0 = false →
    (∀ (l : List Word) (w : Word), s.scan.latch = some (w :: l) → l.length = 1023 →
      ∃ t, exec (.scanEntry pu) s = .next t ∧ t.core.scan = true ∧ t.core.priv = true ∧ t.core.ie = false ∧ t.core.mask = 15 ∧
        t.core.pc = s.scanEntryPc ∧ t.core.cwp = s.core.cwp + 1 ∧ t.core.efp = s.core.scanSp - 32 ∧ t.core.at 28 = s.core.efp ∧
        t.core.at 29 = 0xFFFFFFFF ∧ t.core.at 31 = s.core.scanSp - 32 ∧
        t.core.cyc = (if s.core.cyc + 14 < s.scan.start + 600 then s.scan.start + 600 else s.core.cyc + 14) ∧
        t.scan.phase = .execute ∧ t.scan.latch = none ∧ t.scan.latchDt = s.scan.latchDt ∧ t.scan.start = s.scan.start ∧ t.regs = s.regs ∧
        t.dtcmWord (s.core.scanSp.toNat - 32 - 0x10000000) = s.core.pc ∧ t.dtcmWord 0x3E000 = w) ∧
    (s.scan.latch = none → s.mode.starting = false → s.fab.edgeDone = true → s.zve.run = none →
      ∃ t, exec (.scanEntry pu) s = .next t ∧ t.core.scan = true ∧ t.core.pc = s.scanEntryPc ∧ t.core.cwp = s.core.cwp + 1 ∧
        t.core.efp = s.core.scanSp - 32 ∧ t.reg R.scnSeq = s.reg R.scnSeq + 1 ∧ t.scan.phase = .execute ∧
        t.scan.start = 3 * (s.time.dt - s.core.cycDt) ∧ t.scan.latchDt = s.time.dt ∧ t.scan.first = false ∧
        t.dtcmWord (s.core.scanSp.toNat - 32 - 0x10000000) = s.core.pc ∧ t.dtcmWord 0x3E000 = s.reg R.scnSeq + 1)) ∧
  (∀ (s : State) (pu : BitVec 2), s.scanDue = true → s.scan.latch.isSome = true → s.core.cwp + 1 ≠ s.core.rw →
    pushOk s.core.scanSp = false ∨ pu.getLsbD 0 = true →
    ∃ t, exec (.scanEntry pu) s = .next t ∧ t.core.locked = true ∧ fldN (t.reg R.lockInfo) 0 3 = 4 ∧ t.mem = s.mem ∧
      t.core.scan = false) ∧
  (∀ (s : State) (c : CommitSt), s.scan.commit = some c → c.applied = false → s.running = true → c.dt ≤ s.time.dt →
    s.outWord 0x080 = 0 → bit (s.outWord 0x004) 8 = false → s.fab.grpReq = none →
    ∃ t, exec .commitApply s = .next t ∧ t.fab.req = s.outWord 0 ∧ t.fab.group = s.fab.group ∧
      t.scan.owner = s.scan.owner ^^^ s.scan.dirty ∧
      t.scan.dirty = 0 ∧ t.scan.commit = some { c with applied := true } ∧ t.core = s.core ∧
      (s.time.dt.setWidth 32 ≠ (0 : Word) → t.reg R.scnCommitDt = s.time.dt.setWidth 32)) ∧
  (∀ (s : State) (c : CommitSt), s.scan.commit = some c → c.applied = true → s.running = true →
    ∃ t, exec .commitComplete s = .next t ∧ t.scan.commit = none ∧ t.scan.phase = .idle ∧ t.scan.missed = false ∧
      t.scan.deferred = [] ∧ t.core.scan = false ∧ t.core.bundle = []) ∧
  (∀ s : State, s.core.scan = true → s.scan.latch = none →
    ∃ t, exec .overrun s = .next t ∧ t.core.scan = false ∧ t.scan.phase = .idle ∧ t.scan.missed = true ∧ t.scan.ovrPrev = true ∧
      t.scan.dirty = 0 ∧ t.scan.deferred = [] ∧ t.scan.commit = none ∧
      (s.scan.ovrPrev = true → ∃ p, (10, p, s.time.dt) ∈ t.mode.safePend)) ∧
  (∀ (s : State) (cause : Fin 4), s.inScan = true → s.scanCycle + 300 + s.wcet ≤ s.periodCyc → s.scan.reexec = false →
    s.scan.redo = false →
    ∃ t, exec (.discard cause) s = .next t ∧ t.scan.dirty = 0 ∧ t.scan.deferred = [] ∧ t.scan.commit = none ∧
      t.reg R.scnFault = BitVec.ofNat 32 (cause.val + 1) ∧ t.core.loads = [] ∧ t.core.bundle = [] ∧
      (s.core.pc ≠ 0 → t.reg R.scnFaultPc = s.core.pc) ∧ (s.scan.latch = none → t.scan.redo = true) ∧
      (∀ l : List Word, s.scan.latch = some l → t.scan.redo = false ∧ t.scan.reexec = true ∧ t.core.cyc = s.core.cyc + 64 ∧
        t.scan.latch = some (l.set 1 (l.getD 1 0 ||| 4)))) ∧
  (∀ s : State, s.mapsWf = true → s.scan.redo = true →
    ∃ t, exec .reexecution s = .next t ∧ t.scan.redo = false ∧ t.scan.reexec = true ∧ t.scan.phase = .execute ∧ t.core.scan = true ∧
      t.core.pc = s.scanEntryPc ∧ t.core.efp = s.scan.frame ∧ t.core.priv = true ∧ t.core.ie = false ∧ t.core.cwp = s.scan.cwp ∧
      t.core.at 31 = s.scan.frame ∧ t.core.cyc = s.core.cyc + 64 ∧ t.dtcmWord 0x3E004 = s.dtcmWord 0x3E004 ||| 4) ∧
  (∀ s : State, s.running = true → s.mode.past13 = true → s.mode.pf = false →
    (s.inScan = true → exec .lockstepMismatch s = exec (.discard 0) s) ∧
    (s.inScan = false → s.mode.warmReq = none →
      exec .lockstepMismatch s = .next { s with mode := { s.mode with warmReq := some 3 } }))

/-- Interrupt entry and thread switches (13 R357, R358; 14 R385 to R389, R392, R412, R413). -/
def Obligations.InterruptEntryAndThreadSwitchesTakeEffect : Prop :=
  (∀ (s : State) (n : Nat) (level : BitVec 4) (x : Desc) (pu : BitVec 2), s.coreRuns = true → s.core.bundle = [] → s.core.ie = true →
    s.core.idle = [] → s.scanDue = false → s.scan.latch = none → s.core.scan = false → s.core.df = false → s.aexcDue = none →
      s.core.loads = [] → s.core.cwp + 1 ≠ s.core.rw →
    s.arbiter s.core.mask = some (n, level) → n < 128 → s.descOf (32 + n) = some x → pushOk (s.core.at 31) = true →
    (pu.getLsbD 0 = false → ∃ t, exec (.interruptEntry pu) s = .next t ∧ t.core.pc = x.handler ∧ t.core.priv = x.tpriv ∧ t.core.ie = x.ie ∧
      t.core.mask = (if x.mask < level then level else x.mask) ∧ t.core.cwp = s.core.cwp + 1 ∧ t.core.efp = s.core.at 31 - 32 ∧
      t.core.at 28 = s.core.efp ∧ t.core.at 29 = BitVec.ofNat 32 (32 + n) ∧ t.core.at 31 = (if x.own then x.sp else s.core.at 31 - 32) ∧
      t.core.act = setBit s.core.act n true ∧ t.core.cyc = s.core.cyc + 14 ∧
      t.mem.dtcm = mwrite 0 s.mem.dtcm ((s.core.at 31 - 32).toNat - 0x10000000) (([s.core.pc,
        (s.core.psr &&& 0xFF) ||| bitAt s.core.uentry 8 ||| at_ (32 + n) 16, s.core.preds, s.core.at 28, s.core.at 29, s.core.at 30,
        s.core.at 31, s.core.wp] : List Word).flatMap bytesLE) ∧ t.regs = s.regs) ∧
    (∀ y : Desc, s.descOf 2 = some y → s.core.wtrap = false →
      (pu = 1 → ∃ t, exec (.interruptEntry pu) s = .next t ∧ t.core.pc = y.handler ∧ t.core.at 31 = y.sp ∧ t.core.at 29 = 2 ∧
        t.core.efp = y.sp - 32 ∧ t.core.xaddr = s.core.at 31 ∧ fldN t.core.xinfo 8 8 = 32 + n ∧ t.core.act = s.core.act) ∧
      (pu = 3 → ∃ t, exec (.interruptEntry pu) s = .next t ∧ t.core.locked = true ∧ fldN (t.reg R.lockInfo) 0 3 = 3 ∧
        t.mem = s.mem))) ∧
  (∀ (s : State) (u : Fin 64), s.switchDue = true → s.aexcDue = none → s.sch.sel = some u →
    ∃ t, exec (.contextSwitch none) s = .next t ∧ t.sch.run = some u ∧ t.sch.req = none ∧ (t.sch.thread[u]).state = 3 ∧
      t.core.pc = (s.sch.ctx.getD 160 0) &&& 0xFFFFFFFC ∧ t.core.cwp = (s.sch.ctx.getD 163 0).extractLsb' 0 3 ∧
      t.core.efp = s.sch.ctx.getD 164 0 ∧ t.core.cyc = s.core.cyc + 16 ∧ t.core.loads = [] ∧
      (∀ r : Fin 64, s.sch.run = some r → s.sch.req = some .yield → t.sch.wb = some r ∧ (r ≠ u → t.sch.thread[r] = s.sch.thread[r])) ∧
      (∀ r : Fin 64, s.sch.run = some r → s.sch.req = none → t.sch.wb = some r ∧ (r ≠ u → (t.sch.thread[r]).state = 1)) ∧
      t.mem = s.mem) ∧
  (∀ (s : State) (u : Fin 64), s.sch.sel = some u → s.sch.wb = none → s.sch.en = true →
    exec (.nextSlotLoaded none) s = .next { s with sch := { s.sch with
      valid := true
      ctx := wordsLE 168 (mread 0 s.mem.dtcm ((s.reg R.schCtxBase).toNat - 0x10000000 + 768 * u.val) 672) } }) ∧
  (∀ (s : State) (u : Fin 64), s.sch.wb = some u →
    exec (.contextWriteBack none) s = .next { s with
      mem := { s.mem with
        dtcm := mwrite 0 s.mem.dtcm ((s.reg R.schCtxBase).toNat - 0x10000000 + 768 * u.val + 4) ((s.sch.wbCtx.drop 1).flatMap bytesLE) }
      sch := { s.sch with wb := none } }) ∧
  (∀ (s : State) (u : Fin 64) (w : Fin 168), s.inScan = false → s.mode.warmReq = none →
    let bad : Out := .next { s.say .sch 0x4206 (BitVec.ofNat 32 u.val) (BitVec.ofNat 32 w.val) 0 0 with
      mode := { s.mode with warmReq := some 4 } }
    (s.sch.wb = some u → exec (.contextWriteBack (some w)) s = bad) ∧
    (s.sch.wb = none → s.sch.en = true → s.sch.sel = some u → exec (.nextSlotLoaded (some w)) s = bad) ∧
    (s.switchDue = true → s.sch.sel = some u → exec (.contextSwitch (some w)) s = bad)) ∧
  (∀ (s : State) (v : Word), s.regsOn = true →
    (bit v 0 = true → ctxBaseOk (s.reg R.schCtxBase) = true → ∃ t, exec (.schCtlWrite v) s = .next t ∧ t.sch.en = true ∧
      t.sch.run = s.sch.run ∧ t.sch.thread = s.sch.thread ∧ t.core = s.core) ∧
    (bit v 0 = false → exec (.schCtlWrite v) s = .next ((s.evt R.schEvt 3).answer .ok 0)) ∧
    (v.toNat % 256 = 0 → 0x10000000 ≤ v.toNat → v.toNat + 49152 ≤ 0x1003E000 → s.sch.en = false →
      exec (.schCtxBaseWrite v) s = .next ((s.setReg R.schCtxBase v).answer .ok 0)) ∧
    (s.sch.en = true → exec (.schCtxBaseWrite v) s = .next ((s.evt R.schEvt 3).answer .ok 0)))

/-- Threads wait, yield and are set ready (14 R384, R386, R393 to R398). -/
def Obligations.WaitsYieldsAndSlotsTakeEffect : Prop :=
  (∀ (s : State) (u : Fin 64) (v : Word), s.regsOn = true → s.core.scan = false → s.core.efp = 0 → s.sch.run = some u →
    let x : ThreadSt := { s.sch.thread[u] with all := v.getLsbD 31 }
    let put (y : ThreadSt) : SchSt := { s.sch with thread := vput s.sch.thread u y }
    (x.mask = 0 → exec (.schWait v) s = .next (State.answer { s with sch := put { x with res := 3 } } .ok 0)) ∧
    (x.mask ≠ 0 → s.topReady ≠ [] → (if x.all then x.flags &&& x.mask = x.mask else x.flags &&& x.mask ≠ 0) →
      exec (.schWait v) s = .next (State.answer { s with sch := put { x with
        res := 1
        matched := x.flags &&& x.mask
        flags := x.flags &&& ~~~x.mask } } .ok 0)) ∧
    (x.mask ≠ 0 → s.topReady ≠ [] → ¬ (if x.all then x.flags &&& x.mask = x.mask else x.flags &&& x.mask ≠ 0) →
      exec (.schWait v) s = .next (State.answer { s with sch := { put { x with
        state := 2
        tmo := if v.toNat % 2 ^ 24 = 0 then none else some (s.time.dt.toNat / 100 + v.toNat % 2 ^ 24) } with req := some .wait } } .ok 0))) ∧
  (∀ (s : State) (u w : Fin 64) (l : List (Fin 64)) (v : Word), s.regsOn = true → s.core.scan = false → s.core.efp = 0 →
    s.sch.run = some u → v.getLsbD 0 = true → s.topReady = w :: l →
    ((s.sch.thread[u]).prio ≤ (s.sch.thread[w]).prio →
      exec (.schYield v) s = .next (State.answer { s with sch := { s.sch with
        thread := vput s.sch.thread u { s.sch.thread[u] with state := 1 }
        req := some .yield } } .ok 0)) ∧
    ((s.sch.thread[w]).prio < (s.sch.thread[u]).prio → exec (.schYield v) s = .next (s.answer .ok 0))) ∧
  (∀ (s : State) (v : Word), s.regsOn = true → s.core.scan = true → v.getLsbD 0 = true →
    exec (.schWait v) s = .next ((s.evt R.schEvt 3).answer .ok 0) ∧ exec (.schYield v) s = .next ((s.evt R.schEvt 3).answer .ok 0)) ∧
  (∀ (s : State) (u : Fin 64) (n : Nat), (s.sch.thread[u]).tmo = some n → (s.sch.thread[u]).state = 2 → n ≤ s.time.dt.toNat / 100 →
    ∃ t, exec (.waitTimeout u) s = .next t ∧ t.sch.thread = vput s.sch.thread u { s.sch.thread[u] with state := 1, tmo := none, res := 2 } ∧
      t.sch.run = s.sch.run ∧ t.core = s.core) ∧
  (∀ (s : State) (u : Fin 64) (v : Word), s.regsOn = true →
    let x := s.sch.thread[u]
    (x.state ≠ 2 → ∃ t, exec (.schFlagsWrite u v) s = .next t ∧ t.sch.thread = vput s.sch.thread u { x with flags := x.flags ||| v } ∧
      t.core = s.core) ∧
    (x.state = 2 → x.all = false → (x.flags ||| v) &&& x.mask ≠ 0 → ∃ t, exec (.schFlagsWrite u v) s = .next t ∧
      (t.sch.thread[u]).state = 1 ∧ (t.sch.thread[u]).res = 1 ∧ (t.sch.thread[u]).matched = (x.flags ||| v) &&& x.mask ∧
      (t.sch.thread[u]).flags = (x.flags ||| v) &&& ~~~x.mask ∧ (t.sch.thread[u]).tmo = none)) ∧
  (∀ (s : State) (u : Fin 64) (v : Word), s.regsOn = true → (s.sch.thread[u]).state = 0 → v.extractLsb' 4 2 = (1 : BitVec 2) →
    ∃ t, exec (.schSlotWrite u v) s = .next t ∧
      t.sch.thread = vput s.sch.thread u { s.sch.thread[u] with prio := v.extractLsb' 0 4, state := 1 } ∧ t.core = s.core)

/-- Rings (14 R401 to R404, R409, R412): a header opens an item where the ring has room, a data word enters it, a read removes the oldest
item, a flush discards everything. A ring whose role does not let the access happen only sets DENIED. -/
def Obligations.RingAccessesTakeEffect : Prop :=
  (∀ (s : State) (r : Fin 64) (port : Fin 5) (v : Word), s.regsOn = true → (s.ringCfg r).role ≠ 0 →
    let x := s.sch.ring[r]
    x.opened[port] = none → x.torn[port] = none → 2 ≤ v.toNat % 16 → v.toNat % 16 ≤ 8 → v.toNat % 16 ≤ s.ringFree r →
    exec (.ringPushHdr r port v) s = .next (State.answer { s with sch := { s.sch with ring := vput s.sch.ring r { x with
      opened := vput x.opened port (some { len := v.toNat % 16, words := [v &&& 0xFFFF000F] }) } } } .ok 0)) ∧
  (∀ (s : State) (r : Fin 64) (port : Fin 5) (v : Word) (o : OpenItem), s.regsOn = true → (s.ringCfg r).role ≠ 0 →
    let x := s.sch.ring[r]
    x.opened[port] = some o → o.words.length + 1 < o.len →
    exec (.ringPushData r port v false) s = .next (State.answer { s with sch := { s.sch with ring := vput s.sch.ring r { x with
      opened := vput x.opened port (some { o with words := o.words ++ [v] }) } } } .ok 0)) ∧
  (∀ (s : State) (r : Fin 64) (port : Fin 5) (v : Word), s.regsOn = true → (s.ringCfg r).role ≠ 0 → s.inScan = false →
    s.mode.warmReq = none →
    ∃ t, exec (.ringPushData r port v true) s = .next t ∧ t.mode.warmReq = some 4 ∧ t.sch = s.sch ∧ t.core = s.core ∧
      ∃ e ∈ t.log.offered, e.code = 0x4206 ∧ e.source = 0x42) ∧
  (∀ (s : State) (r : Fin 64), s.regsOn = true → (s.ringCfg r).role = 1 →
    let x := s.sch.ring[r]
    (x.lens = [] → exec (.ringPop r) s = .next (s.answer .ok 0)) ∧
    (∀ (n : Nat) (l : List Nat), x.lens = n :: l → 1 ≤ n → n ≤ x.chip.length → x.cnt = 0 →
      ∃ t, exec (.ringPop r) s = .next t ∧ t.resp = ⟨.ok, x.chip.headD 0⟩ ∧ (t.sch.ring[r]).lens = l ∧
        (t.sch.ring[r]).chip = x.chip.drop n ∧ (t.sch.ring[r]).cnt = 0 ∧ t.core = s.core ∧ t.mem = s.mem)) ∧
  (∀ (s : State) (r : Fin 64) (v : Word), s.regsOn = true → v.getLsbD 0 = true →
    ∃ t, exec (.ringFlush r v) s = .next t ∧ (t.sch.ring[r]).chip = [] ∧ (t.sch.ring[r]).lens = [] ∧ (t.sch.ring[r]).cnt = 0 ∧
      (∀ p : Fin 5, (t.sch.ring[r]).opened[p] = none) ∧ (t.sch.ring[r]).ien = v.getLsbD 1 ∧ (t.sch.ring[r]).flagEn = v.getLsbD 2 ∧
      t.core = s.core) ∧
  (∀ (s : State) (r : Fin 64) (port : Fin 5) (v : Word), s.regsOn = true → (s.ringCfg r).role = 0 →
    let denied : Out := .next (State.answer { s with sch := { s.sch with ring := vput s.sch.ring r { s.sch.ring[r] with
      stat := (s.sch.ring[r]).stat ||| 8 } } } .ok 0)
    exec (.ringPushHdr r port v) s = denied ∧ exec (.ringPushData r port v false) s = denied ∧ exec (.ringPop r) s = denied)

/-- Elementwise links of one 32-bit integer element (15 R420, R421): the destination takes the operation's result, by modulo
arithmetic where SAT is 0. -/
def Obligations.VectorIntegerLinksWriteResult : Prop :=
  (∀ (s : State) (r : ZRun) (l : ZLink) (op : Nat), LinkReady s r l op 1 false → l.vl = 1 →
    let a := s.vsRead (16 * strBase l.w2) 32
    let b := s.vsRead (16 * strBase l.w3) 32
    let wrote (i : Instr) (v : Word) : Prop := LinkWrote (exec i s) s l (bytesLE v)
    (op = 1 → wrote .vadd (a + b)) ∧
    (op = 2 → wrote .vsub (a - b)) ∧
    (op = 3 → wrote .vabs (if a.toInt < 0 then -a else a)) ∧
    (op = 8 → wrote .vmul (a * b)) ∧
    (op = 10 → wrote .vsq (a * a)) ∧
    (op = 16 → b ≠ 0 → a.toInt % b.toInt = 0 → ¬ (a = 0x80000000 ∧ b = 0xFFFFFFFF) →
      wrote .vdiv (BitVec.ofInt 32 (a.toInt / b.toInt))) ∧
    (op = 16 → b = 0 → wrote .vdiv (if a = 0 then 0 else if a.toInt < 0 then 0x80000000 else 0x7FFFFFFF)) ∧
    (op = 24 → wrote .vand (a &&& b)) ∧
    (op = 25 → wrote .vor (a ||| b)) ∧
    (op = 26 → wrote .vxor (a ^^^ b)) ∧
    (op = 27 → wrote .vmax (if a.toInt < b.toInt then b else a)) ∧
    (op = 28 → wrote .vmin (if a.toInt < b.toInt then a else b)) ∧
    (op = 29 → wrote .vcmpgt (if b.toInt < a.toInt then 0xFFFFFFFF else 0)) ∧
    (op = 30 → ∀ n : Nat, n = (l.w3.extractLsb' 0 5).toNat →
      wrote .vshra (if n = 0 then a else BitVec.ofInt 32 ((a.toInt + 2 ^ (n - 1)) / 2 ^ n))) ∧
    (op = 31 → wrote .vcopy a) ∧
    (op = 4 → (l.w3.extractLsb' 0 3).toNat = 0 → wrote .vcvt (s.vsRead (16 * strBase l.w2) 16))) ∧
  (∀ (s : State) (r : ZRun) (l : ZLink), LinkReady s r l 9 1 true → l.vl = 1 →
    let a := 16 * strBase l.w2
    let b := 16 * strBase l.w3
    let ar := s.vsRead a 32
    let ai := s.vsRead (a + 4) 32
    let br := s.vsRead b 32
    let bi := s.vsRead (b + 4) 32
    LinkWrote (exec .vcmulj s) s l (bytesLE (ar * br + ai * bi) ++ bytesLE (ai * br - ar * bi)))

/-- Links with indices, roots, angles and reductions (15 R420, R421). A root that is not exact is one of the two integers beside it, an
angle and its functions are open values: the source states no rounding for them (log entry 3). -/
def Obligations.VectorIndexedRootAndReductionLinksWriteResult : Prop :=
  (∀ (s : State) (r : ZRun) (l : ZLink), LinkReady s r l 17 3 false → l.vl = 1 →
    let a := s.vsRead (16 * strBase l.w2) 32
    ∀ k : Nat, 0 ≤ a.toInt → k * k ≤ a.toNat * 2 ^ 31 → a.toNat * 2 ^ 31 < (k + 1) * (k + 1) → k + 1 < 2 ^ 31 →
      (k * k = a.toNat * 2 ^ 31 → LinkWrote (exec .vsqrt s) s l (bytesLE (BitVec.ofNat 32 k))) ∧
      ∃ v : Word, LinkWrote (exec .vsqrt s) s l (bytesLE v) ∧ (v = BitVec.ofNat 32 k ∨ v = BitVec.ofNat 32 (k + 1))) ∧
  (∀ (s : State) (r : ZRun) (l : ZLink), LinkReady s r l 18 3 true → l.vl = 1 →
    let a := s.vsRead (16 * strBase l.w2) 32
    let b := s.vsRead (16 * strBase l.w2 + 4) 32
    ∀ k : Nat, k * k = a.toInt.natAbs ^ 2 + b.toInt.natAbs ^ 2 → k < 2 ^ 31 →
      LinkWrote (exec .vmag s) s l (bytesLE (BitVec.ofNat 32 k))) ∧
  (∀ (s : State) (r : ZRun) (l : ZLink), LinkReady s r l 19 3 true → l.vl = 1 →
    ∃ v : Word, LinkWrote (exec .vphase s) s l (bytesLE v)) ∧
  (∀ (s : State) (r : ZRun) (l : ZLink), LinkReady s r l 20 3 false → l.vl = 1 →
    ∃ v w : Word, LinkWrote (exec .vcis s) s l (bytesLE v ++ bytesLE w)) ∧
  (∀ (s : State) (r : ZRun) (l : ZLink), LinkReady s r l 32 1 false → l.vl = 1 →
    let i := s.vsRead (16 * strBase l.w3) 32
    (0 ≤ i.toInt → i.toInt ≤ 65535 → 16 * strBase l.w2 + i.toNat * 4 + 4 ≤ 499712 →
      LinkWrote (exec .vgather s) s l (bytesLE (s.vsRead (16 * strBase l.w2 + i.toNat * 4) 32))) ∧
    (i.toInt < 0 → LinkWrote (exec .vgather s) s l [0, 0, 0, 0])) ∧
  (∀ (s : State) (r : ZRun) (l : ZLink), LinkReady s r l 33 1 false → l.vl = 1 →
    let i := s.vsRead (16 * strBase l.w3) 32
    let a := s.vsRead (16 * strBase l.w2) 32
    (0 ≤ i.toInt → i.toInt ≤ 65535 → 16 * strBase l.w1 + i.toNat * 4 + 4 ≤ 499712 →
      ∃ t, exec .vscatter s = .next t ∧ t.core = s.core ∧
        t.mem = { s.mem with vs := mwrite 0 s.mem.vs (16 * strBase l.w1 + i.toNat * 4) (bytesLE a) }) ∧
    (i.toInt < 0 → ∃ t r', exec .vscatter s = .next t ∧ t.mem = s.mem ∧ t.core = s.core ∧ t.zve.run = some r' ∧
      ∃ m ∈ r'.exc.flatten, m.1 = 0 ∧ m.2.getLsbD 5 = true)) ∧
  (∀ (s : State) (r : ZRun) (l : ZLink), LinkReady s r l 40 1 false →
    let sum : Int := (List.range l.vl).foldl (fun n i => n + (s.vsRead (strAddr l.w2 4 i).toNat 32).toInt) 0
    LinkWrote (exec .vsum s) s l (bytesLE (if sum < -(2 ^ 31) then 0x80000000 else if 2 ^ 31 - 1 < sum then 0x7FFFFFFF
      else BitVec.ofInt 32 sum))) ∧
  (∀ (s : State) (r : ZRun) (l : ZLink), LinkReady s r l 41 1 false → 0 < l.vl →
    ∃ v : Word, LinkWrote (exec .vmaxr s) s l (bytesLE v) ∧ (∃ i < l.vl, v = s.vsRead (strAddr l.w2 4 i).toNat 32) ∧
      ∀ i < l.vl, (s.vsRead (strAddr l.w2 4 i).toNat 32).toInt ≤ v.toInt)

/-- Chains and lanes of Zinik (15 R428, R434, R437, R439 to R441, R445): a chain starts, completes with its status word, is aborted or
flushed; a lane fault is counted, reported, replays the chain and retires the lane; roles rotate. -/
def Obligations.ChainsAndLanesTakeEffect : Prop :=
  (∀ (s : State) (c : ZChain), s.mode.m9 = none → s.zve.run = none → s.zve.pick = some c → s.vecOn = true → s.zve.nRetired < 3 →
    c.scan = true ∨ (s.scanCtx = false ∧ s.scan.redo = false) →
    exec .zveChainStart s = .next { s with zve := { s.zve with
      queue := s.zve.queue.erase c
      run := some {
        chain := { c with susp := false }, done := 0, fwd := [], exc := [], replayed := false, abort := false, said := false,
        start := s.time.dt } } }) ∧
  (∀ (s : State) (r : ZRun) (l : ZLink), s.zve.run = some r → r.chain.links = [l] → r.done = 1 → l.note = 0 → r.marks 65536 = [] →
    exec (.zveChainComplete none) s = .next (State.setReg { s with zve := { s.zve with
      run := none
      busy := s.zve.busy + BitVec.ofNat 64 r.chain.cycles
      notes := s.zve.notes ++ [{ tag := l.tag, due := s.time.dt + 2, slot := none,
                                 bits := bitAt true (fldN (s.reg R.zveCtl) 0 5) }] } } (R.zveRes (l.tag.toNat % 16))
      (l.tag.setWidth 32 ||| 0x100 ||| if s.zve.nRetired = 2 then 0x1000 else 0))) ∧
  (∀ (s : State) (r : ZRun) (l : ZLink) (o : Fin 499712), s.mapsWf = true → LinkReady s r l 31 1 false → l.vl = 1 → l.note = 0 →
    (strAddr l.w2 4 0).toNat = o.val →
    ∃ t, exec (.zveChainComplete (some o)) s = .next t ∧ t.zve.run = none ∧ t.reg R.zveErr = BitVec.ofNat 32 o.val ∧
      bit (t.reg R.zveEvt) 1 = true ∧ bit (t.reg (R.zveRes (l.tag.toNat % 16))) 15 = true ∧ t.core = s.core ∧
      ∃ e ∈ t.log.offered, e.code = 0x5006 ∧ e.source = 0x50) ∧
  (∀ (s : State) (r : ZRun), s.zve.run = some r → r.done < r.chain.links.length →
    exec .zveAbortRun s = .next { s with zve := { s.zve with run := some { r with abort := true } } }) ∧
  (∀ s : State, ∃ t, exec .zveAbortQueue s = .next t ∧ t.zve.queue = [] ∧ t.zve.run = s.zve.run) ∧
  (∀ (s : State) (c : ZChain) (l : ZLink), s.zve.queue = [c] → c.links = [l] → l.note = 0 →
    exec .zveAbortQueue s = .next (((State.setReg { s with zve := { s.zve with
      queue := []
      notes := s.zve.notes ++ [{ tag := l.tag, due := s.time.dt + 2, slot := none,
                                 bits := bitAt true (fldN (s.reg R.zveCtl) 0 5) }] } } (R.zveRes (l.tag.toNat % 16))
      (l.tag.setWidth 32 ||| 0x300 ||| if s.zve.nRetired = 2 then 0x1000 else 0))).evt R.zveEvt 6)) ∧
  (∀ (s : State) (r : ZRun) (n : Nat), s.zve.run = some r → r.abort = true →
    ∃ t, exec (.zveChainAborted n) s = .next t ∧ t.zve.run = none ∧
      (∀ l, r.chain.links = [l] → l.note = 0 →
        let w := t.reg (R.zveRes (l.tag.toNat % 16))
        fldN w 0 8 = l.tag.toNat ∧ fldN w 8 3 = 2 ∧ fldN w 16 16 = if opReduce l.op then 0 else min ((n + 15) / 16 * 16) l.vl)) ∧
  (∀ (s : State) (p : Fin 18) (m : BitVec 18), s.vecOn = true → s.scanCtx = false → s.zve.run = none →
    exec (.laneFault 2 p m) s = .next ((s.zvCount 0).say .zve 0x5001 0xFF 3 0 0)) ∧
  (∀ (s : State) (r : ZRun) (p : Fin 18) (m : BitVec 18), s.vecOn = true → s.scanCtx = false → s.zve.run = some r →
    r.replayed = false → r.abort = false → s.zve.nRetired < 3 →
    ∃ t, exec (.laneFault 2 p m) s = .next t ∧ t.mem = s.mem ∧ t.core = s.core ∧ t.zve.lane = s.zve.lane ∧
      t.zve.run = some { r with done := 0, fwd := [], exc := [], replayed := true, said := true, start := s.time.dt + 4 }) ∧
  (∀ (s : State) (p : Fin 18) (m : BitVec 18), s.vecOn = true → s.scanCtx = false → s.zve.run = none → s.zve.lane[p] = 0 →
    ∃ t, exec (.laneFault 0 p m) s = .next t ∧ t.zve.lane[p] = 3 ∧ t.zve.queue = s.zve.queue ∧ t.mem = s.mem) ∧
  (∀ s : State, s.vecOn = true → s.zve.nRetired = 0 →
    ((s.zve.step + 1) % 18 < 16 →
      exec .shadowRotation s = .next { s with zve := { s.zve with step := (s.zve.step + 1) % 18 } }) ∧
    (∀ a b, 16 ≤ (s.zve.step + 1) % 18 → s.zve.find 1 = some a → s.zve.find 2 = some b →
      exec .shadowRotation s = .next { s with zve := { s.zve with
        step := (s.zve.step + 1) % 18
        lane := vput (vput s.zve.lane a 2) b 1 } })) ∧
  (∀ (s : State) (f : BitVec 18), s.vecOn = true → s.zve.run = none →
    ∃ t, exec (.idleSelfTest f) s = .next t ∧ (∀ p : Fin 18, f.getLsbD p.val = true → t.zve.lane[p] = 3) ∧ t.mem = s.mem ∧
      t.core = s.core ∧ t.zve.queue = s.zve.queue ∧ (f = 0 → t = s))

/-- Sentinel arithmetic and logic on registers (16 R453, R454): the result, every flag and the PC, and nothing else. C of a sum is
the carry out, C of a difference the borrow, V says that the signed result lies outside the width. -/
def Obligations.SentinelAluWritesResultAndFlags : Prop :=
  (∀ (s : State) (rd rs : Fin 8) (i : Byte) (reg : Bool), SntReady s (if reg then 2 else 3) →
    let f := s.wnt.flags
    let x := s.wnt.b[rd]
    let y := if reg then s.wnt.b[rs] else i
    let k : Nat := if f.getLsbD 0 then 1 else 0
    let run (r : Byte → Instr) (m : Byte → Byte → Instr) := exec (if reg then r (opRR rd.val rs.val) else m (opRR 0 rd.val) i) s
    let sum (k : Nat) : Byte := BitVec.ofNat 8 (x.toNat + y.toNat + k)
    let dif (k : Nat) : Byte := BitVec.ofInt 8 (x.toInt - y.toInt - k)
    let sumF (k : Nat) := setFlagsCZNV f (some (decide (256 ≤ x.toNat + y.toNat + k))) (decide (sum k = 0)) (sum k).msb
      (some (decide ((sum k).toInt ≠ x.toInt + y.toInt + k)))
    let difF (k : Nat) := setFlagsCZNV f (some (decide (x.toNat < y.toNat + k))) (decide (dif k = 0)) (dif k).msb
      (some (decide ((dif k).toInt ≠ x.toInt - y.toInt - k)))
    let logF (r : Byte) := setFlagsCZNV f none (decide (r = 0)) r.msb (some false)
    let put (r : Byte) (g : BitVec 5) : Out := .next
      (s.sntAfter (if reg then 2 else 3) (vput s.wnt.b rd r) g)
    run .sntAdd .sntAddImm = put (sum 0) (sumF 0) ∧ run .sntAdc .sntAdcImm = put (sum k) (sumF k) ∧
      run .sntSub .sntSubImm = put (dif 0) (difF 0) ∧ run .sntSbc .sntSbcImm = put (dif k) (difF k) ∧
      run .sntAnd .sntAndImm = put (x &&& y) (logF (x &&& y)) ∧ run .sntOr .sntOrImm = put (x ||| y) (logF (x ||| y)) ∧
      run .sntXor .sntXorImm = put (x ^^^ y) (logF (x ^^^ y)) ∧ run .sntCmp .sntCmpImm = put x (difF 0)) ∧
  (∀ (s : State) (rd : Fin 8), SntReady s 2 →
    let f := s.wnt.flags
    let x := s.wnt.b[rd]
    let k : Nat := if f.getLsbD 0 then 1 else 0
    let does (i : Byte → Instr) (r : Byte) (c v : Option Bool) :=
      exec (i (opRR 0 rd.val)) s = .next (s.sntAfter 2 (vput s.wnt.b rd r) (setFlagsCZNV f c (decide (r = 0)) r.msb v))
    does .sntInc (BitVec.ofNat 8 (x.toNat + 1)) none (some (decide (x.toInt = 127))) ∧
      does .sntDec (BitVec.ofNat 8 (x.toNat + 255)) none (some (decide (x.toInt = -128))) ∧
      does .sntNeg (BitVec.ofInt 8 (-x.toInt)) (some (decide (x ≠ 0))) (some (decide (x.toInt = -128))) ∧
      does .sntNot (BitVec.ofNat 8 (255 - x.toNat)) none (some false) ∧
      does .sntShl (BitVec.ofNat 8 (2 * x.toNat)) (some (decide (128 ≤ x.toNat))) (some false) ∧
      does .sntShr (BitVec.ofNat 8 (x.toNat / 2)) (some (decide (x.toNat % 2 = 1))) (some false) ∧
      does .sntSar (BitVec.ofInt 8 (x.toInt / 2)) (some (decide (x.toNat % 2 = 1))) (some false) ∧
      does .sntRlc (BitVec.ofNat 8 (2 * x.toNat + k)) (some (decide (128 ≤ x.toNat))) (some false) ∧
      does .sntRrc (BitVec.ofNat 8 (x.toNat / 2 + 128 * k)) (some (decide (x.toNat % 2 = 1))) (some false) ∧
      does .sntSwap (BitVec.ofNat 8 (16 * x.toNat + x.toNat / 16)) none none) ∧
  (∀ (s : State) (qd qs : Fin 4) (w : Half), SntReady s 2 →
    let b := s.wnt.b
    let f := s.wnt.flags
    let x := pairOf b qd
    let y := pairOf b qs
    let sum (y : Half) : Half := BitVec.ofNat 16 (x.toNat + y.toNat)
    let sumF (y : Half) := setFlagsCZNV f (some (decide (65536 ≤ x.toNat + y.toNat))) (decide (sum y = 0)) (sum y).msb
      (some (decide ((sum y).toInt ≠ x.toInt + y.toInt)))
    let dif : Half := BitVec.ofInt 16 (x.toInt - y.toInt)
    let difF := setFlagsCZNV f (some (decide (x.toNat < y.toNat))) (decide (dif = 0)) dif.msb
      (some (decide (dif.toInt ≠ x.toInt - y.toInt)))
    let up : Half := BitVec.ofNat 16 (x.toNat + 1)
    let down : Half := BitVec.ofNat 16 (x.toNat + 65535)
    exec (.sntAddw (opRR qd.val qs.val)) s = .next (s.sntAfter 2 (pairIn b qd (sum y)) (sumF y)) ∧
      exec (.sntSubw (opRR qd.val qs.val)) s = .next (s.sntAfter 2 (pairIn b qd dif) difF) ∧
      exec (.sntCmpw (opRR qd.val qs.val)) s = .next (s.sntAfter 2 b difF) ∧
      exec (.sntIncw (opRR 0 qd.val)) s = .next (s.sntAfter 2 (pairIn b qd up)
        (setFlagsCZNV f none (decide (up = 0)) up.msb (some (decide (x = 0x7FFF))))) ∧
      exec (.sntDecw (opRR 0 qd.val)) s = .next (s.sntAfter 2 (pairIn b qd down)
        (setFlagsCZNV f none (decide (down = 0)) down.msb (some (decide (x = 0x8000))))) ∧
      (s.wnt.pc.toNat + 4 ≤ 0x4000 →
        exec (.sntAddwi (opRR 0 qd.val) w) s = .next (s.sntAfter 4 (pairIn b qd (sum w)) (sumF w)))) ∧
  (∀ (s : State) (rd rs : Fin 8), SntReady s 2 →
    let p : Half := BitVec.ofNat 16 (s.wnt.b[rd].toNat * s.wnt.b[rs].toNat)
    exec (.sntMul (opRR rd.val rs.val)) s = .next (s.sntAfter 2 (pairIn s.wnt.b 0 p) (setBit s.wnt.flags 1 (decide (p = 0))))) ∧
  (∀ (s : State) (rd : Fin 8) (n : Fin 8), SntReady s 2 →
    let x := s.wnt.b[rd]
    exec (.sntBset (opRR rd.val n.val)) s = .next (s.sntAfter 2 (vput s.wnt.b rd (x ||| 1#8 <<< n.val)) s.wnt.flags) ∧
      exec (.sntBclr (opRR rd.val n.val)) s = .next (s.sntAfter 2 (vput s.wnt.b rd (x &&& ~~~(1#8 <<< n.val))) s.wnt.flags) ∧
      exec (.sntBtst (opRR rd.val n.val)) s =
        .next (s.sntAfter 2 s.wnt.b (setBit s.wnt.flags 1 (decide (x.toNat / 2 ^ n.val % 2 = 0)))))

/-- Sentinel moves, loads, stores and the stack (16 R450 to R453, R483): the register or the bytes written, the PC, and nothing else;
a load of an I/O address reads its register with its side effect; an access marked fault faults. A 16-bit store with a byte that
faults stores nothing is the model's choice (log entry 31). -/
def Obligations.SentinelMovesLoadsStoresAndStackTakeEffect : Prop :=
  (∀ (s : State) (rd rs : Fin 8) (q r : Fin 4) (i : Byte) (w : Half), SntReady s 4 →
    let b := s.wnt.b
    let f := s.wnt.flags
    exec .sntNop s = .next (s.sntAfter 1 b f) ∧
      exec (.sntMov (opRR rd.val rs.val)) s = .next (s.sntAfter 2 (vput b rd b[rs]) f) ∧
      exec (.sntMovi (opRR 0 rd.val) i) s = .next (s.sntAfter 3 (vput b rd i) f) ∧
      exec (.sntMovw (opRR 0 q.val) w) s = .next (s.sntAfter 4 (pairIn b q w) f) ∧
      exec (.sntMovq (opRR q.val r.val)) s = .next (s.sntAfter 2 (pairIn b q (pairOf b r)) f) ∧
      exec (.sntXch (opRR rd.val rs.val)) s = .next (s.sntAfter 2 (vput (vput b rd b[rs]) rs b[rd]) f) ∧
      exec (.sntGetsp (opRR 0 q.val)) s = .next (s.sntAfter 2 (pairIn b q s.wnt.sp) f) ∧
      exec (.sntSetsp (opRR 0 q.val)) s =
        .next (s.sntNow s.mem.sdata b (pairOf b q) f (s.wnt.pc + 2))) ∧
  (∀ (s : State) (rd : Fin 8) (q : Fin 4) (d : Byte) (w : Half), SntReady s 4 →
    let b := s.wnt.b
    let f := s.wnt.flags
    (∀ v, s.sntPlain (pairOf b q).toNat = some v →
      exec (.sntLd (opRR rd.val q.val)) s = .next (s.sntAfter 2 (vput b rd v) f) ∧
        exec (.sntLdInc (opRR rd.val q.val)) s =
          .next (s.sntAfter 2 (pairIn (vput b rd v) q (pairOf (vput b rd v) q + 1)) f)) ∧
    (∀ v, s.sntPlain (pairOf b q + d.setWidth 16).toNat = some v →
      exec (.sntLdDisp (opRR rd.val q.val) d) s = .next (s.sntAfter 3 (vput b rd v) f)) ∧
    (∀ v, s.sntPlain w.toNat = some v → exec (.sntLda (opRR 0 rd.val) w) s = .next (s.sntAfter 4 (vput b rd v) f)) ∧
    (0xF000 ≤ w.toNat → ∃ t, exec (.sntLda (opRR 0 rd.val) w) s = .next t ∧ t.wnt.b = vput b rd (s.ioPeek w.toNat) ∧
      t.wnt.pc = s.wnt.pc + 4 ∧ t.wnt.flags = f ∧ t.mem = s.mem) ∧
    (0x8000 ≤ w.toNat → w.toNat < 0xF000 → SntFaults (.sntLda (opRR 0 rd.val) w) s 0)) ∧
  (∀ (s : State) (rs : Fin 8) (q : Fin 4) (d : Byte) (w : Half), SntReady s 4 →
    let b := s.wnt.b
    let f := s.wnt.flags
    let inData (a : Half) : Prop := 0x4000 ≤ a.toNat ∧ a.toNat < 0x6000
    let at_ (a : Half) := mset 0 s.mem.sdata (a.toNat - 0x4000) b[rs]
    (inData (pairOf b q) →
      exec (.sntSt (opRR q.val rs.val)) s = .next (s.sntNow (at_ (pairOf b q)) b s.wnt.sp f (s.wnt.pc + 2)) ∧
        exec (.sntStInc (opRR q.val rs.val)) s =
          .next (s.sntNow (at_ (pairOf b q)) (pairIn b q (pairOf b q + 1)) s.wnt.sp f (s.wnt.pc + 2))) ∧
    (inData (pairOf b q + d.setWidth 16) → exec (.sntStDisp (opRR q.val rs.val) d) s =
      .next (s.sntNow (at_ (pairOf b q + d.setWidth 16)) b s.wnt.sp f (s.wnt.pc + 3))) ∧
    (inData w → exec (.sntSta (opRR 0 rs.val) w) s = .next (s.sntNow (at_ w) b s.wnt.sp f (s.wnt.pc + 4))) ∧
    (0x6000 ≤ w.toNat → w.toNat < 0x8000 → s.wnt.winValid = true → exec (.sntSta (opRR 0 rs.val) w) s =
      .next { s.sntAfter 4 b f with mem := { s.mem with shared := mset 0 s.mem.shared (w.toNat - 0x6000) b[rs] } }) ∧
    (w.toNat < 0x4000 ∨ 0x8000 ≤ w.toNat ∧ w.toNat < 0xF000 → SntFaults (.sntSta (opRR 0 rs.val) w) s 0)) ∧
  (∀ (s : State) (q r : Fin 4), SntReady s 2 →
    let b := s.wnt.b
    let f := s.wnt.flags
    let a := pairOf b r
    (∀ l h, s.sntPlain a.toNat = some l → s.sntPlain (a + 1).toNat = some h →
      exec (.sntLdw (opRR q.val r.val)) s = .next (s.sntAfter 2 (pairIn b q (h ++ l : BitVec 16)) f)) ∧
    (0x4000 ≤ (pairOf b q).toNat → (pairOf b q).toNat < 0x5FFF →
      exec (.sntStw (opRR q.val r.val)) s = .next (s.sntNow
        (mset 0 (mset 0 s.mem.sdata ((pairOf b q).toNat - 0x4000) b[2 * r.val]) ((pairOf b q).toNat - 0x3FFF) b[2 * r.val + 1])
        b s.wnt.sp f (s.wnt.pc + 2)))) ∧
  (∀ (s : State) (rd : Fin 8) (q : Fin 4), SntReady s 2 →
    let b := s.wnt.b
    let f := s.wnt.flags
    let d := s.mem.sdata
    let sp := s.wnt.sp
    let get (k : Nat) := mget 0 d (sp.toNat - 0x4000 + k)
    (0x4001 ≤ sp.toNat → sp.toNat ≤ 0x6000 →
      exec (.sntPush (opRR 0 rd.val)) s = .next (s.sntNow (mset 0 d (sp.toNat - 0x4001) b[rd]) b (sp - 1) f (s.wnt.pc + 2)) ∧
        exec .sntPushf s = .next (s.sntNow (mset 0 d (sp.toNat - 0x4001) (f.setWidth 8)) b (sp - 1) f (s.wnt.pc + 1))) ∧
    (0x4002 ≤ sp.toNat → sp.toNat ≤ 0x6000 →
      exec (.sntPushq (opRR 0 q.val)) s = .next (s.sntNow
        (mset 0 (mset 0 d (sp.toNat - 0x4001) b[2 * q.val + 1]) (sp.toNat - 0x4002) b[2 * q.val]) b (sp - 2) f (s.wnt.pc + 2))) ∧
    (0x4000 ≤ sp.toNat → sp.toNat < 0x6000 →
      exec (.sntPop (opRR 0 rd.val)) s = .next (s.sntNow d (vput b rd (get 0)) (sp + 1) f (s.wnt.pc + 2)) ∧
        exec .sntPopf s = .next (s.sntNow d b (sp + 1) ((get 0).setWidth 5) (s.wnt.pc + 1))) ∧
    (0x4000 ≤ sp.toNat → sp.toNat < 0x5FFF →
      exec (.sntPopq (opRR 0 q.val)) s = .next (s.sntNow d (pairIn b q (get 1 ++ get 0 : BitVec 16)) (sp + 2) f (s.wnt.pc + 2))) ∧
    (sp.toNat ≤ 0x4000 ∨ 0x6000 < sp.toNat → SntFaults (.sntPush (opRR 0 rd.val)) s 2) ∧
    (sp.toNat < 0x4000 ∨ 0x6000 ≤ sp.toNat → SntFaults (.sntPop (opRR 0 rd.val)) s 2))

/-- Sentinel control (16 R453 to R456, Table SNT-2): jumps, calls, returns, branches, the interrupt flag, SLEEP, WFI and TRAP; a
reserved operand bit or a refused pair is an illegal opcode; an instruction whose bytes pass code RAM faults. -/
def Obligations.SentinelControlTakesEffect : Prop :=
  (∀ (s : State) (q : Fin 4) (w : Half) (rel : Byte) (rd : Fin 8), SntReady s 3 →
    let b := s.wnt.b
    let f := s.wnt.flags
    let go (p : Half) := s.sntNow s.mem.sdata b s.wnt.sp f p
    let br (i : Byte → Instr) (c : Bool) := exec (i rel) s = .next (go (s.wnt.pc + 2 + if c then rel.signExtend 16 else 0))
    exec (.sntJmp w) s = .next (go w) ∧ exec (.sntJmpq (opRR 0 q.val)) s = .next (go (pairOf b q)) ∧
      br .sntBra true ∧ br .sntBeq (f.getLsbD 1) ∧ br .sntBne (!f.getLsbD 1) ∧ br .sntBcs (f.getLsbD 0) ∧ br .sntBcc (!f.getLsbD 0) ∧
      br .sntBmi (f.getLsbD 2) ∧ br .sntBpl (!f.getLsbD 2) ∧ br .sntBvs (f.getLsbD 3) ∧ br .sntBvc (!f.getLsbD 3) ∧
      exec (.sntDjnz (opRR 0 rd.val) rel) s = .next (s.sntNow s.mem.sdata (vput b rd (b[rd] - 1)) s.wnt.sp f
        (s.wnt.pc + 3 + if b[rd] = 1 then 0 else rel.signExtend 16)) ∧
      exec .sntEi s = .next (s.sntAfter 1 b (f ||| 0x10)) ∧ exec .sntDi s = .next (s.sntAfter 1 b (f &&& 0x0F))) ∧
  (∀ (s : State) (q : Fin 4) (w : Half), SntReady s 3 →
    let b := s.wnt.b
    let f := s.wnt.flags
    let d := s.mem.sdata
    let sp := s.wnt.sp
    let pushed (r : Half) := mset 0 (mset 0 d (sp.toNat - 0x4001) ((r >>> 8).setWidth 8)) (sp.toNat - 0x4002) (r.setWidth 8)
    let get (k : Nat) := mget 0 d (sp.toNat - 0x4000 + k)
    (0x4002 ≤ sp.toNat → sp.toNat ≤ 0x6000 →
      exec (.sntCall w) s = .next (s.sntNow (pushed (s.wnt.pc + 3)) b (sp - 2) f w) ∧
        exec (.sntCallq (opRR 0 q.val)) s = .next (s.sntNow (pushed (s.wnt.pc + 2)) b (sp - 2) f (pairOf b q))) ∧
    (0x4000 ≤ sp.toNat → sp.toNat < 0x5FFF →
      exec .sntRet s = .next (s.sntNow d b (sp + 2) f (get 1 ++ get 0 : BitVec 16))) ∧
    (0x4000 ≤ sp.toNat → sp.toNat < 0x5FFE →
      exec .sntReti s = .next (s.sntNow d b (sp + 3) ((get 0).setWidth 5) (get 2 ++ get 1 : BitVec 16))) ∧
    (0x4003 ≤ sp.toNat → sp.toNat ≤ 0x6000 →
      exec .sntTrap s = .next (s.sntNow (mset 0 (pushed (s.wnt.pc + 1)) (sp.toNat - 0x4003) (f.setWidth 8)) b (sp - 3) (f &&& 0x0F)
        0x38))) ∧
  (∀ s : State, SntReady s 1 →
    (s.sntPending ≠ 0 → exec .sntSleep s = .next (s.sntAfter 1 s.wnt.b s.wnt.flags)) ∧
    (s.sntPending = 0 → s.sntBusy = false →
      ∃ t, exec .sntSleep s = .next t ∧ t.wnt.st = .asleep ∧ t.wnt.pc = s.wnt.pc + 1 ∧ t.wnt.auth = false ∧ t.wnt.b = s.wnt.b ∧
        t.mem = s.mem ∧ t.core = s.core ∧ t.mode.mode = if s.mode.mode = .sentry then .dormant else s.mode.mode) ∧
    (exec .sntWfi s = .next { s with wnt := { s.wnt with wfi := true, pc := s.wnt.pc + 1 } })) ∧
  (∀ (s : State) (o : Byte), s.sntRuns = true → s.sntDue = false →
    (s.wnt.pc.toNat + 2 ≤ 0x4000 → 64 ≤ o.toNat → SntFaults (.sntMov o) s 1) ∧
    (s.wnt.pc.toNat + 2 ≤ 0x4000 → 4 ≤ o.toNat → SntFaults (.sntGetsp o) s 1) ∧
    (0x4000 < s.wnt.pc.toNat + 2 → SntFaults (.sntMov o) s 0))

/-- The sentinel's sleep, interrupts, faults and starts, and the Winter domain's power (16 R449, R455, R456, R479, R483 to R485;
24 R650; 05 R136). A meter, GPIO or lock state that the Winter domain keeps is not touched by a sentinel fault. -/
def Obligations.SentinelAndWinterPowerEventsTakeEffect : Prop :=
  (∀ s : State, s.wnt.st = .asleep → s.sntPending ≠ 0 →
    ∃ t, exec .sentinelWake s = .next t ∧ t.wnt.st = .awake ∧ t.wnt.pc = s.wnt.pc ∧ t.wnt.b = s.wnt.b ∧ t.mem = s.mem ∧
      t.core = s.core ∧ t.mode.mode = if s.mode.mode = .dormant then .sentry else s.mode.mode) ∧
  (∀ (s : State) (i : Fin 16), s.sntRuns = true → s.wnt.flags.getLsbD 4 = true → s.sntPending.getLsbD i.val = true →
    (∀ j < i.val, s.sntPending.getLsbD j = false) → 0x4003 ≤ s.wnt.sp.toNat → s.wnt.sp.toNat ≤ 0x6000 →
    let a := s.wnt.sp.toNat
    exec .sntInterruptEntry s = .next (s.sntNow
      (mset 0 (mset 0 (mset 0 s.mem.sdata (a - 0x4001) ((s.wnt.pc >>> 8).setWidth 8)) (a - 0x4002) (s.wnt.pc.setWidth 8)) (a - 0x4003)
        (s.wnt.flags.setWidth 8)) s.wnt.b (s.wnt.sp - 3) (s.wnt.flags &&& 0x0F) (BitVec.ofNat 16 (4 * i.val)))) ∧
  (∀ s : State, (s.rcRuns = true → s.time.rcFallback = false →
      exec .rcCalibration s = .next { s with wnt := { s.wnt with calOk := true } }) ∧
    (s.rcRuns = true → s.time.rcFallback = true → exec .rcCalibration s = .next s) ∧
    (s.rcRuns = false → exec .rcCalibration s = .next { s with wnt := { s.wnt with calOk := false } })) ∧
  (∀ (s : State) (c : Fin 3), s.sntRuns = true → s.wnt.faults.length < 4 →
    ∃ t, exec (.sntFault c) s = .next t ∧ t.wnt.st = .awake ∧ t.wnt.boot = true ∧ t.wnt.pc = 0x8000 ∧ t.wnt.rstCause = 2 ∧
      t.wnt.faults = s.time.rtct :: s.wnt.faults ∧ t.log.offered = s.log.offered ++ [
        { code := 0x7106, source := 0x71, td := true, coarse := s.time.coarse && s.time.rtct != s.time.coarseAt, pf := false,
          hw := true, stamp := s.time.rtct,
          p0 := BitVec.ofNat 32 (c.val + 1), p1 := s.wnt.pc.setWidth 32, p2 := s.wnt.sp.setWidth 32, p3 := 0 }] ∧
      (t.reg R.sntEvt).getLsbD 3 = true ∧ t.use = s.use ∧ t.core = s.core ∧ t.mem = s.mem) ∧
  (∀ s : State, s.wnt.st ≠ .halted → s.iob 0xF006 ≠ 0 → s.wnt.faults.length < 4 →
    ∃ t, exec .swdtExpiry s = .next t ∧ t.wnt.st = .awake ∧ t.wnt.boot = true ∧ t.wnt.pc = 0x8000 ∧ t.wnt.rstCause = 3 ∧ t.use = s.use ∧
      t.core = s.core ∧ t.mem = s.mem) ∧
  (∀ s : State, s.wnt.boot = true → s.wnt.codeLen ≠ 0 → crc32c (mread 0 s.mem.scode 0 s.wnt.codeLen) = s.wnt.codeCrc →
    ∃ t, exec .sentinelBoot s = .next t ∧ t.wnt.boot = false ∧ t.wnt.pc = 0 ∧ t.wnt.sp = 0x6000 ∧ t.wnt.flags = 0 ∧
      t.wnt.b = Vector.replicate 8 0 ∧ t.wnt.ip = 0 ∧ t.wnt.st = s.wnt.st ∧ t.mem = s.mem ∧ t.core = s.core) ∧
  (∀ s : State, s.wnt.boot = true → s.wnt.codeLen = 0 →
    ∃ t, exec .sentinelBoot s = .next t ∧ t.wnt.st = .halted ∧ t.wnt.rstCause = 4 ∧ t.wnt.boot = false ∧ t.mem = s.mem) ∧
  (∀ s : State, s.pwr.winter = false →
    ∃ t, exec .winterPowerOn s = .next t ∧ t.pwr.winter = true ∧ t.mode.mode = .dormant ∧ t.mode.coreOn = false ∧ t.mode.wake = true ∧
      t.wnt.st = .halted ∧ t.wnt.timeofs = 0 ∧ t.wnt.seqOut = 0 ∧ t.wnt.seqIn = 0 ∧ t.use.permit = false ∧ t.mem.sdata = [] ∧
      t.time.rtct = 0 ∧ t.key.vault = s.key.vault ∧ t.dbg.lock = s.dbg.lock ∧ t.part = s.part ∧ t.uid = s.uid) ∧
  (∀ s : State, ∃ t, exec .winterPowerLoss s = .next t ∧ t.pwr.winter = false ∧ t.mode.coreOn = false ∧ t.wnt.st = .halted ∧
    t.key.vault = s.key.vault ∧ t.key.flash.cs0 = s.key.flash.cs0 ∧ t.key.flash.cs1 = s.key.flash.cs1 ∧ t.dbg.lock = s.dbg.lock ∧
    t.part = s.part ∧ t.uid = s.uid ∧ t.pending = s.pending) ∧
  (∀ s : State, s.pwr.winter = true → s.time.xrtcSeen = false →
    exec .firstXrtcEdge s = .next { s with time := { s.time with
      xrtcSeen := true
      rtct := 0
      phase := 0
      edgeDt := if s.time.run then some s.time.dt else none } })

/-- Winter time, alarm, wake timer, WAKE, tamper, SPIW and GPIO (16 R457 to R465), and the writes of sentinel registers that start
them (17 R503). -/
def Obligations.WinterTimeAndInputEventsTakeEffect : Prop :=
  (∀ s : State, s.pwr.winter = true → s.time.rtct.toNat % 32768 = 0 →
    exec .rtcSecond s = .next { s with wnt := { s.wnt with ip := s.wnt.ip ||| 0x2000 } }) ∧
  (∀ s : State, s.wnt.alarm ≠ 0 → s.wnt.fired = false → (s.iob 0xF026).getLsbD 1 = false →
    ((s.wnt.alarm.toNat : Int) ≤ s.wnt.timeofs.toInt + (s.time.rtct.toNat / 32768 : Nat) →
      exec .rtcAlarm s = .next { s with wnt := { s.wnt with fired := true, ip := s.wnt.ip ||| 8 } }) ∧
    (s.wnt.timeofs.toInt + (s.time.rtct.toNat / 32768 : Nat) < (s.wnt.alarm.toNat : Int) → exec .rtcAlarm s = .next s)) ∧
  (∀ (s : State) (v : Byte), s.sntRuns = true → s.wnt.auth = false →
    exec (.localWrite v) s = .next { s with wnt := { s.wnt with tdeny := true } } ∧
    exec (.timeofsWrite v) s = .next { s.putIob 0xF015 v with wnt := { (s.putIob 0xF015 v).wnt with tdeny := true } }) ∧
  (∀ (s : State) (v : Byte), s.sntRuns = true → s.wnt.auth = true →
    (-48 ≤ v.toInt → v.toInt ≤ 56 → exec (.localWrite v) s = .next { s with wnt := { s.wnt with loc := v } }) ∧
    (v.toInt < -48 ∨ 56 < v.toInt → exec (.localWrite v) s = .next { s with wnt := { s.wnt with tdeny := true } })) ∧
  (∀ (s : State) (v : Byte), s.sntRuns = true → s.wnt.auth = true →
    let n : BitVec 48 := BitVec.ofNat 48 (s.ioNat 0xF010 5 + 256 ^ 5 * v.toNat)
    let u := n.toInt + (s.time.rtct.toNat / 32768 : Nat)
    0 ≤ u → u ≤ 6311433599 → s.mapsWf = true →
      ∃ t, exec (.timeofsWrite v) s = .next t ∧ t.wnt.timeofs = n ∧ t.wnt.loc = s.wnt.loc ∧ t.time = s.time ∧ t.mem = s.mem ∧
        t.core = s.core) ∧
  (∀ (s : State) (v : Byte), s.sntRuns = true → s.mapsWf = true → (s.iob 0xF026).getLsbD 1 = false →
    let n : BitVec 48 := BitVec.ofNat 48 (s.ioNat 0xF020 5 + 256 ^ 5 * v.toNat)
    let due := n ≠ 0 ∧ (n.toNat : Int) ≤ s.wnt.timeofs.toInt + (s.time.rtct.toNat / 32768 : Nat)
    exec (.alarmWrite v) s = .next { s.putIob 0xF025 v with wnt := { (s.putIob 0xF025 v).wnt with
      alarm := n
      fired := decide due
      ip := if due then s.wnt.ip ||| 8 else s.wnt.ip } }) ∧
  (∀ (s : State) (v : Byte), s.sntRuns = true → s.mapsWf = true →
    let n : Word := BitVec.ofNat 32 (s.ioNat 0xF028 3 + 256 ^ 3 * v.toNat)
    exec (.wtmrWrite v) s = .next { s.putIob 0xF02B v with wnt := { (s.putIob 0xF02B v).wnt with wtCnt := n, wtVal := n } }) ∧
  (∀ s : State, s.wnt.wtCnt ≠ 0 → (s.iob 0xF02C).getLsbD 1 = false →
    exec .wakeTimer s = .next { s with wnt := { s.wnt with
      wtCnt := if (s.iob 0xF02C).getLsbD 0 then s.wnt.wtVal else 0
      ip := s.wnt.ip ||| 0x10 } }) ∧
  (∀ (s : State) (n : Fin 4) (v : Bool), s.pwr.winter = true → s.wnt.wake.getLsbD n.val ≠ v →
    (s.iob (0xF030 + 4 * n.val)).toNat % 4 = 0 →
    exec (.wake n v) s = .next { s with wnt := { s.wnt with wake := setBit s.wnt.wake n.val v } }) ∧
  (∀ (s : State) (n : Fin 4), s.pwr.winter = true → s.wnt.wake.getLsbD n.val = false → s.iob (0xF030 + 4 * n.val) = 5 →
    (∀ i < 8, (s.iob (0xF448 + i)).getLsbD 0 = false) → s.wnt.wakeSaid[n] = [] →
    ∃ t, exec (.wake n true) s = .next t ∧ t.wnt.wake = setBit s.wnt.wake n.val true ∧ t.wnt.ip = s.wnt.ip ||| 4 ∧
      t.iob (0xF032 + 4 * n.val) = satInc (s.iob (0xF032 + 4 * n.val)) ∧ t.use = s.use ∧ t.core = s.core ∧
      t.log.offered.length = s.log.offered.length + 1) ∧
  (∀ s : State, s.sntRuns = true →
    ∃ t, exec .wakecoreWrite s = .next t ∧ t.mode.mode = s.mode.mode ∧ t.core = s.core ∧ t.mem = s.mem ∧
      (s.mode.mode = .dormant ∨ s.mode.mode = .sentry ∨ s.mode.mode = .safe ∨ s.mode.m9.isSome = true → t.mode.wake = true) ∧
      (s.mode.mode = .ready ∨ s.mode.mode = .protect ∨ s.mode.mode = .service → s.mode.m9 = none → t.mode = s.mode)) ∧
  (∀ (s : State) (x : Fin 2) (k : BitVec 2), s.pwr.winter = true → (s.iob (0xF040 + 4 * x.val)).getLsbD 0 = false →
    exec (.tamperCheck x k) s = .next s) ∧
  (∀ (s : State) (x : Fin 2) (k : BitVec 2), s.pwr.winter = true → (s.iob (0xF040 + 4 * x.val)).getLsbD 0 = true →
    (s.iob (0xF040 + 4 * x.val)).getLsbD 3 = false → (s.iob (0xF44A + x.val)).getLsbD 0 = false → k ≠ 0 →
    s.wnt.loops[x].broken = false →
    ∃ t, exec (.tamperCheck x k) s = .next t ∧ t.use = s.use ∧ t.core = s.core ∧ t.mem = s.mem ∧
      (s.wnt.loops[x].run = 0 → t.wnt.loops = vput s.wnt.loops x { s.wnt.loops[x] with run := 1 } ∧ t.wnt.ip = s.wnt.ip) ∧
      (s.wnt.loops[x].run ≠ 0 → t.wnt.loops = vput s.wnt.loops x { broken := true, kind := k, run := 0, since := s.time.rtct } ∧
        t.wnt.ip = s.wnt.ip ||| 2)) ∧
  (∀ (s : State) (v : Byte), s.sntRuns = true →
    (s.wnt.spwBusy = false → exec (.spwdataWrite v) s = .next { s with wnt := { s.wnt with spwBusy := true, spwTx := v } }) ∧
    (s.wnt.spwBusy = true → exec (.spwdataWrite v) s = .next { s with wnt := { s.wnt with spwOvr := true } })) ∧
  (∀ (s : State) (rx : Byte), s.wnt.spwBusy = true → s.wnt.sleep = false →
    ∃ t, exec (.spiwExchangeDone rx) s = .next t ∧ t.wnt.spwBusy = false ∧ t.wnt.spwData = rx ∧ t.wnt.ip = s.wnt.ip ||| 0x200 ∧
      t.wnt.st = s.wnt.st ∧ t.mem = s.mem ∧ t.core = s.core) ∧
  (∀ (s : State) (i : Fin 4) (v : Bool), s.pwr.winter = true → s.mode.coreOn = false → (s.iob 0xF050).getLsbD i.val = false →
    s.wnt.gin.getLsbD i.val ≠ v →
    exec (.winterGpioEdge i v) s = .next { s with wnt := { s.wnt with
      gin := setBit s.wnt.gin i.val v
      ip := if edgeOn ((s.iob 0xF053).toNat / 4 ^ i.val % 4) v then s.wnt.ip ||| 0x800 else s.wnt.ip } })

/-- Sentinel UARTs, the mailbox, the ring push, the seal unit and software entries (16 R466 to R480): what each event leaves. -/
def Obligations.SentinelUartMailboxAndSealEventsTakeEffect : Prop :=
  (∀ (s : State) (u : Fin 2) (v : Byte), (s.wnt.uart[u]).core = false → (s.iob (0xF072 + 8 * u.val)).toNat % 16 = 1 →
    let x := s.wnt.uart[u]
    exec (.sntUartRx u v false false) s = .next { s with wnt := { s.wnt with
      uart := vput s.wnt.uart u (if x.rx.length < 16 then { x with rx := x.rx ++ [v] } else { x with flags := x.flags ||| 1 }) } }) ∧
  (∀ (s : State) (u : Fin 2) (b : Byte) (l : List Byte), (s.wnt.uart[u]).core = false → (s.wnt.uart[u]).tx = b :: l →
    s.iob (0xF072 + 8 * u.val) = 1 → s.wnt.sleep = false →
    ∃ t, exec (.sntUartTx u) s = .next t ∧ t.wnt.uart = vput s.wnt.uart u { s.wnt.uart[u] with tx := l } ∧ t.wnt.ip = s.wnt.ip ∧
      t.wnt.st = s.wnt.st ∧ t.core = s.core ∧ t.mem = s.mem) ∧
  (∀ (s : State) (v : Word), s.regsOn = true → (s.wnt.uart[0]).core = false → (s.wnt.uart[1]).core = false →
    (s.wnt.uart[0]).grant = false → (s.wnt.uart[1]).grant = false →
    exec (.sntUartReqWrite v) s = .next ((s.setReg R.sntUartReq (v &&& 3)).answer .ok 0)) ∧
  (∀ (s : State) (u : Fin 2), s.mode.coreOn = true → (s.wnt.uart[u]).core = false → (s.wnt.uart[u]).tx = [] →
    bit (s.reg R.sntUartReq) u.val = true → (s.wnt.uart[u]).grant = true →
    ∃ t, exec (.uartOwner u) s = .next t ∧ t.wnt.uart = vput s.wnt.uart u { s.wnt.uart[u] with core := true } ∧
      t.wnt.ip = s.wnt.ip ||| (0x80 <<< u.val) ∧ (t.reg R.sntEvt).getLsbD 2 = true ∧ t.core = s.core ∧ t.mem = s.mem ∧
      t.log.offered.length = s.log.offered.length + 1) ∧
  (∀ s : State, s.regsOn = true →
    (s.wnt.infull = false → exec .c2sGo s = .next (State.answer { s with wnt := { s.wnt with
      infull := true
      mbin := (List.range 8).map (fun n => s.reg (0x000E0010 + 4 * n))
      ip := s.wnt.ip ||| 0x20 } } .ok 0)) ∧
    (s.wnt.infull = true → exec .c2sGo s = .next ((s.evt R.sntEvt 4).answer .ok 0)) ∧
    (s.wnt.out.getLsbD 0 = true → exec .s2cAck s = .next (State.answer { s with wnt := { s.wnt with
      out := (s.wnt.out &&& 0xE) ||| 2
      ip := s.wnt.ip ||| 0x40 } } .ok 0)) ∧
    (s.wnt.out.getLsbD 0 = false → exec .s2cAck s = .next (s.answer .ok 0))) ∧
  (∀ s : State, s.sntRuns = true →
    exec .mbstatAck s = .next (State.evt { s with wnt := { s.wnt with infull := false } } R.sntEvt 0) ∧
    (s.mode.coreOn = false → exec .outgoMailbox s = .next { s with wnt := { s.wnt with
      out := s.wnt.out ||| 8
      ip := s.wnt.ip ||| 0x40 } } ∧ exec .outgoRingPush s = exec .outgoMailbox s) ∧
    (s.mode.coreOn = true → s.wnt.out.getLsbD 0 = true → exec .outgoMailbox s = .next { s with wnt := { s.wnt with
      out := s.wnt.out ||| 4 } } ∧ exec .outgoRingPush s = exec .outgoMailbox s) ∧
    (s.mode.coreOn = true → s.wnt.out.getLsbD 0 = false → s.iob 0xF150 = 1 →
      exec .outgoMailbox s = .next (State.evt { s with
        regs := mset 0 s.regs 0x000E0040 (wordLE (mread 0 s.wnt.io 0xF130 4))
        wnt := { s.wnt with out := s.wnt.out ||| 1 } } R.sntEvt 1) ∧
      (fldN (wordLE (mread 0 s.wnt.io 0xF130 4)) 0 4 ≠ 1 → exec .outgoRingPush s = .next { s with wnt := { s.wnt with
        out := s.wnt.out ||| 4
        ip := s.wnt.ip ||| 0x40 } })) ∧
    (s.mode.coreOn = true → s.wnt.out.getLsbD 0 = false → 8 < (s.iob 0xF150).toNat → exec .outgoRingPush s = .next { s with
      wnt := { s.wnt with out := s.wnt.out ||| 4, ip := s.wnt.ip ||| 0x40 } })) ∧
  (∀ (s : State) (r : Fin 64) (n : Nat) (w : Word), s.sntRuns = true → s.mode.coreOn = true → s.wnt.out.getLsbD 0 = false →
    (s.iob 0xF151).toNat = r.val → (s.iob 0xF150).toNat = n → 1 ≤ n → n ≤ 8 → w = wordLE (mread 0 s.wnt.io 0xF130 4) →
    w.toNat % 16 = n → (s.ringCfg r).role ≠ 0 → (s.sch.ring[r]).opened[(2 : Fin 5)] = none →
    (s.sch.ring[r]).torn[(2 : Fin 5)] = none → n ≤ s.ringFree r →
    ∃ t, exec .outgoRingPush s = .next t ∧ t.wnt = { s.wnt with out := s.wnt.out ||| 2, ip := s.wnt.ip ||| 0x40 } ∧
      (t.sch.ring[r]).lens = (s.sch.ring[r]).lens ++ [n] ∧ (t.sch.ring[r]).opened[(2 : Fin 5)] = none ∧ t.core = s.core) ∧
  (∀ s : State, s.sntRuns = true → s.wnt.sealing = none → (s.iob 0xF202).toNat ≤ 32 → (s.iob 0xF203).toNat ≠ 0 →
    (s.iob 0xF203).toNat ≤ 200 → s.wnt.sealLock = false → s.wnt.sealKey.isSome = true → (s.slotKey 12).isSome = true →
    (s.wnt.seqOut ≠ BitVec.allOnes 64 → exec .seal s = .next { s with wnt := { s.wnt with
      auth := false
      sealing := some { isOpen := false, stop := none }
      io := mwrite 0 s.wnt.io 0xF300 (toLE 8 s.wnt.seqOut.toNat ++ toLE 5 (s.uid.toNat % 2 ^ 39))
      seqOut := s.wnt.seqOut + 1 } }) ∧
    (s.wnt.seqOut = BitVec.allOnes 64 → exec .seal s = .next { s with wnt := { s.wnt with
      auth := false
      sealing := some { isOpen := false, stop := some 8 } } }) ∧
    exec .openReq s = .next { s with wnt := { s.wnt with auth := false, sealing := some { isOpen := true, stop := none } } }) ∧
  (∀ s : State, s.sntRuns = true → s.wnt.sealing = none → (s.iob 0xF202).toNat ≤ 32 → (s.iob 0xF203).toNat ≠ 0 →
    (s.iob 0xF203).toNat ≤ 200 → s.wnt.sealKey = none ∨ s.slotKey 12 = none →
    exec .seal s = .next { s with wnt := { s.wnt with auth := false, sealing := some { isOpen := false, stop := some 5 } } } ∧
    exec .openReq s = .next { s with wnt := { s.wnt with auth := false, sealing := some { isOpen := true, stop := some 5 } } }) ∧
  (∀ (s : State) (o : SealOp) (key : List Byte), s.wnt.sealing = some o → s.wnt.sleep = false →
    let nonce := mread 0 s.wnt.io 0xF300 13
    let aad := mread 0 s.wnt.io 0xF310 (s.iob 0xF202).toNat
    let data := mread 0 s.wnt.io 0xF330 (s.iob 0xF203).toNat
    let ctr : DWord := BitVec.ofNat 64 (natLE (nonce.take 8))
    (∀ r, o.stop = some r → ∃ t, exec .sealOperationDone s = .next t ∧ t.wnt.sealing = none ∧ t.wnt.sealRes = r ∧
      t.wnt.ip = s.wnt.ip ||| 0x400 ∧ t.wnt.io = s.wnt.io ∧ t.wnt.auth = s.wnt.auth) ∧
    (o.stop = none → o.isOpen = false → s.wnt.sealKey = some key →
      ∃ t, exec .sealOperationDone s = .next t ∧ t.wnt.sealing = none ∧ t.wnt.sealRes = 1 ∧ t.wnt.ip = s.wnt.ip ||| 0x400 ∧
        t.wnt.io = mwrite 0 (mwrite 0 s.wnt.io 0xF330 (ccmCrypt key nonce data)) 0xF3F8 (ccmTag key nonce aad data 8) ∧
        t.wnt.seqOut = s.wnt.seqOut ∧ t.mem = s.mem) ∧
    (o.stop = none → o.isOpen = true → s.wnt.sealKey = some key → natLE (nonce.drop 8) = s.uid.toNat % 2 ^ 39 + 2 ^ 39 →
      s.wnt.seqIn < ctr →
      let plain := ccmCrypt key nonce data
      let ok : Bool := ccmTag key nonce aad plain 8 == mread 0 s.wnt.io 0xF3F8 8
      ∃ t, exec .sealOperationDone s = .next t ∧ t.wnt.sealing = none ∧ t.wnt.sealRes = (if ok then 1 else 2) ∧
        t.wnt.seqIn = (if ok then ctr else s.wnt.seqIn) ∧ t.wnt.auth = (ok || s.wnt.auth) ∧ t.wnt.sealLock = (!ok || s.wnt.sealLock) ∧
        t.wnt.io = mwrite 0 s.wnt.io 0xF330 (if ok then plain else List.replicate (s.iob 0xF203).toNat 0)) ∧
    (o.stop = none → o.isOpen = true → natLE (nonce.drop 8) = s.uid.toNat % 2 ^ 39 + 2 ^ 39 → ctr ≤ s.wnt.seqIn →
      ∃ t, exec .sealOperationDone s = .next t ∧ t.wnt.sealing = none ∧ t.wnt.sealRes = 3 ∧ t.wnt.seqIn = s.wnt.seqIn ∧
        t.wnt.auth = s.wnt.auth ∧ t.wnt.sealLock = true ∧ t.wnt.io = s.wnt.io)) ∧
  (∀ s : State, exec .sealUnlock s = .next { s with wnt := { s.wnt with sealLock := false } } ∧
    exec .authExpiry s = .next { s with wnt := { s.wnt with auth := false } }) ∧
  (∀ (s : State) (v : Byte), s.sntRuns = true → s.mapsWf = true →
    let c : Half := v ++ s.iob 0xF170
    (c < 0xE000 ∨ 0xEFFF < c → exec (.swsEntryWrite v) s = .next { s.putIob 0xF171 v with
      wnt := { (s.putIob 0xF171 v).wnt with logStat := s.wnt.logStat ||| 1 } }) ∧
    (0xE000 ≤ c → c ≤ 0xEFFF → exec (.swsEntryWrite v) s = .next ((s.putIob 0xF171 v).offer
      { code := c, source := 0xE1, td := true, coarse := s.time.coarse && s.time.rtct != s.time.coarseAt, pf := false, hw := false,
        stamp := s.time.rtct,
        p0 := wordLE (mread 0 s.wnt.io 0xF160 4), p1 := wordLE (mread 0 s.wnt.io 0xF164 4), p2 := wordLE (mread 0 s.wnt.io 0xF168 4),
        p3 := wordLE (mread 0 s.wnt.io 0xF16C 4) })))

/-- Hour meters, energy, billing, the hire permit and theft (17 R488 to R506): what each event leaves. -/
def Obligations.UsageEventsTakeEffect : Prop :=
  (∀ (s : State) (m : Fin 4), (s.use.meter[m]).sel = 3 →
    (s.mode.mode = .protect → exec (.hourMeterSecond m) s = .next { s with use := { s.use with
      meter := vput s.use.meter m { s.use.meter[m] with ticks := 0, sec := satInc (s.use.meter[m]).sec } } }) ∧
    (s.mode.mode ≠ .protect → exec (.hourMeterSecond m) s = .next s)) ∧
  (∀ (s : State) (m : Fin 4) (sig : Bool), (s.use.meter[m]).sel = 2 → s.mode.mode = .ready → s.running = true →
    exec (.hourMeterGate m sig) s = .next { s with use := { s.use with
      meter := vput s.use.meter m { s.use.meter[m] with qual := if sig then 32769 else 0 } } }) ∧
  (∀ (s : State) (m : Fin 4) (sel : BitVec 3) (pin : BitVec 2) (inv : Bool) (sig : BitVec 10), s.regsOn = true →
    (s.mode.mode ≠ .service → exec (.hmCfg true m sel pin inv sig) s = .next ((s.evt R.hmtEvt 4).answer .ok 0)) ∧
    (s.mode.mode = .service → ∃ t, exec (.hmCfg true m sel pin inv sig) s = .next t ∧ (t.use.meter[m]).sel = sel ∧
      (t.use.meter[m]).pin = pin ∧ (t.use.meter[m]).inv = inv ∧ (t.use.meter[m]).sig = sig ∧
      (t.use.meter[m]).sec = (s.use.meter[m]).sec ∧ (t.use.meter[m]).ticks = (s.use.meter[m]).ticks ∧ t.wnt = s.wnt ∧
      t.core = s.core ∧ t.mem = s.mem ∧ t.log.offered.length = s.log.offered.length + 1)) ∧
  (∀ (s : State) (m : Fin 4) (sel : BitVec 3) (pin : BitVec 2) (inv : Bool) (sig : BitVec 10), s.sntRuns = true →
    s.wnt.auth = false → exec (.hmCfg false m sel pin inv sig) s = .next { s with
      use := { s.use with uevt := s.use.uevt ||| 0x20 }, wnt := { s.wnt with ip := s.wnt.ip ||| 0x8000 } }) ∧
  (∀ (s : State) (v : Word), s.regsOn = true →
    (fld v 16 16 ≠ 0x4D48 ∨ s.mode.mode ≠ .service → exec (.hmtPresetGo v) s = .next ((s.evt R.hmtEvt 4).answer .ok 0)) ∧
    (fld v 16 16 = 0x4D48 → s.mode.mode = .service → exec (.hmtPresetGo v) s = .next (State.answer { s with use := { s.use with
      presets := s.use.presets ++ [{ meter := ⟨v.toNat % 4, by omega⟩, value := s.reg 0x000F8020, core := true }] } } .ok 0))) ∧
  (∀ (s : State) (p : PresetReq) (l : List PresetReq), s.use.presets = p :: l →
    ((s.use.meter[p.meter]).sec < p.value → ∃ t, exec .hmPreset s = .next t ∧ t.use.presets = l ∧ t.use.lost = false ∧
      t.use.meter = vput s.use.meter p.meter { s.use.meter[p.meter] with sec := p.value, ticks := 0 } ∧ t.wnt = s.wnt ∧
      t.core = s.core ∧ t.mem = s.mem) ∧
    (p.value ≤ (s.use.meter[p.meter]).sec → p.core = true →
      exec .hmPreset s = .next (State.evt { s with use := { s.use with presets := l } } R.hmtEvt 4))) ∧
  (∀ (s : State) (v : Byte), s.sntRuns = true →
    (s.wnt.auth = false → s.use.en = true → s.use.hold = false → v = 3 →
      exec (.hireCtlWrite v) s = .next { s with use := { s.use with
        hold := true
        due := match s.use.due with
          | some (some x) => some (some x)
          | _ => some (some 2) } }) ∧
    (s.wnt.auth = false → v.getLsbD 7 = true → exec (.hireCtlWrite v) s = .next { s with
      use := { s.use with uevt := s.use.uevt ||| 0x20 }, wnt := { s.wnt with ip := s.wnt.ip ||| 0x8000 } }) ∧
    (s.wnt.auth = true → v = 0x81 → ∃ t, exec (.hireCtlWrite v) s = .next t ∧ t.use.en = true ∧ t.use.hold = false ∧
      t.use.start = BitVec.ofNat 48 (s.ioNat 0xF430 6) ∧ t.use.till = BitVec.ofNat 48 (s.ioNat 0xF436 6) ∧
      t.use.due.isSome = true ∧ t.use.permit = s.use.permit ∧ t.wnt = s.wnt)) ∧
  (∀ (s : State) (v : Word), s.regsOn = true →
    (fld v 16 16 = 0x0FF5 → bit v 0 = true → s.use.hold = false → ∃ t, exec (.hmtWithdraw v) s = .next t ∧ t.use.hold = true ∧
      t.use.due.isSome = true ∧ t.fab = s.fab ∧ t.mode = s.mode ∧ t.wnt = s.wnt) ∧
    (fld v 16 16 ≠ 0x0FF5 ∨ bit v 0 = false ∨ s.use.hold = true → exec (.hmtWithdraw v) s = .next (s.answer .ok 0))) ∧
  (∀ s : State, s.pwr.winter = true →
    ∃ t, exec .hire s = .next t ∧ t.use.due = none ∧ t.fab = s.fab ∧ t.mode = s.mode ∧ t.core = s.core ∧ t.mem = s.mem ∧
      (t.use.permit = true ↔ s.use.en = true ∧ s.use.hold = false ∧
        (s.use.start.toNat : Int) ≤ s.wnt.timeofs.toInt + (s.time.rtct.toNat / 32768 : Nat) ∧
        s.wnt.timeofs.toInt + (s.time.rtct.toNat / 32768 : Nat) < (s.use.till.toNat : Int))) ∧
  (∀ (s : State) (v : Byte), s.sntRuns = true → s.wnt.auth = false → s.use.immobCtl = 0 → (v &&& 7) = 1 →
    ∃ t, exec (.usageRegisterWrite 0xF440 v) s = .next t ∧ t.use.immobCtl = 1 ∧ t.use.immob = true ∧ t.fab = s.fab) ∧
  (∀ (s : State) (v : Byte), s.sntRuns = true → s.wnt.auth = false → s.use.immobCtl = 1 → (v &&& 7) = 0 →
    exec (.usageRegisterWrite 0xF440 v) s = .next { s with
      use := { s.use with uevt := s.use.uevt ||| 0x20 }, wnt := { s.wnt with ip := s.wnt.ip ||| 0x8000 } }) ∧
  (∀ (s : State) (v : Byte), s.sntRuns = true → (s.iob 0xF44E).getLsbD 0 = true → (s.iob 0xF44E).getLsbD 1 = false →
    ∃ t, exec (.theftSet v) s = .next t ∧ t.fab = s.fab ∧ t.mode = s.mode ∧
      (v = 0x40 → t.use.thStat = s.use.thStat ||| 0x40 ∧ t.use.thCnt = vput s.use.thCnt 6 (satInc s.use.thCnt[6]) ∧
        t.use.uevt.getLsbD 0 = true ∧ t.wnt.ip.getLsbD 15 = true) ∧ (v &&& 0xC0 = 0 → t = s)) ∧
  (∀ (s : State) (v : Byte), s.sntRuns = true →
    (s.wnt.auth = false → v &&& s.use.thStat ≠ 0 → exec (.theftClear v) s = .next { s with
      use := { s.use with uevt := s.use.uevt ||| 0x20 }, wnt := { s.wnt with ip := s.wnt.ip ||| 0x8000 } }) ∧
    (s.wnt.auth = true → v &&& s.use.thStat ≠ 0 → ∃ t, exec (.theftClear v) s = .next t ∧ t.use.thStat = s.use.thStat &&& ~~~v ∧
      (∀ i : Fin 8, t.use.thCnt[i] = if (v &&& s.use.thStat).getLsbD i.val then 0 else s.use.thCnt[i]) ∧ t.fab = s.fab)) ∧
  (∀ s : State, s.pwr.winter = true →
    (s.use.cut = false → ∃ t, exec .vbatCut s = .next t ∧ t.use.cut = true ∧ t.use.cutAt = s.time.rtct ∧ t.pwr.vbatValid = false ∧
      t.use.uevt.getLsbD 1 = true ∧ t.fab = s.fab ∧ t.mode = s.mode ∧ t.core = s.core) ∧
    (s.use.cut = true → exec .vbatCut s = .next s ∧ ∃ t, exec .vbatRestore s = .next t ∧ t.use.cut = false ∧
      t.use.uevt = s.use.uevt ||| 4 ∧ t.wnt.ip = s.wnt.ip ||| 0x8000 ∧ t.log.offered.length = s.log.offered.length + 1))

/-- The UMU (17 R491 to R496; 02 R49): an input is held 50 us and a boundary is stamped by the sync pair; a held commit adds its
energy, a boundary closes its interval and switches the tariff, a keyed write closes the billing period, the schedule is staged
and applied only in Service. -/
def Obligations.EnergyEventsTakeEffect : Prop :=
  (∀ (s : State) (c : UmuCfg) (b : DWord) (p : List Word), s.umuCfg = some c → s.umu.opened = true →
    s.umu.held = [.commit b p] → s.umu.bounds = [] → b.toNat + 5000 ≤ s.time.dt.toNat → c.group[(0 : Fin 4)] = 4 →
      c.group[(1 : Fin 4)] = 0 → c.group[(2 : Fin 4)] = 0 → c.group[(3 : Fin 4)] = 0 →
    let r := s.umu.data.res[(0 : Fin 4)] + (p.getD 2 0).toInt * (s.periodUs : Int)
    let i : Fin 32 := ⟨s.umu.tariff.val, by omega⟩
    exec .umuCommitInput s = .next { s with umu := { s.umu with
      held := []
      closed := false
      data := { s.umu.data with
        res := vput s.umu.data.res 0 (r - 1000 * r.tdiv 1000)
        acc := vput s.umu.data.acc i (satAdd64 s.umu.data.acc[i] (r.tdiv 1000))
        eint := satAdd64 s.umu.data.eint (r.tdiv 1000) } } }) ∧
  (∀ s : State, s.umu.held = [] → exec .umuCommitInput s = .next s) ∧
  (∀ (s : State) (b : DWord) (p : List Word) (l : List UmuIn), s.umu.held = .commit b p :: l → s.time.dt.toNat < b.toNat + 5000 →
    exec .umuCommitInput s = .next s) ∧
  (∀ (s : State) (n : Nat), s.time.syncRtc.toNat + n < 2 ^ 64 →
    s.toDt (s.time.syncRtc + BitVec.ofNat 64 n) = s.time.syncDt + BitVec.ofNat 64 (n * 390625 / 128)) ∧
  (∀ (s : State) (c : UmuCfg) (x : UmuBound) (l : List UmuBound), s.umuCfg = some c → s.umu.live = true → s.umu.opened = true →
    s.umu.held = [] → s.umu.bounds = x :: l → s.umu.pend = none →
    (s.time.dt.toNat < (s.toDt x.rtct).toNat + 5000 → exec .umuBoundary s = .next s) ∧
    ((s.toDt x.rtct).toNat + 5000 ≤ s.time.dt.toNat → (max 0 x.sec).toNat / 60 % 60 % c.demandMin ≠ 0 →
      tariffAt s.umu.data.sched x.sec = s.umu.tariff →
      exec .umuBoundary s = .next { s with umu := { s.umu with bounds := l, closed := false } }) ∧
    ((s.toDt x.rtct).toNat + 5000 ≤ s.time.dt.toNat → (max 0 x.sec).toNat / 60 % 60 % c.demandMin = 0 → s.umu.ue = false →
      ∃ t, exec .umuBoundary s = .next t ∧ t.umu.data.eint = 0 ∧ t.umu.data.start = BitVec.ofInt 32 x.utc ∧ t.umu.closed = true ∧
        t.umu.part = false ∧ t.umu.bounds = l ∧ t.umu.tariff = tariffAt s.umu.data.sched x.sec ∧ t.umu.data.acc = s.umu.data.acc ∧
        t.umu.data.res = s.umu.data.res ∧ (t.umu.data.md[s.umu.tariff]).isSome = true ∧ t.umu.ckSeq = s.umu.ckSeq + 1 ∧
        t.core = s.core ∧ t.fab = s.fab ∧ t.mem = s.mem)) ∧
  (∀ (s : State) (v : Word), s.regsOn = true →
    (fld v 16 16 ≠ 0x8B1D → exec (.umuBill v) s = .next ((s.evt R.umuEvt 4).answer .ok 0)) ∧
    (fld v 16 16 = 0x8B1D → bit v 0 = true → s.mode.mode = .ready → s.umuCfg.isSome = true → s.umu.held = [] → s.umu.bounds = [] →
      ∃ t, exec (.umuBill v) s = .next t ∧ t.umu.data.mdp = s.umu.data.md ∧ t.umu.data.md = Vector.replicate 8 none ∧
        t.umu.data.bill = s.umu.data.bill + 1 ∧ t.umu.data.acc = s.umu.data.acc ∧ t.resp = ⟨.ok, 0⟩ ∧ t.core = s.core ∧
        t.mem = s.mem) ∧
    (fld v 16 16 = 0x8B1D → bit v 0 = true → s.mode.mode = .ready → s.umuCfg.isSome = true →
      s.umu.bounds ≠ [] → exec (.umuBill v) s = .next (State.answer { s with umu := { s.umu with
        held := s.umu.held ++ [.bill s.time.dt s.time.rtct] } } .ok 0))) ∧
  (∀ (s : State) (v : Word), s.regsOn = true →
    (s.mode.mode ≠ .service → exec (.umuSchedDataWrite v) s = .next ((s.evt R.umuEvt 4).answer .ok 0) ∧
      exec (.umuSchedApply v) s = .next ((s.evt R.umuEvt 4).answer .ok 0) ∧
      exec (.umuSchedRevert v) s = .next ((s.evt R.umuEvt 4).answer .ok 0)) ∧
    (s.mode.mode = .service → s.umuCfg.isSome = true → fldN (s.reg 0x000F0030) 0 7 < 98 →
      exec (.umuSchedDataWrite v) s = .next (State.answer { s with umu := { s.umu with
        staged := s.umu.staged.set (fldN (s.reg 0x000F0030) 0 7) (schedMask (fldN (s.reg 0x000F0030) 0 7) v) } } .ok 0)) ∧
    (s.mode.mode = .service → s.umuCfg.isSome = true → v = 0x5C4E0001 → schedOk s.umu.staged = true →
      exec (.umuSchedApply v) s = .next (State.answer { s with umu := { s.umu with
        pend := some (s.time.dt + 100000, s.umu.staged) } } .ok 0)) ∧
    (s.mode.mode = .service → s.umuCfg.isSome = true → v = 0x5C4E0001 → schedOk s.umu.staged = false →
      exec (.umuSchedApply v) s = .next ((s.evt R.umuEvt 4).answer .ok 0)) ∧
    (s.mode.mode = .service → s.umuCfg.isSome = true → v = 0x5C4E0002 →
      exec (.umuSchedRevert v) s = .next (State.answer { s with umu := { s.umu with staged := s.umu.data.sched } } .ok 0)))

/-- Mover jobs, the key vault and Service authentication (18 R526 to R532): a GO that meets its conditions starts its job, any other
starts nothing; a job ends with its result and its event; vault and authentication commands act only as the rules allow. A command
while another programs has no effect by the model's choice (log entry 35), ERASE takes its external end from MOV_DST (33). -/
def Obligations.MoverVaultAndAuthenticationCommandsTakeEffect : Prop :=
  (∀ (s : State) (c : Fin 8) (push : Bool) (ring : Fin 64), s.regsOn = true → 3 ≤ c.val → s.movOpen = true →
    let src := s.reg (R.movSrc c.val)
    let dst := s.reg (R.movDst c.val)
    let len := (s.reg (R.movLen c.val)).toNat % 0x2000000
    let go (op : Nat) := s.setReg (R.movCtl c.val) (at_ op 1 ||| bitAt push 3 ||| at_ ring.val 8)
    let job (op : BitVec 2) : MovSt := { MovSt.reset with busy := true, op := op, src := src, dst := dst, len := len, push := push,
                                                          ring := ring }
    ((s.key.mov[c]).busy = false → len ≤ 16777216 →
      (len % 32 = 0 → src.toNat % 32 = 0 → internalOk dst len false = true →
        exec (.moverRead c push ring) s = .next (((go 1).putMov c (job 1)).answer .ok 0)) ∧
      (len % 32 = 0 → dst.toNat % 32 = 0 → internalOk src len true = true →
        exec (.moverWrite c push ring) s = .next (((go 2).putMov c (job 2)).answer .ok 0)) ∧
      (len % 32768 = 0 → dst.toNat % 32768 = 0 →
        exec (.moverErase c push ring) s = .next (((go 3).putMov c (job 3)).answer .ok 0))) ∧
    ((s.key.mov[c]).busy = true ∨ 16777216 < len ∨ len % 32 ≠ 0 →
      exec (.moverRead c push ring) s = .next (((go 1).putMov c { s.key.mov[c] with result := 5 }).answer .ok 0))) ∧
  (∀ (s : State) (c : Fin 8) (push : Bool) (ring : Fin 64), s.regsOn = true → c.val < 3 →
    exec (.moverRead c push ring) s = .next ((s.putMov c { s.key.mov[c] with result := 5 }).answer .ok 0)) ∧
  (∀ (s : State) (c : Fin 8), s.mode.coreOn = true → (s.key.mov[c]).busy = true → (s.key.mov[c]).op = 1 → (s.key.mov[c]).len = 0 →
    (s.key.mov[c]).push = false → (s.key.mov[c]).erased = false → (s.key.mov[c]).abortLate = false → s.bscan = false →
    s.cfg.closing = false → ∀ a key, s.resolve (s.key.mov[c]).src 0 false = .ok a key →
      exec (.moverJobEnd c .whole) s = .next (State.evt (s.putMov c { s.key.mov[c] with
        busy := false
        done := 0
        result := 1
        abort := false
        abortLate := (s.key.mov[c]).abort }) R.movEvt c.val)) ∧
  (∀ (s : State) (c : Fin 8) (v : Word), s.regsOn = true →
    (fld v 16 16 = 0x3D9A → (s.key.mov[c]).busy = true → 3 ≤ c.val →
      exec (.movAbort c v) s = .next ((s.putMov c { s.key.mov[c] with abort := true }).answer .ok 0)) ∧
    (fld v 16 16 ≠ 0x3D9A → exec (.movAbort c v) s = .next (s.answer .ok 0))) ∧
  (∀ (s : State) (m : Master) (role : Half) (slot : Fin 16), s.regsOn = true → s.key.vop = none → s.mode.mode = .service →
    slot.val < 14 →
    (s.key.vault[slot].state = .empty → kcv s.vaultKeyIn = s.reg R.vaultKcv →
      ∃ t, exec (.stage m 0x7A11 role slot) s = .next t ∧ t.key.vault = s.key.vault ∧
        t.key.vop = some { slot := slot, revoke := false, role := 0xF, key := s.vaultKeyIn } ∧ t.wnt = s.wnt ∧ t.mem = s.mem) ∧
    (s.key.vault[slot].state ≠ .empty → ∃ t, exec (.stage m 0x7A11 role slot) s = .next t ∧ t.key.vault = s.key.vault ∧
      t.key.vop = none ∧ t.key.vres = 3)) ∧
  (∀ (s : State) (m : Master) (slot : Fin 16), s.regsOn = true → s.key.vop = none → s.mode.mode = .service →
    (s.key.vault[slot].state = .staged ∨ s.key.vault[slot].state = .active →
      ∃ t, exec (.revoke m 0x7A11 slot) s = .next t ∧ t.key.vault = s.key.vault ∧
        t.key.vop = some { slot := slot, revoke := true, role := 0, key := [] }) ∧
    (s.key.vault[slot].state = .empty ∨ s.key.vault[slot].state = .revoked →
      ∃ t, exec (.revoke m 0x7A11 slot) s = .next t ∧ t.key.vault = s.key.vault ∧ t.key.vop = none ∧ t.key.vres = 3)) ∧
  (∀ (s : State) (o : VaultOp) (ok : Bool), s.mode.coreOn = true → s.key.vop = some o →
    ∃ t, exec (.vaultProgramDone ok) s = .next t ∧ t.key.vop = none ∧ t.key.vres = (if ok then 1 else 6) ∧ t.key.vault =
      if ok then vput s.key.vault o.slot (if o.revoke then { s.key.vault[o.slot] with state := .revoked }
        else { state := .staged, key := o.key, role := o.role }) else s.key.vault) ∧
  (∀ (s : State) (b : List Word) (l : List (List Word)), s.regsOn = true → s.esu.fifo = b :: l → b.length = 8 → s.drbgWants = false →
    s.esu.wantDbg = false → l = [] →
    ∃ t, exec .authNew s = .next t ∧ t.key.chal = b ∧ t.key.fresh = true ∧ t.esu.fifo = [] ∧ t.esu.wantSec = false ∧ t.core = s.core) ∧
  (∀ s : State, s.regsOn = true → s.key.authBusy = false →
    (s.key.authLock = true → exec .authGo s = .next (State.answer { s with key := { s.key with authRes := 5 } } .ok 0)) ∧
    (s.key.authLock = false → s.key.fresh = false → ∃ t, exec .authGo s = .next t ∧ t.key.authRes = 4 ∧ t.key.authBusy = false ∧
      t.key.authValid = s.key.authValid) ∧
    (s.key.authLock = false → s.key.fresh = true → 1 ≤ (s.key.token.getD 32 0).toNat → (s.key.token.getD 32 0).toNat ≤ 28800 →
      exec .authGo s = .next (State.answer { s with key := { s.key with fresh := false, authBusy := true } } .ok 0))) ∧
  (∀ s : State, s.key.authBusy = true →
    ∃ t, exec .authVerifyDone s = .next t ∧ t.key.authBusy = false ∧
      t.key.authRes = BitVec.ofNat 3 (s.tokenCheck tagSvc 11 s.key.chal s.key.token) ∧
      t.key.authValid = (s.key.authValid || decide (s.tokenCheck tagSvc 11 s.key.chal s.key.token = 1)) ∧
      t.key.authLock = (s.key.authLock || decide (s.tokenCheck tagSvc 11 s.key.chal s.key.token ≠ 1)) ∧
      t.core = s.core ∧ t.mem = s.mem) ∧
  (∀ s : State, (s.key.authValid = true → s.mode.mode ≠ .service → s.key.authEnd ≤ s.time.dt →
      exec .authValidExpiry s = .next { s with key := { s.key with authValid := false } }) ∧
    (s.mode.mode = .service ∨ s.time.dt < s.key.authEnd → exec .authValidExpiry s = .next s)) ∧
  (∀ s : State,
    (s.key.lockEnd ≤ s.time.dt → exec (.authLockExpiry false) s = .next { s with key := { s.key with authLock := false } }) ∧
    (s.dbg.lockEnd ≤ s.time.dt → exec (.authLockExpiry true) s = .next { s with dbg := { s.dbg with authLock := false } }) ∧
    (s.time.dt < s.key.lockEnd → exec (.authLockExpiry false) s = .next s) ∧
    (s.time.dt < s.dbg.lockEnd → exec (.authLockExpiry true) s = .next s))

/-- The entropy source (19 R538 to R551): a sample steps every source's tests, a block held long enough is released, generates fill
the DRBG FIFO, a reseed not supplied stops the DRBG, a read removes its word or answers 0, a retest restarts isolated sources. -/
def Obligations.EntropyEventsTakeEffect : Prop :=
  (∀ (s : State) (bits : BitVec 5), s.esuOn = true → s.time.dt.toNat % 100 = 0 → s.esu.last ≠ some s.time.dt →
    s.esu.condRun = false → s.esu.katSha = false →
    s.esu.bits = [] → s.esu.held = [] → (∀ i : Fin 5, (s.esu.src[i]).st = 1 ∧ (s.esu.src[i]).rep < 40 ∧ (s.esu.src[i]).same < 794) →
    ∃ t, exec (.esuSample bits) s = .next t ∧ t.core = s.core ∧ t.log = s.log ∧ t.regs = s.regs ∧ t.key = s.key ∧
      (∀ i : Fin 5, (t.esu.src[i]).st = 1 ∧ (t.esu.src[i]).last = bits.getLsbD i.val ∧
        (t.esu.src[i]).rep = if 0 < (s.esu.src[i]).rep ∧ bits.getLsbD i.val = (s.esu.src[i]).last then (s.esu.src[i]).rep + 1 else 1) ∧
      t.esu.fifo = s.esu.fifo ∧ t.esu.dfifo = s.esu.dfifo) ∧
  (∀ (s : State) (bits : BitVec 5), s.esuOn = true → s.time.dt.toNat % 100 = 0 → s.esu.last ≠ some s.time.dt →
    s.esu.condRun = false → s.esu.katSha = false →
    s.esu.bits = [] → s.esu.held = [] → (s.esu.src[(0 : Fin 5)]).st = 1 → (s.esu.src[(0 : Fin 5)]).rep = 40 →
    (s.esu.src[(0 : Fin 5)]).last = bits.getLsbD 0 →
    ∃ t, exec (.esuSample bits) s = .next t ∧ (t.esu.src[(0 : Fin 5)]).st = 2 ∧ (t.esu.src[(0 : Fin 5)]).test = 1 ∧
      (t.reg R.esuEvt).getLsbD 0 = true ∧ t.core = s.core) ∧
  (∀ s : State, s.esuOn = false ∨ s.time.dt.toNat % 100 ≠ 0 ∨ s.esu.last = some s.time.dt → ∀ bits, exec (.esuSample bits) s = .next s) ∧
  (∀ (s : State) (b : EsuBlock) (l : List EsuBlock), s.esu.held = b :: l →
    (b.age < 41 → exec .blockRelease s = .next s) ∧
    (41 ≤ b.age → 4 ≤ s.esu.fifo.length → exec .blockRelease s = .next { s with esu := { s.esu with held := l } }) ∧
    (41 ≤ b.age → s.esu.fifo.length < 4 → s.drbgWants = false → s.esu.wantSec = false → s.esu.wantDbg = false →
      exec .blockRelease s = .next { s with esu := { s.esu with held := l, fifo := s.esu.fifo ++ [wordsLE 8 b.out] } })) ∧
  (∀ s : State, s.esuOn = true → s.esu.drbgRun = true →
    (s.esu.dfifo.length ≤ 16 → ∃ t, exec .drbgGenerate s = .next t ∧ t.esu.gens = s.esu.gens + 1 ∧
      t.esu.dfifo = s.esu.dfifo ++ wordsLE 16 (drbgBlocks s.esu.key (natBE s.esu.v) 4) ∧ t.esu.fifo = s.esu.fifo ∧ t.core = s.core ∧
      t.mem = s.mem) ∧
    (16 < s.esu.dfifo.length → exec .drbgGenerate s = .next s) ∧
    (∀ d, s.esu.due = some d → (s.time.dt - d).toNat < 1000000 → exec .drbgStop s = .next s) ∧
    (∀ d, s.esu.due = some d → 1000000 ≤ (s.time.dt - d).toNat → ∃ t, exec .drbgStop s = .next t ∧ t.esu.drbgRun = false ∧
      t.esu.dfifo = [] ∧ t.esu.seed = [] ∧
      t.esu.fifo = s.esu.fifo ∧ (t.reg R.esuEvt).getLsbD 2 = true ∧ t.core = s.core) ∧
    (s.esu.due = none → exec .drbgStop s = .next s) ∧
    (s.esu.due = none → s.esu.fifo = [] → (65536 ≤ s.esu.gens ∨ 100000000 ≤ (s.time.dt - s.esu.seedDt).toNat) →
      exec .drbgReseed s = .next { s with esu := { s.esu with due := some s.time.dt } }) ∧
    (s.esu.due = none → s.esu.gens < 65536 → (s.time.dt - s.esu.seedDt).toNat < 100000000 → exec .drbgReseed s = .next s)) ∧
  (∀ s : State, s.running = true → s.mode.pf = false → s.core.priv = true → s.latched (s.latchKey .core) 0x120010 = none →
    s.latched (s.latchKey .core) 0x120008 = none →
    (∀ w l, s.esu.dfifo = w :: l → exec (.esuDrbgRead .core) s = .next (State.answer { s with esu := { s.esu with dfifo := l } } .ok w)) ∧
    (s.esu.dfifo = [] → exec (.esuDrbgRead .core) s = .next ((s.evt R.esuEvt 3).answer .ok 0)) ∧
    (∀ w r l, s.esu.fifo = (w :: r) :: l → r ≠ [] →
      exec (.esuCondRead .core) s = .next (State.answer { s with esu := { s.esu with fifo := r :: l } } .ok w)) ∧
    (s.esu.fifo = [] → exec (.esuCondRead .core) s = .next ((s.evt R.esuEvt 3).answer .ok 0))) ∧
  (∀ s : State, s.regsOn = true →
    (∀ v, fld v 16 16 ≠ 0xE5A0 → exec (.retest v) s = .next ((s.evt R.esuEvt 4).answer .ok 0) ∧
      exec (.reseed v) s = .next ((s.evt R.esuEvt 4).answer .ok 0)) ∧
    ((∃ i : Fin 5, (s.esu.src[i]).st = 0) → exec (.retest 0xE5A00001) s = .next ((s.evt R.esuEvt 4).answer .ok 0)) ∧
    ((∀ i : Fin 5, (s.esu.src[i]).st ≠ 0) → ∃ t, exec (.retest 0xE5A00001) s = .next t ∧ t.core = s.core ∧
      (∀ i : Fin 5, (t.esu.src[i]).st = if (s.esu.src[i]).st = 2 then 0 else (s.esu.src[i]).st) ∧ t.esu.fifo = s.esu.fifo) ∧
    (s.esu.drbgRun = true → s.esu.due = none → s.esu.fifo = [] → exec (.reseed 0xE5A00002) s =
      .next (State.answer { s with esu := { s.esu with due := some s.time.dt } } .ok 0)))

/-- The safety monitor and the window watchdog (20 R559 to R567, R572): an alarm is reported and takes its reaction, a kick inside the
window is accepted and any other is a violation, injections act only in Service. The parameter of cause WDOG is a free value (log
entry 37); the watchdog counts at the nominal rate (log entry 39). -/
def Obligations.SafetyMonitorCommandsTakeEffect : Prop :=
  (∀ (s : State) (a ch : Nat) (l : List (Nat × Nat)), s.saf.raised = (a, ch) :: l → s.mode.coreOn = true → 4 ≤ a → a ≤ 8 →
    ∃ t, exec .safAlarm s = .next t ∧ t.saf.raised = l ∧ t.mode.safePend = s.mode.safePend ++ [(16, BitVec.ofNat 32 a, s.time.dt)] ∧
      (t.reg R.safAlarm).getLsbD a = true ∧ (t.reg R.safEvt).getLsbD 0 = true ∧ t.core = s.core ∧ t.mem = s.mem ∧ t.fab = s.fab) ∧
  (∀ (s : State) (ch : Nat) (l : List (Nat × Nat)), s.saf.raised = (2, ch) :: l → s.mode.coreOn = true → s.saf.deg = none →
    ∃ t, exec .safAlarm s = .next t ∧ t.saf.raised = l ∧ t.saf.deg = some (s.time.dt, (s.reg R.safDegCfg).toNat % 128) ∧
      t.mode = s.mode ∧ t.core = s.core) ∧
  (∀ (s : State) (d : DWord) (h : Nat), s.saf.deg = some (d, h) → s.mode.coreOn = true →
    360000000000 * h ≤ (s.time.dt - d).toNat → exec .degLimit s = .next ((State.say { s with saf := { s.saf with deg := none } } .safmon 0x8503 (s.degraded.setWidth 32)
      (BitVec.ofNat 32 h) 0 0).withSafeCause 16 2)) ∧
  (∀ (s : State) (m : Fin 6) (a : Word), s.mode.coreOn = true →
    ∃ t, exec (.scrubUe m a) s = .next t ∧ t.mem = s.mem ∧
      (m = 3 → t.saf.raised = s.saf.raised ++ [(6, 0)] ∧ t.mode = s.mode) ∧
      (m = 2 ∨ m = 4 → t.mode = s.mode ∧ t.saf = s.saf ∧ t.core = s.core) ∧
      (m = 2 → s.vecOn = true → bit (t.reg R.zveEvt) 1 = true) ∧ (m = 4 → s.umu.live = true → t.umu.ue = true) ∧
      (m = 5 → a.toNat / 32 < s.log.staged.length → t.log.staged = s.log.staged.eraseIdx (a.toNat / 32) ∧
        t.log.lost = satInc s.log.lost) ∧
      (m = 0 ∨ m = 1 → s.inScan = false → s.mode.warmReq = none → t.mode.warmReq = some 4 ∧ t.core = s.core)) ∧
  (∀ (s : State) (m : Fin 6), s.mode.coreOn = true →
    ∃ t, exec (.scrubCorrected m) s = .next t ∧ t.mem = s.mem ∧ t.core = s.core ∧ t.mode = s.mode ∧ t.log = s.log ∧
      t.saf.ecc0 = (if m = 0 then satInc s.saf.ecc0 else s.saf.ecc0) ∧ t.saf.ecc1 = (if m = 1 then satInc s.saf.ecc1 else s.saf.ecc1) ∧
      t.saf.ecc2 = (if m = 2 then satInc s.saf.ecc2 else s.saf.ecc2) ∧ t.saf.ecc3 = if 3 ≤ m.val then satInc s.saf.ecc3 else s.saf.ecc3) ∧
  (∀ (s : State) (v : Word), s.regsOn = true → s.wdtHeld = false →
    let key : BitVec 16 := if s.saf.next then 0xA55A else 0x5AA5
    let ticks := (s.time.dt - s.saf.kickDt).toNat
    let warmed (n : Nat) (kind : Nat) := s.saf.good.toNat = n → 16 ≤ n → s.mode.warmReq = none →
      ∃ t, exec (.wdtKick v) s = .next t ∧ t.mode.warmReq = some 2 ∧ t.saf.good = 0 ∧ t.saf.next = false ∧
        t.saf.last = BitVec.ofNat 3 kind ∧
        t.saf.viol = satInc s.saf.viol ∧ t.saf.kickDt = s.time.dt ∧ t.core = s.core ∧ t.mem = s.mem
    (fld v 0 16 = key → s.saf.first = false → 10000 * s.saf.cfgClosed.toNat ≤ ticks → ticks ≤ 10000 * s.saf.cfgOpen.toNat →
      exec (.wdtKick v) s = .next (State.answer { s with saf := { s.saf with
        kickDt := s.time.dt
        next := !s.saf.next
        good := satInc s.saf.good
        lock := true } } .ok 0)) ∧
    (fld v 0 16 ≠ key → ∀ n, warmed n 3) ∧
    (fld v 0 16 = key → s.saf.first = false → ticks < 10000 * s.saf.cfgClosed.toNat → ∀ n, warmed n 1) ∧
    (fld v 0 16 = key → s.saf.first = false → 10000 * s.saf.cfgClosed.toNat ≤ ticks → 10000 * s.saf.cfgOpen.toNat < ticks →
      ∀ n, warmed n 2) ∧
    (fld v 0 16 ≠ key → s.saf.good.toNat < 16 → ∃ t p, exec (.wdtKick v) s = .next t ∧
      t.mode.safePend = s.mode.safePend ++ [(15, p, s.time.dt)] ∧ t.mode.warmReq = s.mode.warmReq)) ∧
  (∀ (s : State) (v : Word), s.regsOn = true → s.wdtHeld = true → exec (.wdtKick v) s = .next ((s.evt R.safEvt 3).answer .ok 0)) ∧
  (∀ s : State, s.mode.coreOn = true →
    let open_ := if s.saf.first then 2000 else s.saf.cfgOpen.toNat
    let late := 10000 * open_ < (s.time.dt - s.saf.kickDt).toNat
    (s.wdtHeld = true ∨ ¬late → exec .wdtLate s = .next s) ∧
    (s.wdtHeld = false → late → 16 ≤ s.saf.good.toNat → s.mode.warmReq = none → ∃ t, exec .wdtLate s = .next t ∧ t.mode.warmReq = some 2 ∧
      t.saf.good = 0 ∧ t.saf.last = (if s.saf.first then 4 else 2) ∧ t.core = s.core)) ∧
  (∀ (s : State) (v : Word), s.regsOn = true →
    let c := v.toNat % 256
    let o := v.toNat / 256 % 256
    (s.saf.held = false → s.saf.lock = false → c < o → o ≤ 200 → exec (.safWdtCfgWrite v) s =
      .next (State.answer { s with saf := { s.saf with cfgOpen := BitVec.ofNat 8 o, cfgClosed := BitVec.ofNat 8 c } } .ok 0)) ∧
    (s.saf.held = true ∨ s.saf.lock = true ∨ o ≤ c ∨ 200 < o → exec (.safWdtCfgWrite v) s = .next ((s.evt R.safEvt 3).answer .ok 0)) ∧
    (s.mode.mode = .service → 1 ≤ v.toNat % 128 → v.toNat % 128 ≤ 72 →
      exec (.safDegCfgWrite v) s = .next ((s.setReg R.safDegCfg (v &&& 0x7F)).answer .ok 0)) ∧
    (s.mode.mode ≠ .service ∨ v.toNat % 128 = 0 ∨ 72 < v.toNat % 128 →
      exec (.safDegCfgWrite v) s = .next ((s.evt R.safEvt 3).answer .ok 0))) ∧
  (∀ (s : State) (key : Half), s.regsOn = true →
    let denied : Out := .next ((s.evt R.safEvt 3).answer .ok 0)
    let forced (n : Nat) : Out := .next (State.answer (State.say { s with
      saf := { s.saf with inj := setBit s.saf.inj n true, monOk := s.saf.monOk &&
        n != 5 } } .safmon 0x8505 (BitVec.ofNat 32 n) 0 0 0) .ok 0)
    (s.mode.mode ≠ .service ∨ key ≠ 0x1A7E → exec (.injectFabCmp key) s = denied ∧ exec (.injectReadback key) s = denied ∧
      exec (.injectWdtKey key) s = denied ∧ exec (.injectRefOffset key) s = denied ∧ exec (.injectMonChannel key) s = denied ∧
      exec (.injectClock key) s = denied) ∧
    (s.mode.mode = .service → key = 0x1A7E → (s.fabOn = false → exec (.injectFabCmp key) s = forced 1) ∧
      (s.fabOn = true → ∃ t x, exec (.injectFabCmp key) s = .next t ∧ t.fab.shadow = some x ∧ 8 ≤ x.force.toNat ∧ x.force.toNat < 512 ∧
        t.saf.inj = setBit s.saf.inj 1 true ∧ t.core = s.core) ∧ exec (.injectReadback key) s = forced 2 ∧
      exec (.injectRefOffset key) s = forced 4 ∧ exec (.injectMonChannel key) s = forced 5 ∧ exec (.injectClock key) s = forced 6 ∧
      exec (.injectWdtKey key) s = exec (.wdtKick (if s.saf.next then 0x5AA5 else 0xA55A)) (s.say .safmon 0x8505 3 0 0 0) ∧
      (s.wdtHeld = false → 16 ≤ s.saf.good.toNat → s.mode.warmReq = none →
        ∃ t, exec (.injectWdtKey key) s = .next t ∧ t.mode.warmReq = some 2 ∧ t.saf.good = 0 ∧ t.saf.next = false ∧ t.saf.last = 3 ∧
          t.saf.viol = satInc s.saf.viol ∧ t.saf.kickDt = s.time.dt ∧ t.core = s.core ∧ t.mem = s.mem) ∧
      (s.wdtHeld = false → s.saf.good.toNat < 16 →
        ∃ t p, exec (.injectWdtKey key) s = .next t ∧ t.mode.safePend = s.mode.safePend ++ [(15, p, s.time.dt)] ∧
          t.saf.good = 0 ∧ t.saf.last = 3 ∧ t.core = s.core) ∧
      (s.wdtHeld = true → exec (.injectWdtKey key) s = .next (((s.say .safmon 0x8505 3 0 0 0).evt R.safEvt 3).answer .ok 0)))) ∧
  (∀ (s : State) (a b : Word), s.mode.coreOn = true → bit (s.reg R.safAlarm) 7 = false → (∀ x ∈ s.saf.raised, x.1 ≠ 7) →
    exec (.monMismatch a b) s = .next (State.say { s with saf := { s.saf with monOk := false, raised := s.saf.raised ++ [(7, 0)] } }
      .safmon 0x8506 a b 0 0))

/-- The CAN controllers (21 R578 to R583): bit timing, reception, requests, transmission, abort and fault confinement. -/
def Obligations.CanCommandsTakeEffect : Prop :=
  (∀ (s : State) (k : Fin 2) (v : Word), s.regsOn = true →
    (bit (s.reg (R.can k 0)) 0 = true → exec (.canBitTimingWrite k false v) s = .next ((s.evt (R.can k 0x20) 6).answer .ok 0) ∧
      exec (.canBitTimingWrite k true v) s = .next ((s.evt (R.can k 0x20) 6).answer .ok 0)) ∧
    (bit (s.reg (R.can k 0)) 0 = false → nbtOk v = true →
      exec (.canBitTimingWrite k false v) s = .next ((s.setReg (R.can k 4) (v &&& 0x7F7FFFFF)).answer .ok 0)) ∧
    (bit (s.reg (R.can k 0)) 0 = false → dbtOk v = true →
      exec (.canBitTimingWrite k true v) s = .next ((s.setReg (R.can k 8) (v &&& 0x8F0F1F1F)).answer .ok 0))) ∧
  (∀ (s : State) (k : Fin 2) (id ctrl stamp : Word) (data : List Word), s.canOn k = true → bit ctrl 4 = false →
    (∀ b : Fin 64, s.mbMatch k id b = false) → (s.ifc.can[k]).st = 0 → (s.ifc.can[k]).recv ≤ 127 →
    exec (.canFrameReceived k id ctrl stamp data) s = .next (s.putCan k { s.ifc.can[k] with
      recv := (s.ifc.can[k]).recv - 1
      lec := 0 })) ∧
  (∀ (s : State) (k : Fin 2) (id ctrl stamp : Word) (data : List Word) (b : Fin 64), s.mapsWf = true → s.canOn k = true →
    bit ctrl 4 = false → s.mbMatch k id b = true → (s.ifc.can[k]).rxpend.getLsbD b.val = false →
    (∀ a < b, s.mbMatch k id a = true → (s.ifc.can[k]).rxpend.getLsbD a.val = true) →
    ∃ t, exec (.canFrameReceived k id ctrl stamp data) s = .next t ∧
      (t.ifc.can[k]).rxpend = setBit (s.ifc.can[k]).rxpend b.val true ∧ t.reg (R.mb k b 0xC) = id &&& 0x7FFFFFFF ∧
      t.reg (R.mb k b 0x10) = ctrl &&& 0x7F ∧ t.reg (R.mb k b 0x14) = stamp ∧
      (∀ j < 16, t.reg (R.mb k b (0x40 + 4 * j)) = data.getD j 0) ∧ (t.reg (R.can k 0x20)).getLsbD 0 = true ∧ t.core = s.core ∧
      t.mem = s.mem) ∧
  (∀ (s : State) (k : Fin 2) (m : BitVec 64), s.regsOn = true →
    exec (.canTxRequest k m) s = .next ((s.putCan k { s.ifc.can[k] with txreq := (s.ifc.can[k]).txreq ||| m }).answer .ok 0)) ∧
  (∀ (s : State) (k : Fin 2) (b : Fin 64) (stamp : Word), s.canOn k = true → s.mbTx k b = true → bit (s.reg (R.can k 0)) 4 = false →
    ∃ t, exec (.canFrameTransmitted k b stamp) s = .next t ∧ (t.ifc.can[k]).txreq = setBit (s.ifc.can[k]).txreq b.val false ∧
      (t.ifc.can[k]).txdone = setBit (s.ifc.can[k]).txdone b.val true ∧ (t.ifc.can[k]).tec = (s.ifc.can[k]).tec - 1 ∧
      (t.reg (R.can k 0x20)).getLsbD 1 = true ∧ t.core = s.core ∧ t.mem = s.mem ∧ t.log = s.log) ∧
  (∀ (s : State) (k : Fin 2) (m : BitVec 64), s.regsOn = true →
    ∃ t, exec (.canTxabort k m false) s = .next t ∧ (t.ifc.can[k]).txreq = (s.ifc.can[k]).txreq &&& ~~~m ∧
      (t.ifc.can[k]).rxpend = (s.ifc.can[k]).rxpend ∧ (t.ifc.can[k]).txdone = (s.ifc.can[k]).txdone ∧ t.core = s.core) ∧
  (∀ (s : State) (k : Fin 2) (m : BitVec 64) (b : Fin 64), s.regsOn = true → s.canOn k = true → s.canPick k = some b →
    m = 1#64 <<< b.val → exec (.canTxabort k m true) s = .next ((s.putCan k { s.ifc.can[k] with
      txabort := setBit (s.ifc.can[k]).txabort b.val true }).answer .ok 0)) ∧
  (∀ (s : State) (k : Fin 2) (b : Fin 64) (lec : BitVec 3), s.canOn k = true →
    (s.mbTx k b = true → (s.ifc.can[k]).txabort.getLsbD b.val = false →
      exec (.canFrameError k (some b) lec false) s = .next (s.putCan k { s.ifc.can[k] with lec := lec, tec := (s.ifc.can[k]).tec + 8 }) ∧
      exec (.canArbitrationLost k b) s = .next s) ∧
    (s.mbTx k b = true → (s.ifc.can[k]).txabort.getLsbD b.val = true → ∃ t, exec (.canArbitrationLost k b) s = .next t ∧
      (t.ifc.can[k]).txreq = setBit (s.ifc.can[k]).txreq b.val false ∧ (t.ifc.can[k]).txdone = (s.ifc.can[k]).txdone ∧
      (t.reg (R.can k 0x20)).getLsbD 5 = true) ∧
    exec (.canFrameError k none lec false) s = .next (s.putCan k { s.ifc.can[k] with lec := lec, recv := (s.ifc.can[k]).recv + 1 }) ∧
    exec (.canFrameError k none lec true) s = .next (s.putCan k { s.ifc.can[k] with lec := lec, recv := (s.ifc.can[k]).recv + 8 })) ∧
  (∀ (s : State) (k : Fin 2), s.canOn k = true →
    ((s.ifc.can[k]).st = 0 → 128 ≤ (s.ifc.can[k]).tec ∨ 128 ≤ (s.ifc.can[k]).recv → ∃ t, exec (.canPassive k) s = .next t ∧
      t.ifc.can = vput s.ifc.can k { s.ifc.can[k] with st := 1 } ∧ (t.reg (R.can k 0x20)).getLsbD 2 = true ∧ t.core = s.core) ∧
    (256 ≤ (s.ifc.can[k]).tec → exec (.canBusOff k) s = .next (((s.putCan k { s.ifc.can[k] with st := 2, recSw := false }).evt
      (R.can k 0x20) 3).say .ifc 0x9002 (BitVec.ofNat 32 k.val) (BitVec.ofNat 32 (s.ifc.can[k]).tec)
      ((s.ifc.can[k]).lec.setWidth 32) 0)) ∧
    ((s.ifc.can[k]).tec < 256 → exec (.canBusOff k) s = .next s)) ∧
  (∀ (s : State) (k : Fin 2), s.ifcOn (R.can k 0) = true → (s.ifc.can[k]).st = 2 →
    (bit (s.reg (R.can k 0)) 2 = true → exec (.canRecover k) s = .next ((s.putCan k { s.ifc.can[k] with
      st := 0
      tec := 0
      recv := 0
      recSw := false }).say .ifc 0x9003 (BitVec.ofNat 32 k.val) 0 0 0)) ∧
    (bit (s.reg (R.can k 0)) 2 = false → (s.ifc.can[k]).recSw = false → exec (.canRecover k) s = .next s))

/-- UART, SPI, I2C and GPIO (21 R584 to R592): what each command moves between its FIFOs, sets in its event register and answers. A
write to a full FIFO is dropped and an empty SPI or I2C read answers 0 by the model's choice (log entry 51). -/
def Obligations.SerialAndGpioCommandsTakeEffect : Prop :=
  (∀ (s : State) (u : Fin 4) (v : Word), s.regsOn = true →
    (s.ifc.uart[u].tx.length < 64 → exec (.uartDataWrite u v) s = .next ((s.putUart u { s.ifc.uart[u] with
      tx := s.ifc.uart[u].tx ++ [v.setWidth 8] }).answer .ok 0)) ∧
    (64 ≤ s.ifc.uart[u].tx.length → exec (.uartDataWrite u v) s = .next (s.answer .ok 0))) ∧
  (∀ (s : State) (u : Fin 4), s.running = true → s.mode.pf = false → s.core.priv = true →
    s.latched (s.latchKey .core) (0x16000C + 0x1000 * u.val) = none →
    (s.ifc.uart[u].rx = [] → exec (.uartDataRead .core u) s = .next (s.answer .ok 0x80000000)) ∧
    (∀ b f l, s.ifc.uart[u].rx = (b, f) :: l → exec (.uartDataRead .core u) s = .next ((s.putUart u { s.ifc.uart[u] with rx := l }).answer
      .ok (b.setWidth 32 ||| (f.setWidth 32 <<< 8))))) ∧
  (∀ (s : State) (u : Fin 4) (v : Byte), s.uartOn u = true → bit (s.reg (R.uart u 0)) 6 = false → bit (s.reg (R.uart u 0)) 1 = false →
    (s.ifc.uart[u].rx.length < 63 → s.ifc.uart[u].rx.length + 1 < fldN (s.reg (R.uart u 0x18)) 0 6 →
      exec (.uartRxCharacter u v false false false) s = .next (s.putUart u { s.ifc.uart[u] with rx := s.ifc.uart[u].rx ++ [(v, 0)] })) ∧
    (64 ≤ s.ifc.uart[u].rx.length → ∃ t, exec (.uartRxCharacter u v false false false) s = .next t ∧
      t.ifc.uart = vput s.ifc.uart u { s.ifc.uart[u] with lost := satInc s.ifc.uart[u].lost } ∧
      (t.reg (R.uart u 0x10)).getLsbD 4 = true ∧ t.core = s.core)) ∧
  (∀ (s : State) (u : Fin 4) (b : Byte) (l : List Byte), s.uartOn u = true → s.ifc.uart[u].tx = b :: l → s.ifc.cts3 = false →
    bit (s.reg (R.uart u 0)) 6 = false →
    (fldN (s.reg (R.uart u 0x18)) 8 6 < l.length →
      exec (.uartTxCharacter u) s = .next (s.putUart u { s.ifc.uart[u] with tx := l })) ∧
    (l.length ≤ fldN (s.reg (R.uart u 0x18)) 8 6 →
      exec (.uartTxCharacter u) s = .next ((s.putUart u { s.ifc.uart[u] with tx := l }).evt (R.uart u 0x10) 1))) ∧
  (∀ s : State, s.ifc.cts3 = true → bit (s.reg 0x163000) 5 = true → exec (.uartTxCharacter 3) s = .next s) ∧
  (∀ (s : State) (h : Bool), exec (.uart3CtsNChange h) s = .next { s with ifc := { s.ifc with cts3 := h } }) ∧
  (∀ (s : State) (u : Fin 4), s.uartOn u = true →
    (s.ifc.uart[u].rx ≠ [] → exec (.rxTimeout u) s = .next (s.evt (R.uart u 0x10) 2)) ∧
    (s.ifc.uart[u].rx = [] → exec (.rxTimeout u) s = .next s)) ∧
  (∀ (s : State) (k : Fin 2) (v : Word), s.regsOn = true →
    (s.ifc.spi[k].tx.length < 16 → exec (.spiTxWrite k v) s =
      .next ((s.putSpi k { s.ifc.spi[k] with tx := s.ifc.spi[k].tx ++ [v] }).answer .ok 0)) ∧
    (16 ≤ s.ifc.spi[k].tx.length → exec (.spiTxWrite k v) s = .next (s.answer .ok 0))) ∧
  (∀ (s : State) (k : Fin 2) (rx w : Word) (l : List Word), s.ifcOn (R.spi k 0) = true → s.ifc.spi[k].tx = w :: l →
    let n := max 4 (fldN (s.reg (R.spi k 0)) 4 5 + 1)
    ∃ t, exec (.spiFrameDone k rx) s = .next t ∧ t.core = s.core ∧ t.mem = s.mem ∧ (t.reg (R.spi k 0x10)).getLsbD 0 = true ∧
      t.ifc.spi = vput s.ifc.spi k { tx := l, rx := if s.ifc.spi[k].rx.length < 16 then
        s.ifc.spi[k].rx ++ [BitVec.ofNat 32 (rx.toNat % 2 ^ n)] else s.ifc.spi[k].rx } ∧
      (16 ≤ s.ifc.spi[k].rx.length → (t.reg (R.spi k 0x10)).getLsbD 1 = true)) ∧
  (∀ (s : State) (k : Fin 2), s.running = true → s.mode.pf = false → s.core.priv = true →
    s.latched (s.latchKey .core) (0x17000C + 0x1000 * k.val) = none → s.latched (s.latchKey .core) (0x180008 + 0x1000 * k.val) = none →
    (s.ifc.spi[k].rx = [] → exec (.spiRxRead .core k) s = .next (s.answer .ok 0)) ∧
    (∀ w l, s.ifc.spi[k].rx = w :: l → exec (.spiRxRead .core k) s = .next ((s.putSpi k { s.ifc.spi[k] with rx := l }).answer .ok w)) ∧
    (s.ifc.i2c[k].rx = [] → exec (.i2cRxRead .core k) s = .next (s.answer .ok 0)) ∧
    (∀ b l, s.ifc.i2c[k].rx = b :: l →
      exec (.i2cRxRead .core k) s = .next ((s.putI2c k { s.ifc.i2c[k] with rx := l }).answer .ok (b.setWidth 32)))) ∧
  (∀ (s : State) (k : Fin 2) (d : Byte) (l : List (BitVec 3 × Byte)), s.ifcOn (R.i2c k 0) = true →
    let x := s.ifc.i2c[k]
    (x.cmd = (1, d) :: l → exec (.i2cStart k false) s = .next (s.putI2c k { x with
      cmd := l
      busy := true
      nack := false
      arb := false
      stuck := false })) ∧
    (x.cmd = (2, d) :: l → exec (.i2cWrite k true false) s = .next (s.putI2c k { x with cmd := l }) ∧
      exec (.i2cWrite k false false) s = .next ((s.putI2c k { x with cmd := dropToStop l, busy := false, nack := true }).evt
        (R.i2c k 0x10) 1) ∧
      exec (.i2cWrite k true true) s = .next ((s.putI2c k { x with cmd := dropToStop l, busy := false, arb := true }).evt
        (R.i2c k 0x10) 2)) ∧
    (∀ v, x.rx.length < 16 → (x.cmd = (3, d) :: l → exec (.i2cReadAck k v) s = .next (s.putI2c k { x with cmd := l, rx := x.rx ++ [v] })) ∧
      (x.cmd = (4, d) :: l → exec (.i2cReadNack k v) s = .next (s.putI2c k { x with cmd := l, rx := x.rx ++ [v] }))) ∧
    (∀ v, 16 ≤ x.rx.length → exec (.i2cReadAck k v) s = .next s ∧ exec (.i2cReadNack k v) s = .next s) ∧
    (x.cmd = (5, d) :: l → exec (.i2cStop k) s = .next ((s.putI2c k { x with cmd := l, busy := false }).evt (R.i2c k 0x10) 0)) ∧
    (∀ sda, ∃ t, exec (.i2cStuck k sda) s = .next t ∧ t.ifc.i2c = vput s.ifc.i2c k { x with cmd := [], busy := false, stuck := true } ∧
      (t.reg (R.i2c k 0x10)).getLsbD 3 = true ∧ t.core = s.core)) ∧
  (∀ (s : State) (i : Fin 12) (v : Bool), i.val < 8 → s.regsOn = true →
    let u := { s with ifc := { s.ifc with gin := setBit s.ifc.gin i.val v } }
    exec (.gpioEdge i v) s = .next (if s.ifc.gin.getLsbD i.val ≠ v ∧ bit (s.reg 0x1A0000) i.val = false ∧
      edgeOn (fldN (s.reg 0x1A0014) (2 * i.val) 2) v = true then u.evt 0x1A0018 i.val else u)) ∧
  (∀ (s : State) (v : Word), s.regsOn = true →
    exec (.gpioSet v) s = .next ((s.setReg 0x1A0004 (s.reg 0x1A0004 ||| (v &&& 0xFF))).answer .ok 0) ∧
    exec (.gpioClr v) s = .next ((s.setReg 0x1A0004 (s.reg 0x1A0004 &&& ~~~(v &&& 0xFF))).answer .ok 0))

/-- The test access port, debug access, lock states and release for return (22 R596 to R613, R617). -/
def Obligations.TestPortCommandsTakeEffect : Prop :=
  (∀ s : State, s.mode.coreOn = true →
    let sel (i : TapIr) : Out := .next { s with dbg := { s.dbg with ir := i } }
    let taken (i : TapIr) : Out := .next { s with dbg := { s.dbg with ir := i, bsref := false, scanDt := some s.time.dt } }
    let turned : Out := .next { s with dbg := { s.dbg with ir := .bypass, bsref := true } }
    exec .tapReset s = sel .idcode ∧ exec .idcode s = sel .idcode ∧ exec (.bypass 0xFF) s = sel .bypass ∧
      exec (.bypass 0x03) s = sel .bypass ∧
      (∀ cells, exec (.samplePreload cells) s = .next { s with dbg := { s.dbg with ir := .sample, cells := cells } }) ∧
      (s.mode.mode ≠ .protect → s.mode.pf = false → exec .extest s = taken .extest ∧ exec .clamp s = taken .clamp ∧
        exec .highz s = taken .highz) ∧
      (s.mode.mode = .protect ∨ s.mode.pf = true → exec .extest s = turned ∧ exec .clamp s = turned ∧ exec .highz s = turned) ∧
      exec .dbgacc s = if s.dbg.lock.toNat < 2 then sel .dbgacc else sel .bypass) ∧
  (∀ (s : State) (a : Word), s.mode.coreOn = true → s.mode.pf = false → s.dbg.ir = .dbgacc → s.dbg.lock = 0 →
    0x10000000 ≤ a.toNat → a.toNat < 0x1003E000 → a.toNat % 4 = 0 →
    exec (.dbgaccRead a) s = .next { s with
      resp := ⟨.ok, s.dtcmWord (a.toNat - 0x10000000)⟩
      dbg := { s.dbg with addr := a, data := s.dtcmWord (a.toNat - 0x10000000), status := 0 } } ∧
    ∀ v, exec (.dbgaccWrite a v) s = .next { s with
      mem := { s.mem with dtcm := mwrite 0 s.mem.dtcm (a.toNat - 0x10000000) (bytesLE v) }
      resp := ⟨.ok, 0⟩
      dbg := { s.dbg with addr := a, data := v, status := 0 } }) ∧
  (∀ (s : State) (a : Word), s.mode.coreOn = true → s.mode.pf = false → s.dbg.ir = .dbgacc → s.dbg.lock = 1 → s.dbg.unlocked = false →
    dbgLockedReach a = false → exec (.dbgaccRead a) s = .next { s with dbg := { s.dbg with addr := a, data := 0, status := 3 } }) ∧
  (∀ (s : State) (key : Half) (p : Bool), s.regsOn = true →
    let denied : Out := .next ((s.evt R.dbgEvt 2).answer .ok 0)
    (key ≠ 0x10C5 ∨ s.mode.mode ≠ .service ∨ p = false → exec (.lockToLocked key p) s = denied ∧ exec (.lockToSealed key p) s = denied) ∧
    (s.dbg.lock ≠ 0 → exec (.lockToLocked key p) s = denied) ∧ (2 ≤ s.dbg.lock.toNat → exec (.lockToSealed key p) s = denied) ∧
    (key = 0x10C5 → s.mode.mode = .service → p = true → s.dbg.lock = 0 → (s.key.vault[(13 : Fin 16)]).state = .active →
      exec (.lockToLocked key p) s = .next ((State.say { s with dbg := { s.dbg with lock := 1 } } .sec 0x6012 0 1 0 0).answer .ok 0)) ∧
    (key = 0x10C5 → s.mode.mode = .service → p = true → s.dbg.lock.toNat < 2 → ∃ t, exec (.lockToSealed key p) s = .next t ∧
      t.dbg.lock = 2 ∧ t.dbg.ir = (if s.dbg.ir = .dbgacc then .bypass else s.dbg.ir) ∧ t.key = s.key ∧ t.core = s.core)) ∧
  (∀ (s : State) (b : List Word), s.regsOn = true → s.esu.fifo = [b] → b.length = 8 → s.drbgWants = false → s.esu.wantSec = false →
    ∃ t, exec .dbgAuthNew s = .next t ∧ t.dbg.chal = b ∧ t.dbg.fresh = true ∧ t.esu.fifo = [] ∧ t.core = s.core) ∧
  (∀ s : State, s.regsOn = true → s.dbg.authBusy = false →
    (s.dbg.authLock = true → exec .dbgAuthGo s = .next (State.answer { s with dbg := { s.dbg with authRes := 5 } } .ok 0)) ∧
    (s.dbg.authLock = false → s.dbg.fresh = true → 1 ≤ (s.dbg.token.getD 32 0).toNat → (s.dbg.token.getD 32 0).toNat ≤ 28800 →
      exec .dbgAuthGo s = .next (State.answer { s with dbg := { s.dbg with fresh := false, authBusy := true } } .ok 0))) ∧
  (∀ s : State, s.dbg.authBusy = true →
    ∃ t, exec .debugUnlock s = .next t ∧ t.dbg.authBusy = false ∧
      t.dbg.unlocked = (s.dbg.unlocked || decide (s.tokenCheck tagDbg 13 s.dbg.chal s.dbg.token = 1)) ∧
      t.dbg.unlockEnd = (if s.tokenCheck tagDbg 13 s.dbg.chal s.dbg.token = 1 then
        s.time.dt + BitVec.ofNat 64 ((s.dbg.token.getD 32 0).toNat * 100000000) else s.dbg.unlockEnd) ∧
      t.dbg.authLock = (s.dbg.authLock || decide (s.tokenCheck tagDbg 13 s.dbg.chal s.dbg.token ≠ 1)) ∧
      t.dbg.lock = s.dbg.lock ∧ t.core = s.core ∧ t.mem = s.mem) ∧
  (∀ s : State, (s.dbg.unlocked = true → s.dbg.unlockEnd ≤ s.time.dt →
      exec .unlockExpiry s = .next { s with dbg := { s.dbg with unlocked := false } }) ∧
    (s.time.dt < s.dbg.unlockEnd → exec .unlockExpiry s = .next s)) ∧
  (∀ s : State, s.regsOn = true → s.dbgFull = true →
    (s.mode.mode = .ready ∨ s.mode.mode = .service ∨ s.mode.mode = .safe → ∃ t, exec (.halt .debug) s = .next t ∧ t.core.halt = true ∧
      t.core.step = false ∧ t.saf.pause.isSome = true ∧ (t.reg R.dbgEvt).getLsbD 3 = true ∧ t.core.pc = s.core.pc ∧ t.mem = s.mem) ∧
    (s.mode.mode = .protect → exec (.halt .debug) s = .next ((s.evt R.dbgEvt 2).answer .ok 0)) ∧
    (∃ t, exec (.resume .debug) s = .next t ∧ t.core.halt = false ∧ t.saf.pause = none ∧ t.core.pc = s.core.pc ∧ t.mem = s.mem) ∧
    (s.core.halt = true → exec (.step .debug) s = .next (State.answer { s with core := { s.core with step := true } } .ok 0)) ∧
    (s.mode.mode = .ready ∨ s.mode.mode = .protect ∨ s.mode.mode = .service → s.mode.warmReq = none →
      exec (.warm .debug) s = .next (State.answer { s with mode := { s.mode with warmReq := some 5 } } .ok 0))) ∧
  (∀ s : State, s.regsOn = true →
    let denied : Out := .next ((s.evt R.dbgEvt 2).answer .ok 0)
    exec (.halt .core) s = denied ∧ exec (.resume .core) s = denied ∧ exec (.step .core) s = denied ∧ exec (.warm .core) s = denied) ∧
  (∀ (s : State) (v : Word) (p : Bool), s.regsOn = true →
    let confirm : BitVec 16 := s.uid.setWidth 16 ^^^ 0xFFFF
    (s.mode.mode ≠ .service ∨ fld v 16 16 ≠ 0x52E7 ∨ fld v 0 16 ≠ confirm →
      exec (.rfr v p) s = .next ((s.evt R.dbgEvt 2).answer .ok 0)) ∧
    (s.mode.mode = .service → fld v 16 16 = 0x52E7 → fld v 0 16 = confirm → p = true →
      ∃ t q d, exec (.rfr v p) s = .next t ∧ t.dbg.lock = 3 ∧ (∀ n : Fin 16, (t.key.vault[n]).state ≠ .staged ∧
        (t.key.vault[n]).state ≠ .active) ∧ (19, q, d) ∈ t.mode.safePend))

/-- A step runs the command in front of the queue on the state with the queue's rest; with no command waiting it is 10 ns of device
time (the model's choice, log entry 4). -/
def Obligations.StepRunsTheCommandInFront : Prop :=
  (∀ (c : Instr) (s : State), step { s with pending := c :: s.pending } = exec c s) ∧
  (∀ (c : Instr) (l : List Instr) (s : State), s.pending = c :: l → step s = exec c { s with pending := l }) ∧
  (∀ s : State, s.pending = [] → step s = .next s.tick)

/-- Accesses that are refused change nothing but the answer (00 R10, R20; 12 R331, R332): unprivileged access to a privileged
region, an address not a multiple of its size, a width other than a word on a register, an offset with no register; and any access
while the core die does not run (a bus error by the model's choice, log entry 49). -/
def Obligations.RefusedAccessesChangeOnlyTheAnswer : Prop :=
  (∀ (s : State) (w : Width) (a v : Word), s.running = true → s.mode.pf = false →
    let both (st : BusStatus) : Prop :=
      exec (.registerWrite .core w a v) s = .next (s.answer st 0) ∧ exec (.rcFieldRead .core w a) s = .next (s.answer st 0) ∧
        exec (.pairLowRead .core w a) s = .next (s.answer st 0) ∧ exec (.pairLowWrite .core w a v) s = .next (s.answer st 0) ∧
        exec (.pairHighWrite .core w a v) s = .next (s.answer st 0)
    (s.core.priv = false → 0x40000000 ≤ a.toNat → a.toNat < 0x401C0000 → both .privilege) ∧
    (s.core.priv = true → 0x40000000 ≤ a.toNat → a.toNat < 0x401C0000 → a.toNat % widthBytes w ≠ 0 → both .misaligned) ∧
    (s.core.priv = true → 0x40000000 ≤ a.toNat → a.toNat < 0x401C0000 → a.toNat % widthBytes w = 0 → w ≠ .word → both .busError) ∧
    (s.core.priv = true → 0x40000000 ≤ a.toNat → a.toNat < 0x401C0000 → a.toNat % widthBytes w = 0 →
      s.regRow (a.toNat % 0x1000000 / 4 * 4) = none → both .busError) ∧
    (0x401C0000 ≤ a.toNat → a.toNat < 0x50000000 → a.toNat % widthBytes w = 0 → both .busError)) ∧
  (∀ (s : State) (m : Master) (w : Width) (a v : Word), s.running = false → m = .core ∨ m = .mover →
    exec (.registerWrite m w a v) s = .next (s.answer .busError 0) ∧ exec (.rcFieldRead m w a) s = .next (s.answer .busError 0))

/-- Memory (01 Table ARCH-3): what is written reads back, every byte outside it reads as before, and the canonical form is kept;
two canonical maps that read alike are equal. -/
def Obligations.MemoryReadsBackWhatWasWritten : Prop :=
  (∀ (d : Byte) (m : List Host.Cell) (a : Nat) (l : List Byte), mwf d m = true →
    mread d (mwrite d m a l) a l.length = l ∧ mwf d (mwrite d m a l) = true ∧
      ∀ x, x < a ∨ a + l.length ≤ x → mget d (mwrite d m a l) x = mget d m x) ∧
  (∀ (d : Byte) (m n : List Host.Cell), mwf d m = true → mwf d n = true → (∀ x, mget d m x = mget d n x) → m = n) ∧
  (∀ (d : Byte) (m : List Host.Cell) (a n : Nat), mwf d m = true → mwf d (mclear m a n) = true ∧
    ∀ x, mget d (mclear m a n) x = if a ≤ x ∧ x < a + n then d else mget d m x)

/-- The part right after a Winter power-on (04 M1, 16 R473, R485; 17 R509): Dormant with the core die unpowered and a wake request
pending, Winter counters and settings 0, the sentinel halted, the fabric open, CORE_WAKE and WINTER_ON offered. A reset value that the
spec does not state is the model's (log entry 1) and is not said here. -/
def Obligations.ResetIsAWinterPowerOn : Prop :=
  State.reset.mode.mode = .dormant ∧ State.reset.mode.coreOn = false ∧ State.reset.mode.wake = true ∧ State.reset.pwr.winter = true ∧
    State.reset.time.rtct = 0 ∧ State.reset.wnt.timeofs = 0 ∧ State.reset.wnt.loc = 0 ∧ State.reset.wnt.alarm = 0 ∧
    State.reset.wnt.seqOut = 0 ∧ State.reset.wnt.seqIn = 0 ∧ State.reset.wnt.st = .halted ∧ State.reset.wnt.rstCause = 0 ∧
    State.reset.wnt.codeLen = 0 ∧ State.reset.mem.sdata = [] ∧ State.reset.use.permit = false ∧ State.reset.use.en = false ∧
    State.reset.use.immob = false ∧ State.reset.use.lost = true ∧ State.reset.use.thStat = 0 ∧ State.reset.umu.ck0 = none ∧
    State.reset.umu.ck1 = none ∧ State.reset.fab.close = 0 ∧ State.reset.fab.kdrv = 0 ∧
    State.reset.log.offered.map (fun e => e.code) = [0x710B, 0x7148] ∧ State.reset.ioPeek 0xF074 = 0x01 ∧ State.reset.ioPeek 0xF073 = 0

/-- No command and no tick changes which part it is or its identity, and the lock state only steps forward (22 R605, R613). -/
def Obligations.EveryStepKeepsTheIdentity : Prop :=
  ∀ s t : State, step s = .next t → s.identity.to t.identity

/-- Every step keeps every map of the state in its canonical form, so that equal contents are equal data. -/
def Obligations.EveryStepKeepsTheMapsCanonical : Prop :=
  ∀ s t : State, s.mapsWf = true → step s = .next t → t.mapsWf = true

/-- The maps are canonical right after reset. -/
def Obligations.ResetMapsAreCanonical : Prop := State.reset.mapsWf = true

/-- The sentinel has no path to the trip outputs (16 Principle, 17 R500): whatever instruction it executes, with whatever operands,
from whatever state, the fabric, the front end, the chains, the scan cycle, the scan core, Zinik, the safety monitor, the core die's
power, the pending Safe causes and the memories it cannot address keep their state. -/
def Obligations.SentinelCannotReachTheFabric : Prop :=
  ∀ (s t : State) (i : Instr) (o v : Byte) (w : Half), SntInstr i o v w → exec i s = .next t →
    t.fab = s.fab ∧ t.afe = s.afe ∧ t.chain = s.chain ∧ t.scan = s.scan ∧ t.core = s.core ∧ t.zve = s.zve ∧ t.saf = s.saf ∧
      t.mem.itcm = s.mem.itcm ∧ t.mem.vs = s.mem.vs ∧ t.mem.scode = s.mem.scode ∧ t.mode.coreOn = s.mode.coreOn ∧
      t.mode.safePend = s.mode.safePend

/-- A syllable whose guard is false does nothing (12 R319, R320): alone in its bundle it moves the pc on, lets due loads write and uses
cycles, and nothing else happens, whatever the instruction; a jump does not jump, a privileged one takes no exception, a
COMMIT or SCALL raises nothing (the model's reading of R319, log entry 47). -/
def Obligations.AFalseGuardDoesNothing : Prop :=
  ∀ (s : State) (o : SylEnc), BundleStart s → o.stop = true → s.core.pred o.pg.toNat = false → s.core.pc.toNat + 8 ≤ 0x40000 →
    let nothing (i : SylEnc → Instr) : Prop := ∃ n, 1 ≤ n ∧ exec (i o) s = .next (s.afterBundle (s.pcAfter o) n id)
    let legal (f : BitVec 6) : Prop := f.toNat < 56 ∧ (s.core.df = true → f.toNat < 32)
    (∀ i ∈ ([.add, .sub, .and, .or, .xor, .shl, .shr, .sar, .addt, .subt, .min, .max, .mul, .mulh, .mulhu, .mulq, .div, .divu, .rem,
        .remu, .stx, .ldx] : List (SylEnc → Instr)),
      o.ext = none → o.f = 0 → legal o.rd → legal o.ra → legal o.rb → nothing i) ∧
    (∀ i ∈ ([.addi, .andi, .ori, .xori, .muli, .ldw, .ldh, .ldhu, .ldb, .ldbu, .stw, .sth, .stb] : List (SylEnc → Instr)),
      (∀ e, o.ext = some e → e.toNat < 2 ^ 23) → legal o.rd → legal o.ra → nothing i) ∧
    (o.ext = none → nothing .br ∧ (s.core.df = false → nothing .call)) ∧
    (∀ i ∈ coreInstrs, o.ext = none → o.rd = 0 → o.ra = 0 → o.rb = 0 → o.f = 0 → s.core.df = false → nothing i)

/-- Bundles (12 R315, R318): a syllable without the stop bit opens its bundle and waits, nothing but the open bundle changes,
whatever the instruction; and the syllables of a bundle read their registers before any of them writes: the second of two additions
reads what the first one's register held before the bundle. -/
def Obligations.SyllablesWaitForTheStopBitAndReadFirst : Prop :=
  (∀ (s : State) (o : SylEnc), s.coreRuns = true → s.boundaryFree = true → s.core.bundle = [] → o.stop = false →
    ∀ i ∈ coreInstrs, ∃ y : Syl, exec (i o) s = .next { s with core := { s.core with bundle := [y] } } ∧ y.words = sylWords o ∧
      y.guard = s.core.pred o.pg.toNat) ∧
  (∀ (s : State) (o p : SylEnc), BundleStart s → o.stop = false → p.stop = true → s.core.pred o.pg.toNat = true →
    s.core.pred p.pg.toNat = true → s.core.pc.toNat + 8 ≤ 0x40000 → s.core.loads = [] → o.ext = none → p.ext = none → o.f = 0 → p.f = 0 →
    (∀ f ∈ [o.rd, o.ra, o.rb, p.rd, p.ra, p.rb], f.toNat < 32) → o.rd ≠ p.rd → o.rd ≠ 0 → p.rd ≠ 0 →
    ∃ t u, exec (.add o) s = .next t ∧ exec (.add p) t = .next u ∧ u.core.pc = s.core.pc + 8 ∧ u.core.bundle = [] ∧
      u.core.get o.rd.toNat = s.core.get o.ra.toNat + s.core.get o.rb.toNat ∧
      u.core.get p.rd.toNat = s.core.get p.ra.toNat + s.core.get p.rb.toNat ∧
      (∀ n < 32, n ≠ o.rd.toNat → n ≠ p.rd.toNat → u.core.get n = s.core.get n) ∧ u.mem = s.mem ∧ u.regs = s.regs ∧ u.mode = s.mode)

/-- A write to k0 or to p0 has no effect (12 R322): an operation into k0, a compare into p0 and predicate logic into p0 only move the pc
and the cycle count on; a load into k0 leaves every register as it was when its delay ends. -/
def Obligations.WritesToK0AndP0HaveNoEffect : Prop :=
  ∀ (s : State) (o : SylEnc), BundleReady s o [o.rd, o.ra, o.rb] → o.ext = none → o.rd = 0 →
    (∀ i ∈ ([.add, .sub, .and, .or, .xor, .shl, .shr, .sar, .min, .max, .mul, .mulh, .mulhu, .mulq, .cmpeq, .cmplt, .cmpltu] :
        List (SylEnc → Instr)), o.f = 0 → exec (i o) s = .next (s.afterBundle (s.core.pc + 4) 1 id)) ∧
    (∀ i ∈ ([.addi, .andi, .ori, .xori, .muli, .cmpeqi, .cmplti, .cmpltui] : List (SylEnc → Instr)),
      exec (i o) s = .next (s.afterBundle (s.core.pc + 4) 1 id)) ∧
    exec (.sel o) s = .next (s.afterBundle (s.core.pc + 4) 1 id) ∧
    (o.ra.toNat < 8 → o.rb.toNat < 8 → o.f.toNat < 4 → exec (.plog o) s = .next (s.afterBundle (s.core.pc + 4) 1 id)) ∧
    (∀ c : CoreSt, ∀ v, (CoreSt.passLoads { c with loads := [{ reg := s.core.phys 0, value := v, left := 1 }] }).r = c.r)

/-- Every command completes: no command is refused, and a fault stands only for an event of a unit that the part does not have
(00 R3, R7). -/
def Obligations.EveryWellFormedCommandCompletes : Prop :=
  ∀ (i : Instr) (s : State), i.wf s.part.channels s.part.comparators = true → Completes i s

/-- IDCODE (22 R599): the two values and their parts: version, part number, manufacturer identity and bit 0. -/
def Obligations.IdcodeNamesThePart : Prop :=
  ∀ s : State, (s.part = .tsj5140 → s.tapId = 0x35140A5F) ∧ (s.part = .tsj5120 → s.tapId = 0x35120A5F) ∧
    s.tapId.extractLsb' 28 4 = 0x3#4 ∧ s.tapId.extractLsb' 12 16 = BitVec.ofNat 16 s.part.number ∧
    s.tapId.extractLsb' 1 11 = 0x52F#11 ∧ s.tapId.getLsbD 0 = true

/-- DRBG reads (19 R550): through the privileged and through the unprivileged view, the next word is answered and removed; an empty
FIFO answers 0 and sets EMPTY_READ. -/
def Obligations.DrbgReadTakesTheNextWord : Prop :=
  ∀ (s : State), s.running = true → s.mode.pf = false → s.latched (s.latchKey .core) 0x120010 = none →
    (∀ w l, s.esu.dfifo = w :: l →
      exec (.esuDrbgRead .core) s = .next (State.answer { s with esu := { s.esu with dfifo := l } } .ok w)) ∧
    (s.esu.dfifo = [] → exec (.esuDrbgRead .core) s = .next ((s.evt R.esuEvt 3).answer .ok 0))

/-- The vault is one-way (18 R529): no command and no tick takes a slot back to an earlier state: EMPTY, STAGED, ACTIVE, REVOKED in
that order, while a key program in progress aims at an empty slot. -/
def Obligations.VaultSlotsNeverReturn : Prop :=
  let rank (x : SlotState) : Nat := match x with
    | .empty => 0 | .staged => 1 | .active => 2 | .revoked => 3
  ∀ s t : State, VaultOpSound s → step s = .next t → ∀ n : Fin 16, rank (s.key.vault[n]).state ≤ rank (t.key.vault[n]).state

/-- The vault's controller programs only an empty slot (18 R530): so it is at reset, and every step keeps it. -/
def Obligations.VaultProgramsOnlyEmptySlots : Prop :=
  VaultOpSound State.reset ∧ ∀ s t : State, VaultOpSound s → step s = .next t → VaultOpSound t
end

