-- ==== Sys2Proof/Laws/Bundle.lean ====
section
/-! SUPPORT. Bundles of the scan core: what a bundle of one syllable does, said once (12 R315 to R320). -/

namespace Sys2Proof.Machine

theorem withCore_withCore (s : State) (f g : CoreSt → CoreSt) : (s.withCore f).withCore g = s.withCore (fun c => g (f c)) := rfl

theorem issue_one (s : State) (o : SylEnc) (y : Syl) (hr : s.coreRuns = true) (hb : s.core.bundle = [])
    (hbf : s.boundaryFree = true)
   (ho : o.stop = true) : s.issue o y = State.bundleEnd (s.withCore (fun c => {c with bundle := [y]})) true := by
  have e : s.withCore (fun c => { c with bundle := c.bundle ++ [y] }) = s.withCore (fun c => { c with bundle := [y] }) := by
    simp only [State.withCore, hb, List.nil_append]
  unfold State.issue State.join
  rw [if_neg (by simp [hr]), if_pos (by simp [hbf])]
  simp only [e, ho, Bool.true_or, if_true]

/-- A syllable with its guard true that alone makes a legal bundle (12 R317, R321). -/
structure Syl.Fine (y : Syl) (df : Bool) : Prop where
  guard : y.guard = true
  legal : y.illegal = false
  noX : y.badX = false
  words : y.words ≤ 2
  hreg : (df && y.hreg) = false
  ue : y.ue = false
  nodup1 : (bundleDst [y] ++ loadDst [y]).Nodup
  nodup2 : (bundlePdst [y]).Nodup

theorem words_one (y : Syl) (h : y.words ≤ 2) : bundleWords [y] = y.words := by
  simp only [bundleWords, List.foldl]; omega

theorem bundleFault_one (s : State) (y : Syl) (hf : y.Fine s.core.df) (hp : s.core.pc.toNat + 8 ≤ 0x40000)
    (hn : s.sylFault y = none) : s.bundleFault [y] true = none := by
  unfold State.bundleFault
  have ho : (List.range (bundleWords [y])).find? (fun i => decide (0x40000 ≤ s.core.pc.toNat + 4 * i)) = none := by
    rw [List.find?_eq_none]; intro x hx
    rw [words_one y hf.words, List.mem_range] at hx
    have := hf.words
    simp; omega
  have hi : bundleIllegal [y] true = false := by
    have h1 := hf.nodup1; have h2 := hf.nodup2; have hw := hf.words; have hx := hf.noX
    unfold bundleIllegal
    rcases hc : y.cls <;> simp [hx, h1, h2, hc] <;> omega
  have ha : [y].any (fun y => y.illegal || (s.core.df && y.hreg)) = false := by
    simp only [List.any_cons, List.any_nil, Bool.or_false, hf.legal, hf.hreg]
  dsimp only
  rw [ho]
  simp only [hi, ha, Bool.false_eq_true, if_false]
  rcases hc : y.cls <;> simp [hf.guard, hc, hn, worstFault]

theorem bundleAct_one (s : State) (y : Syl) (next : Word) (hu : y.ue = false) : s.bundleAct [y] next = s.bundleRun [y] next := by
  have h1 : bundleUe [y] = false := by unfold bundleUe; simp only [List.any_cons, List.any_nil, hu]; cases y.act <;> simp
  have h2 : bundleRecUe [y] = none := by unfold bundleRecUe; simp only [List.findSome?_cons, List.findSome?_nil, hu]; cases y.act <;> simp
  unfold State.bundleAct
  rw [h1, h2]
  rfl

theorem bundleEnd_one (s : State) (y : Syl) (hb : s.core.bundle = [y]) (hf : y.Fine s.core.df) (hp : s.core.pc.toNat + 8 ≤ 0x40000)
    (hn : s.closeBundle.sylFault y = none) (ha : s.aexcDue = none) (hpr : s.core.precise = false ∨ y.arith = 0)
    (hw : s.closeBundle.waits (controlOf [y]) = false) :
    s.bundleEnd true = s.closeBundle.bundleRun [y] (s.core.pc + BitVec.ofNat 32 (4 * y.words)) := by
  have ha' : s.closeBundle.aexcDue = none := ha
  have hbf : s.closeBundle.bundleFault [y] true = none := bundleFault_one _ y hf hp hn
  unfold State.bundleEnd
  simp only [hb]
  change (match s.closeBundle.bundleFault [y] true, s.closeBundle.aexcDue with
    | _, _ => _) = _
  have hfe : [y].any Syl.fetchUe = false := by simp [Syl.fetchUe, hf.ue]
  simp only [← State.closeBundle.eq_1, hfe, hbf, ha', Option.isSome_none, Bool.and_false, Bool.false_eq_true, if_false, hw,
    words_one y hf.words]
  have : (if s.closeBundle.core.precise = true then preciseFault [y] else none) = none := by
    rcases hpr with h | h
    · have : s.closeBundle.core.precise = false := h
      simp [this]
    · simp [preciseFault, h]
  rw [this]
  exact bundleAct_one _ y _ hf.ue

theorem issue_single (s : State) (o : SylEnc) (y : Syl) (hr : s.coreRuns = true) (hb : s.core.bundle = [])
    (hbf : s.boundaryFree = true)
    (ho : o.stop = true) (hf : y.Fine s.core.df) (hp : s.core.pc.toNat + 8 ≤ 0x40000)
    (hn : s.closeBundle.sylFault y = none) (ha : s.aexcDue = none) (hpr : s.core.precise = false ∨ y.arith = 0)
    (hw : s.closeBundle.waits (controlOf [y]) = false) :
    s.issue o y = s.closeBundle.bundleRun [y] (s.core.pc + BitVec.ofNat 32 (4 * y.words)) := by
  rw [issue_one s o y hr hb hbf ho]
  rw [bundleEnd_one (s.withCore (fun c => {c with bundle := [y]})) y rfl hf hp hn ha hpr hw]
  rfl
/-- The register and the predicates that a syllable writes. -/
def CoreSt.wrote (c : CoreSt) (y : Syl) : CoreSt :=
  (y.pdst.zip y.pvalue).foldl (fun (x : CoreSt) (w : BitVec 3 × Bool) => x.putPred w.1 w.2)
    (match y.dst with
    | none => c
    | some d => c.put d.toNat y.value)

theorem writes_one (c : CoreSt) (s : State) (y : Syl) :
    c.writes { s := s, loads := [], regs := (match y.dst with | none => [] | some d => [(d, y.value)]) ++ [],
               preds := y.pdst.zip y.pvalue ++ [] } =
      { CoreSt.wrote { (dueLoads c.loads).1.foldl (fun (x : CoreSt) l => x.putAt l.reg l.value) c with loads := (dueLoads c.loads).2 } y with
        loads := (dueLoads c.loads).2 } := by
  have hp : ∀ (l : List (BitVec 3 × Bool)) (c : CoreSt) (n : List LoadSt),
      { l.foldl (fun (x : CoreSt) (w : BitVec 3 × Bool) => x.putPred w.1 w.2) { c with loads := n } with loads := n } =
      { l.foldl (fun (x : CoreSt) (w : BitVec 3 × Bool) => x.putPred w.1 w.2) c with loads := n } := by
    intro l; induction l with
    | nil => intro c n; rfl
    | cons a t ih =>
      intro c n; simp only [List.foldl]
      have : CoreSt.putPred { c with loads := n } a.1 a.2 = { c.putPred a.1 a.2 with loads := n } := by
        unfold CoreSt.putPred; split <;> rfl
      rw [this, ih]
  have hq : ∀ (c : CoreSt) (d : Nat) (v : Word) (n : List LoadSt),
    CoreSt.put { c with loads := n } d v = { c.put d v with loads := n } := by
    intro c d v n; unfold CoreSt.put CoreSt.putAt
    change (if c.phys d = 0 then _ else _) = _
    split <;> rfl
  unfold CoreSt.writes CoreSt.wrote
  cases y.dst with
  | none => dsimp only; simp only [List.append_nil]; exact (hp _ _ _).symm
  | some d =>
    dsimp only
    simp only [List.append_nil]
    rw [hq]
    exact (hp _ _ _).symm

theorem putPred_loads (c : CoreSt) (i b) : (c.putPred i b).loads = c.loads := by unfold CoreSt.putPred; split <;> rfl
theorem putAt_loads (c : CoreSt) (i v) : (c.putAt i v).loads = c.loads := by unfold CoreSt.putAt; split <;> rfl
theorem wrote_loads (c : CoreSt) (y : Syl) : (c.wrote y).loads = c.loads := by
  have hp : ∀ (l : List (BitVec 3 × Bool)) (c : CoreSt),
      (l.foldl (fun (x : CoreSt) (w : BitVec 3 × Bool) => x.putPred w.1 w.2) c).loads = c.loads := by
    intro l; induction l with
    | nil => intro c; rfl
    | cons a t ih => intro c; rw [List.foldl_cons, ih, putPred_loads]
  unfold CoreSt.wrote; rw [hp]; cases y.dst
  · rfl
  · exact putAt_loads ..

theorem bundleRun_plain (s : State) (y : Syl) (next : Word) (hg : y.guard = true) (hact : y.act = .none)
    (hari : y.arith = 0) :
    s.bundleRun [y] next = { s with core := { s.core.passLoads.wrote y with
      pc := next, cyc := (s.core.passLoads.wrote y).cyc + BitVec.ofNat 64 (max 1 y.cycles) } } := by
  have hc : controlOf [y] = .none := by
    unfold controlOf; cases hcl : y.cls <;> simp [hg, hcl, hact]
  have hcy : s.sylCycles y = y.cycles := by unfold State.sylCycles; simp [hact]
  have hr : Reads.syl s.core next { s := s, loads := [], regs := [], preds := [] } y =
      { s := s, loads := [], regs := (match y.dst with | none => [] | some d => [(d, y.value)]) ++ [],
        preds := y.pdst.zip y.pvalue ++ [] } := by
    unfold Reads.syl; rw [if_neg (by simp [hg])]; rw [hact] <;> rfl
  have hst : ∀ t : State, [y].foldl (State.sylStore s.core.pc (controlOf [y] == .commit)) t = t := by
    intro t; simp only [List.foldl]; unfold State.sylStore; rw [if_neg (by simp [hg]), hact]
  have har : ∀ t : State, [y].foldl (State.sylArith s.core.pc) t = t := by
    intro t; simp only [List.foldl]; unfold State.sylArith; simp [hari]
  unfold State.bundleRun
  dsimp only
  rw [hst, har, ite_self]
  simp only [List.foldl_cons, List.foldl_nil, hr, hc, hcy]
  rw [State.withCore, writes_one]
  have hw : ({ s.core.passLoads.wrote y with loads := (dueLoads s.core.loads).2 } : CoreSt) = s.core.passLoads.wrote y := by
    have := wrote_loads s.core.passLoads y
    cases h : s.core.passLoads.wrote y
    rw [h] at this
    simp only [CoreSt.passLoads] at this
    simp [this]
  unfold State.sylEnd
  change { s with core := _ } = _
  unfold CoreSt.passLoads at hw ⊢
  simp only [hw]
  rfl
/-- Register fields that name registers, none of a window in a double fault. -/
theorem regs_fine {df : Bool} (fs : List (BitVec 6)) (h : ∀ f ∈ fs, f.toNat < 56) (hd : df = true → ∀ f ∈ fs, f.toNat < 32) :
    (fs.all fieldOk) = true ∧ (df && fs.any fieldH) = false := by
  constructor
  · simp [fieldOk]; exact h
  · cases df
    · rfl
    · simp [fieldH]; intro f hf h32; have := hd rfl f hf; omega


/-- A bundle of one syllable that only writes registers and predicates. -/
theorem issue_value (s : State) (o : SylEnc) (fs : List (BitVec 6)) (y : Syl) (h : BundleReady s o fs) (hf : y.Fine s.core.df)
    (hw : y.words = sylWords o) (hact : y.act = .none) (hari : y.arith = 0) :
    s.issue o y = s.afterBundle (s.pcAfter o) (max 1 y.cycles) (fun c => c.wrote y) := by
  obtain ⟨⟨hr, hb, hbf, ha⟩, ho, -, hp, -, -⟩ := h
  have hn : s.closeBundle.sylFault y = none := by unfold State.sylFault; simp [hact]
  have hc : controlOf [y] = .none := by
    have := hf.guard
    unfold controlOf; cases hcl : y.cls <;> simp [this, hcl, hact]
  rw [issue_single s o y hr hb hbf ho hf hp hn ha (Or.inr hari) (by rw [hc]; rfl), bundleRun_plain _ _ _ hf.guard hact hari, hw]
  rfl

/-- A syllable whose guard is false does nothing: the pc and the cycles move on. -/
theorem bundleRun_off (s : State) (y : Syl) (next : Word) (hg : y.guard = false) :
    s.bundleRun [y] next =
      { s with core := { s.core.passLoads with
          pc := next, cyc := s.core.passLoads.cyc + BitVec.ofNat 64 (max 1 (s.sylCycles y)) } } := by
  have hc : controlOf [y] = .none := by unfold controlOf; simp [hg]
  have hr : Reads.syl s.core next { s := s, loads := [], regs := [], preds := [] } y =
      { s := s, loads := [], regs := [], preds := [] } := by unfold Reads.syl; rw [if_pos (by simp [hg])]
  have hst : ∀ t : State, [y].foldl (State.sylStore s.core.pc (controlOf [y] == .commit)) t = t := by
    intro t; simp only [List.foldl_cons, List.foldl_nil]; unfold State.sylStore; rw [if_pos (by simp [hg])]
  have har : ∀ t : State, [y].foldl (State.sylArith s.core.pc) t = t := by
    intro t; simp only [List.foldl_cons, List.foldl_nil]; unfold State.sylArith; simp [hg]
  have hw : s.core.writes { s := s, loads := [], regs := [], preds := [] } = s.core.passLoads := by
    unfold CoreSt.writes CoreSt.passLoads
    simp only [List.append_nil, List.foldl_nil]
  unfold State.bundleRun
  dsimp only
  rw [hst, har, ite_self]
  simp only [List.foldl_cons, List.foldl_nil, hr, hc]
  rw [State.withCore, hw]
  unfold State.sylEnd
  rfl

theorem regionDtcm {x : Nat} (h1 : 0x10000000 ≤ x) (h2 : x < 0x10040000) : regionOf x = .dtcm := by
  unfold regionOf; rw [if_neg (by omega), if_pos ⟨h1, h2⟩]

theorem statusLoad (s : State) (x : Word) (n : Nat) (h1 : 0x10000000 ≤ x.toNat) (h2 : x.toNat < 0x10040000) (ha : x.toNat % n = 0) :
    s.status (s.accessOf .core) false n x = .ok := by
  unfold State.status; dsimp only; rw [regionDtcm h1 h2]; simp [ha]
theorem statusStore (s : State) (x : Word) (n : Nat) (h1 : 0x10000000 ≤ x.toNat) (h2 : x.toNat < 0x10040000) (ha : x.toNat % n = 0)
    (hn : x.toNat < 0x1003E000 ∨ 0x1003F000 ≤ x.toNat) :
    s.status (s.accessOf .core) true n x = .ok := by
  unfold State.status; dsimp only; rw [regionDtcm h1 h2]; simp [ha]; omega

theorem bundleRun_load (s : State) (y : Syl) (next : Word) (n sg rd x) (hg : y.guard = true) (hact : y.act = .load n sg rd x)
    (hari : y.arith = 0) (hm : y.cls = .m) (hcy : y.cycles = 1)
    (h1 : 0x10000000 ≤ x.toNat) (h2 : x.toNat < 0x10040000) :
    s.bundleRun [y] next = { s with core := { s.core.passLoads with
      loads := s.core.passLoads.loads ++ [{
          reg := s.core.phys rd.toNat
          value := extend n sg (BitVec.ofNat 32 (natLE (mread 0 s.mem.dtcm (x.toNat - 0x10000000) n)))
          left := 2 }],
      pc := next, cyc := s.core.passLoads.cyc + BitVec.ofNat 64 1 } } := by
  have hc : controlOf [y] = .none := by unfold controlOf; simp [hm]
  have hcyc : s.sylCycles y = 1 := by unfold State.sylCycles; simp [hact, hcy]
  have hl : s.load (s.accessOf .core) n x = (BitVec.ofNat 32 (natLE (mread 0 s.mem.dtcm (x.toNat - 0x10000000) n)), s) := by
    unfold State.load; simp only [regionDtcm h1 h2]; unfold State.memBytes; rw [regionDtcm h1 h2]
  have hr : Reads.syl s.core next { s := s, loads := [], regs := [], preds := [] } y =
      { s := s, loads := [{
          reg := s.core.phys rd.toNat
          value := extend n sg (BitVec.ofNat 32 (natLE (mread 0 s.mem.dtcm (x.toNat - 0x10000000) n)))
          left := 2 }], regs := [], preds := [] } := by
    unfold Reads.syl; rw [if_neg (by simp [hg]), hact]; simp only [hl, List.nil_append]
  have hst : ∀ t : State, [y].foldl (State.sylStore s.core.pc (controlOf [y] == .commit)) t = t := by
    intro t; simp only [List.foldl_cons, List.foldl_nil]; unfold State.sylStore; rw [if_neg (by simp [hg]), hact]
  have har : ∀ t : State, [y].foldl (State.sylArith s.core.pc) t = t := by
    intro t; simp only [List.foldl_cons, List.foldl_nil]; unfold State.sylArith; simp [hari]
  unfold State.bundleRun
  dsimp only
  rw [hst, har, ite_self]
  simp only [List.foldl_cons, List.foldl_nil, hr, hc, hcyc]
  unfold State.sylEnd CoreSt.writes CoreSt.passLoads
  rfl

theorem bundleRun_store (s : State) (y : Syl) (next : Word) (n x v) (hg : y.guard = true) (hact : y.act = .store n x v)
    (hd : y.dst = none) (hp : y.pdst = []) (hari : y.arith = 0) (hm : y.cls = .m)
    (h1 : 0x10000000 ≤ x.toNat) (h2 : x.toNat < 0x10040000) (hcm : s.scan.commit = none) :
    s.bundleRun [y] next = { s with
      core := { s.core.passLoads with pc := next, cyc := s.core.passLoads.cyc + BitVec.ofNat 64 1 }
      mem := { s.mem with dtcm := mwrite 0 s.mem.dtcm (x.toNat - 0x10000000) ((bytesLE v).take n) } } := by
  have hc : controlOf [y] = .none := by unfold controlOf; simp [hm]
  have hfar : ∀ t : State, t.farStore x = false := by intro t; unfold State.farStore; simp [regionDtcm h1 h2, MapRegion.near]
  have hcyc : s.sylCycles y = 1 := by unfold State.sylCycles; simp [hact, hfar]
  have hr : Reads.syl s.core next { s := s, loads := [], regs := [], preds := [] } y =
      { s := s, loads := [], regs := [], preds := [] } := by
    unfold Reads.syl; rw [if_neg (by simp [hg]), hact]; simp only [hd, hp]; rfl
  have hst : ∀ t : State, t.scan.commit = none → [y].foldl (State.sylStore s.core.pc (controlOf [y] == .commit)) t =
      { t with mem := { t.mem with dtcm := mwrite 0 t.mem.dtcm (x.toNat - 0x10000000) ((bytesLE v).take n) } } := by
    intro t ht
    simp only [List.foldl_cons, List.foldl_nil]; unfold State.sylStore; rw [if_neg (by simp [hg]), hact]
    have hb : (controlOf [y] == SylAct.commit) = false := by rw [hc]; rfl
    simp only [hb, hfar]
    simp [State.store, regionDtcm h1 h2, ht, State.storeNow]
  have har : ∀ t : State, [y].foldl (State.sylArith s.core.pc) t = t := by
    intro t; simp only [List.foldl_cons, List.foldl_nil]; unfold State.sylArith; simp [hari]
  have hw : s.core.writes { s := s, loads := [], regs := [], preds := [] } = s.core.passLoads := by
    unfold CoreSt.writes CoreSt.passLoads
    simp only [List.append_nil, List.foldl_nil]
  unfold State.bundleRun
  dsimp only
  rw [har, ite_self]
  simp only [List.foldl_cons, List.foldl_nil, hr, hcyc] at hst ⊢
  rw [State.withCore, hw]
  have ht := hst { s with core := s.core.passLoads } hcm
  rw [ht, hc]
  unfold State.sylEnd
  rfl

theorem putAt_cyc (c : CoreSt) (i v) : (c.putAt i v).cyc = c.cyc := by unfold CoreSt.putAt; split <;> rfl
theorem pass_cyc (c : CoreSt) : c.passLoads.cyc = c.cyc := by
  have hq : ∀ (l : List LoadSt) (c : CoreSt), (l.foldl (fun (x : CoreSt) l => x.putAt l.reg l.value) c).cyc = c.cyc := by
    intro l; induction l with
    | nil => intro c; rfl
    | cons a t ih => intro c; rw [List.foldl_cons, ih, putAt_cyc]
  exact hq _ _

/-- A bundle of one load from DTCM: the value enters its delay of two bundles. -/
theorem issue_load (s : State) (o : SylEnc) (fs) (y : Syl) (n sg rd x) (h : BundleReady s o fs) (hf : y.Fine s.core.df)
    (hw : y.words = sylWords o) (hact : y.act = .load n sg rd x) (hari : y.arith = 0) (hm : y.cls = .m) (hcy : y.cycles = 1)
    (h1 : 0x10000000 ≤ x.toNat) (h2 : x.toNat < 0x10040000) (ha : x.toNat % n = 0) :
    s.issue o y = s.afterBundle (s.pcAfter o) 1 (fun c => { c with loads := c.loads ++ [{
          reg := s.core.phys rd.toNat
          value := extend n sg (BitVec.ofNat 32 (natLE (mread 0 s.mem.dtcm (x.toNat - 0x10000000) n)))
          left := 2 }] }) := by
  obtain ⟨⟨hr, hb, hbf, hax⟩, ho, -, hp, -, -⟩ := h
  have hn : s.closeBundle.sylFault y = none := by
    unfold State.sylFault; simp only [hact]; rw [statusLoad _ x n h1 h2 ha]; rfl
  have hc : controlOf [y] = .none := by unfold controlOf; simp [hm]
  rw [issue_single s o y hr hb hbf ho hf hp hn hax (Or.inr hari) (by rw [hc]; rfl),
    bundleRun_load s.closeBundle y _ n sg rd x hf.guard hact hari hm hcy h1 h2, hw]
  rfl

/-- A bundle of one store to DTCM outside the Zinik slots: its bytes, the pc, the cycles. -/
theorem issue_store (s : State) (o : SylEnc) (fs) (y : Syl) (n x v) (h : BundleReady s o fs) (hf : y.Fine s.core.df)
    (hw : y.words = sylWords o) (hact : y.act = .store n x v) (hd : y.dst = none) (hpd : y.pdst = []) (hari : y.arith = 0) (hm : y.cls = .m)
    (h1 : 0x10000000 ≤ x.toNat) (h2 : x.toNat < 0x10040000) (ha : x.toNat % n = 0) (hz : x.toNat < 0x1003E000 ∨ 0x1003F000 ≤ x.toNat) :
    s.issue o y = { s.afterBundle (s.pcAfter o) 1 id with
      mem := { s.mem with dtcm := mwrite 0 s.mem.dtcm (x.toNat - 0x10000000) ((bytesLE v).take n) } } := by
  obtain ⟨⟨hr, hb, hbf, hax⟩, ho, -, hp, -, -⟩ := h
  have hn : s.closeBundle.sylFault y = none := by
    unfold State.sylFault; simp only [hact]; rw [statusStore _ x n h1 h2 ha hz]; rfl
  have hc : controlOf [y] = .none := by unfold controlOf; simp [hm]
  have hcm : s.scan.commit = none := by
    have := hr; unfold State.coreRuns at this; simp at this; exact this.1.2
  rw [issue_single s o y hr hb hbf ho hf hp hn hax (Or.inr hari) (by rw [hc]; rfl),
    bundleRun_store s.closeBundle y _ n x v hf.guard hact hd hpd hari hm h1 h2 hcm, hw]
  rfl

theorem bundleRun_ctl (s : State) (y : Syl) (next : Word) (hg : y.guard = true) (hm : y.cls = .b)
    (hari : y.arith = 0) (hst : ∀ t c, State.sylStore s.core.pc c t y = t) :
    s.bundleRun [y] next =
      (let r := Reads.syl s.core next { s := s, loads := [], regs := [], preds := [] } y
       State.sylEnd s.core next (max 1 (s.sylCycles y)) (r.s.withCore (fun c => c.writes r)) y.act) := by
  have hc : controlOf [y] = y.act := by unfold controlOf; simp [hg, hm]
  have har : ∀ t : State, [y].foldl (State.sylArith s.core.pc) t = t := by
    intro t; simp only [List.foldl_cons, List.foldl_nil]; unfold State.sylArith; simp [hari]
  unfold State.bundleRun
  dsimp only
  rw [har, ite_self]
  simp only [List.foldl_cons, List.foldl_nil, hc, hst]

/-- A bundle of one B syllable that neither faults nor waits. -/
theorem issue_ctl (s : State) (o : SylEnc) (fs : List (BitVec 6)) (y : Syl) (h : BundleReady s o fs) (hf : y.Fine s.core.df)
    (hw : y.words = 1) (hm : y.cls = .b) (hari : y.arith = 0) (hst : ∀ t c, State.sylStore s.core.pc c t y = t)
    (hn : s.closeBundle.sylFault y = none) (hwt : s.closeBundle.waits y.act = false) :
    s.issue o y =
      (let r := Reads.syl s.closeBundle.core (s.core.pc + 4) { s := s.closeBundle, loads := [], regs := [], preds := [] } y
       State.sylEnd s.closeBundle.core (s.core.pc + 4) (max 1 (s.closeBundle.sylCycles y)) (r.s.withCore (fun c => c.writes r)) y.act) := by
  obtain ⟨⟨hr, hb, hbf, ha⟩, ho, -, hp, -, -⟩ := h
  have hc : controlOf [y] = y.act := by unfold controlOf; simp [hf.guard, hm]
  rw [issue_single s o y hr hb hbf ho hf hp hn ha (Or.inr hari) (by rw [hc]; exact hwt),
    bundleRun_ctl s.closeBundle y _ hf.guard hm hari hst, hw]
  rfl

theorem writes_nil (c : CoreSt) (s : State) : c.writes { s := s, loads := [], regs := [], preds := [] } = c.passLoads := by
  unfold CoreSt.writes CoreSt.passLoads; simp only [List.append_nil, List.foldl_nil]

theorem writes_reg (c : CoreSt) (s : State) (d v) : c.writes { s := s, loads := [], regs := [(d, v)], preds := [] } =
    c.passLoads.put d.toNat v := by
  have hq : ∀ (c : CoreSt) (d : Nat) (v : Word) (n : List LoadSt),
    CoreSt.put { c with loads := n } d v = { c.put d v with loads := n } := by
    intro c d v n; unfold CoreSt.put CoreSt.putAt
    change (if c.phys d = 0 then _ else _) = _
    split <;> rfl
  unfold CoreSt.writes CoreSt.passLoads; simp only [List.append_nil, List.foldl_nil, List.foldl_cons]; rw [hq]; rw [← hq]

end Sys2Proof.Machine
end

