-- ==== Sys2Proof/Laws/Memory.lean ====
section
/-! SUPPORT. Canonical maps (Machine/Bits.lean): what an update leaves, and that every operation over them keeps the canonical form. -/

namespace Sys2Proof.Machine

variable {α : Type} [DecidableEq α] {d : α}

omit [DecidableEq α] in
@[simp] theorem mget_nil (k : Nat) : mget d ([] : List (Nat × α)) k = d := rfl
@[simp] theorem mwf_nil : mwf d ([] : List (Nat × α)) = true := rfl

/-- The start of the range of keys may be put lower. -/
theorem mwfFrom_mono {m : List (Nat × α)} {n k : Nat} (h : mwfFrom d n m = true) (hk : k ≤ n) : mwfFrom d k m = true := by
  cases m with
  | nil => rfl
  | cons c t =>
    simp only [mwfFrom, Bool.and_eq_true, decide_eq_true_eq] at h ⊢
    exact ⟨⟨by omega, h.1.2⟩, h.2⟩

/-- A key below every listed one is unlisted. -/
theorem mget_below {m : List (Nat × α)} {n k : Nat} (h : mwfFrom d n m = true) (hk : k < n) : mget d m k = d := by
  induction m generalizing n with
  | nil => rfl
  | cons c t ih =>
    simp only [mwfFrom, Bool.and_eq_true, decide_eq_true_eq] at h
    have : k ≠ c.1 := by omega
    simp only [mget, if_neg this]
    exact ih h.2 (by omega)

/-- An update keeps the canonical form. -/
theorem mset_wfFrom {m : List (Nat × α)} {n k : Nat} (v : α) (h : mwfFrom d n m = true) (hk : n ≤ k) :
    mwfFrom d n (mset d m k v) = true := by
  induction m generalizing n with
  | nil =>
    simp only [mset]
    split
    · rfl
    · simp_all [mwfFrom]
  | cons c t ih =>
    simp only [mwfFrom, Bool.and_eq_true, decide_eq_true_eq] at h
    simp only [mset]
    split
    · split
      · simp only [mwfFrom, Bool.and_eq_true, decide_eq_true_eq]; exact h
      · simp only [mwfFrom, Bool.and_eq_true, decide_eq_true_eq]
        exact ⟨⟨hk, by assumption⟩, ⟨by omega, h.1.2⟩, h.2⟩
    · split
      · split
        · exact mwfFrom_mono h.2 (by omega)
        · simp only [mwfFrom, Bool.and_eq_true, decide_eq_true_eq]
          subst_vars
          exact ⟨⟨hk, by assumption⟩, h.2⟩
      · simp only [mwfFrom, Bool.and_eq_true, decide_eq_true_eq]
        exact ⟨h.1, ih h.2 (by omega)⟩

theorem mset_wf {m : List (Nat × α)} (k : Nat) (v : α) (h : mwf d m = true) : mwf d (mset d m k v) = true :=
  mset_wfFrom v h (Nat.zero_le k)

/-- What a map reads as after an update. -/
theorem mget_mset {m : List (Nat × α)} {n : Nat} (k j : Nat) (v : α) (h : mwfFrom d n m = true) :
    mget d (mset d m k v) j = if j = k then v else mget d m j := by
  induction m generalizing n with
  | nil => simp only [mset]; split <;> simp_all [mget]
  | cons c t ih =>
    simp only [mwfFrom, Bool.and_eq_true, decide_eq_true_eq] at h
    simp only [mset]
    by_cases hlt : k < c.1
    · rw [if_pos hlt]
      have hb : mget d t k = d := mget_below h.2 (by omega)
      by_cases hv : v = d
      · rw [if_pos hv]
        by_cases hj : j = k
        · have : j ≠ c.1 := by omega
          simp only [mget, if_neg this, if_pos hj]; rw [hj, hb, hv]
        · rw [if_neg hj]
      · rw [if_neg hv]; simp only [mget]
    · rw [if_neg hlt]
      by_cases he : k = c.1
      · rw [if_pos he]
        by_cases hv : v = d
        · rw [if_pos hv]
          by_cases hj : j = k
          · rw [if_pos hj, hv]; exact mget_below h.2 (by omega)
          · rw [if_neg hj]; simp only [mget, if_neg (show j ≠ c.1 by omega)]
        · rw [if_neg hv]
          by_cases hj : j = k
          · simp only [mget, if_pos hj]
          · simp only [mget, if_neg hj, if_neg (show j ≠ c.1 by omega)]
      · rw [if_neg he]
        by_cases hj : j = c.1
        · simp only [mget, if_pos hj]; rw [if_neg (by omega)]
        · simp only [mget, if_neg hj]; exact ih h.2

/-- A part of a canonical map is canonical. -/
theorem mwfFrom_filter {m : List (Nat × α)} {n : Nat} (p : Nat × α → Bool) (h : mwfFrom d n m = true) :
    mwfFrom d n (m.filter p) = true := by
  induction m generalizing n with
  | nil => rfl
  | cons c t ih =>
    simp only [mwfFrom, Bool.and_eq_true, decide_eq_true_eq] at h
    simp only [List.filter]
    split
    · simp only [mwfFrom, Bool.and_eq_true, decide_eq_true_eq]; exact ⟨h.1, ih h.2⟩
    · exact mwfFrom_mono (ih h.2) (by omega)

theorem filter_wf {m : List (Nat × α)} (p : Nat × α → Bool) (h : mwf d m = true) : mwf d (m.filter p) = true :=
  mwfFrom_filter p h

/-- Clearing a range keeps the canonical form. -/
theorem mclear_keeps_wf {m : List (Nat × α)} (a n : Nat) (h : mwf d m = true) : mwf d (mclear m a n) = true :=
  filter_wf _ h

/-- A store of consecutive bytes keeps the canonical form. -/
theorem mwrite_keeps_wf {d : Byte} (m : List Host.Cell) (a : Nat) (l : List Byte) (h : mwf d m = true) :
    mwf d (mwrite d m a l) = true := by
  induction l generalizing m a with
  | nil => exact h
  | cons b t ih => exact ih _ _ (mset_wf a b h)

/-- The memory that holds a list of bytes is canonical. -/
theorem mlist_keeps_wf (d : Byte) (a : Nat) (l : List Byte) : mwf d (mlist d a l) = true := by
  suffices h : mwfFrom d a (mlist d a l) = true from mwfFrom_mono h (Nat.zero_le a)
  induction l generalizing a with
  | nil => rfl
  | cons b t ih =>
    simp only [mlist]
    split
    · exact mwfFrom_mono (ih (a + 1)) (by omega)
    · simp only [mwfFrom, Bool.and_eq_true, decide_eq_true_eq]
      exact ⟨⟨Nat.le_refl a, by assumption⟩, ih (a + 1)⟩

/-! Stored registers. -/

theorem State.setReg_regs_wf (s : State) (o : Nat) (v : Word) (h : mwf 0 s.regs = true) : mwf 0 (s.setReg o v).regs = true :=
  mset_wf o v h

/-- What a register reads as after one takes a value. -/
theorem State.reg_setReg (s : State) (o j : Nat) (v : Word) (h : mwf 0 s.regs = true) :
    (s.setReg o v).reg j = if j = o then v else s.reg j := mget_mset o j v h

/-- A register takes a value and the maps stay canonical. -/
theorem State.setReg_mapsWf (s : State) (o : Nat) (v : Word) (h : s.mapsWf = true) : (s.setReg o v).mapsWf = true := by
  simp only [State.mapsWf, Bool.and_eq_true] at h ⊢
  exact ⟨⟨⟨⟨⟨⟨h.1.1.1.1.1.1, mset_wf o v h.1.1.1.1.1.2⟩, h.1.1.1.1.2⟩, h.1.1.1.2⟩, h.1.1.2⟩, h.1.2⟩, h.2⟩

/-- An I/O byte of the sentinel is stored and the maps stay canonical. -/
theorem State.putIob_mapsWf (s : State) (a : Nat) (v : Byte) (h : s.mapsWf = true) : (s.putIob a v).mapsWf = true := by
  simp only [State.mapsWf, Bool.and_eq_true] at h ⊢
  exact ⟨h.1, mset_wf a v h.2⟩

theorem State.putIos_mapsWf (s : State) (a : Nat) (l : List Byte) (h : s.mapsWf = true) : (s.putIos a l).mapsWf = true := by
  simp only [State.mapsWf, Bool.and_eq_true] at h ⊢
  exact ⟨h.1, mwrite_keeps_wf _ a l h.2⟩

/-- A word is stored to DTCM and the maps stay canonical. -/
theorem State.dtcmPut_mapsWf (s : State) (a : Nat) (v : Word) (h : s.mapsWf = true) : (s.dtcmPut a v).mapsWf = true := by
  simp only [State.mapsWf, Bool.and_eq_true] at h ⊢
  simp only [State.dtcmPut]
  refine ⟨⟨⟨⟨⟨⟨⟨⟨⟨⟨⟨⟨⟨⟨?_, ?_⟩, ?_⟩, ?_⟩, ?_⟩, ?_⟩, ?_⟩, ?_⟩, ?_⟩, ?_⟩, ?_⟩, ?_⟩, ?_⟩, ?_⟩, ?_⟩
  case refine_2 => exact mwrite_keeps_wf _ _ _ h.1.1.1.1.1.1.1.1.1.1.1.1.1.2
  all_goals simp only [h]

end Sys2Proof.Machine
end

