-- ==== Sys2Proof/Laws/State.lean ====
section
/-! SUPPORT. Each field of the state after each shared operation, one lemma a field. -/

namespace Sys2Proof.Machine

/-! State.setReg. -/

@[simp] theorem State.setReg_pending (s : State) (o : Nat) (v : Word) : (s.setReg o v).pending = s.pending := rfl
@[simp] theorem State.setReg_part (s : State) (o : Nat) (v : Word) : (s.setReg o v).part = s.part := rfl
@[simp] theorem State.setReg_freeCtr (s : State) (o : Nat) (v : Word) : (s.setReg o v).freeCtr = s.freeCtr := rfl
@[simp] theorem State.setReg_resp (s : State) (o : Nat) (v : Word) : (s.setReg o v).resp = s.resp := rfl
@[simp] theorem State.setReg_regs (s : State) (o : Nat) (v : Word) : (s.setReg o v).regs = mset 0 s.regs o v := rfl
@[simp] theorem State.setReg_latches (s : State) (o : Nat) (v : Word) : (s.setReg o v).latches = s.latches := rfl
@[simp] theorem State.setReg_lows (s : State) (o : Nat) (v : Word) : (s.setReg o v).lows = s.lows := rfl
@[simp] theorem State.setReg_said (s : State) (o : Nat) (v : Word) : (s.setReg o v).said = s.said := rfl
@[simp] theorem State.setReg_time (s : State) (o : Nat) (v : Word) : (s.setReg o v).time = s.time := rfl
@[simp] theorem State.setReg_mode (s : State) (o : Nat) (v : Word) : (s.setReg o v).mode = s.mode := rfl
@[simp] theorem State.setReg_pwr (s : State) (o : Nat) (v : Word) : (s.setReg o v).pwr = s.pwr := rfl
@[simp] theorem State.setReg_log (s : State) (o : Nat) (v : Word) : (s.setReg o v).log = s.log := rfl
@[simp] theorem State.setReg_cfg (s : State) (o : Nat) (v : Word) : (s.setReg o v).cfg = s.cfg := rfl
@[simp] theorem State.setReg_key (s : State) (o : Nat) (v : Word) : (s.setReg o v).key = s.key := rfl
@[simp] theorem State.setReg_afe (s : State) (o : Nat) (v : Word) : (s.setReg o v).afe = s.afe := rfl
@[simp] theorem State.setReg_chain (s : State) (o : Nat) (v : Word) : (s.setReg o v).chain = s.chain := rfl
@[simp] theorem State.setReg_fab (s : State) (o : Nat) (v : Word) : (s.setReg o v).fab = s.fab := rfl
@[simp] theorem State.setReg_scan (s : State) (o : Nat) (v : Word) : (s.setReg o v).scan = s.scan := rfl
@[simp] theorem State.setReg_recd (s : State) (o : Nat) (v : Word) : (s.setReg o v).recd = s.recd := rfl
@[simp] theorem State.setReg_mem (s : State) (o : Nat) (v : Word) : (s.setReg o v).mem = s.mem := rfl
@[simp] theorem State.setReg_core (s : State) (o : Nat) (v : Word) : (s.setReg o v).core = s.core := rfl
@[simp] theorem State.setReg_sch (s : State) (o : Nat) (v : Word) : (s.setReg o v).sch = s.sch := rfl
@[simp] theorem State.setReg_zve (s : State) (o : Nat) (v : Word) : (s.setReg o v).zve = s.zve := rfl
@[simp] theorem State.setReg_uid (s : State) (o : Nat) (v : Word) : (s.setReg o v).uid = s.uid := rfl
@[simp] theorem State.setReg_wnt (s : State) (o : Nat) (v : Word) : (s.setReg o v).wnt = s.wnt := rfl
@[simp] theorem State.setReg_use (s : State) (o : Nat) (v : Word) : (s.setReg o v).use = s.use := rfl
@[simp] theorem State.setReg_umu (s : State) (o : Nat) (v : Word) : (s.setReg o v).umu = s.umu := rfl
@[simp] theorem State.setReg_esu (s : State) (o : Nat) (v : Word) : (s.setReg o v).esu = s.esu := rfl
@[simp] theorem State.setReg_ifc (s : State) (o : Nat) (v : Word) : (s.setReg o v).ifc = s.ifc := rfl
@[simp] theorem State.setReg_dbg (s : State) (o : Nat) (v : Word) : (s.setReg o v).dbg = s.dbg := rfl
@[simp] theorem State.setReg_saf (s : State) (o : Nat) (v : Word) : (s.setReg o v).saf = s.saf := rfl

/-! State.orReg. -/

@[simp] theorem State.orReg_pending (s : State) (o : Nat) (v : Word) : (s.orReg o v).pending = s.pending := rfl
@[simp] theorem State.orReg_part (s : State) (o : Nat) (v : Word) : (s.orReg o v).part = s.part := rfl
@[simp] theorem State.orReg_freeCtr (s : State) (o : Nat) (v : Word) : (s.orReg o v).freeCtr = s.freeCtr := rfl
@[simp] theorem State.orReg_resp (s : State) (o : Nat) (v : Word) : (s.orReg o v).resp = s.resp := rfl
@[simp] theorem State.orReg_regs (s : State) (o : Nat) (v : Word) : (s.orReg o v).regs = mset 0 s.regs o (s.reg o ||| v) := rfl
@[simp] theorem State.orReg_latches (s : State) (o : Nat) (v : Word) : (s.orReg o v).latches = s.latches := rfl
@[simp] theorem State.orReg_lows (s : State) (o : Nat) (v : Word) : (s.orReg o v).lows = s.lows := rfl
@[simp] theorem State.orReg_said (s : State) (o : Nat) (v : Word) : (s.orReg o v).said = s.said := rfl
@[simp] theorem State.orReg_time (s : State) (o : Nat) (v : Word) : (s.orReg o v).time = s.time := rfl
@[simp] theorem State.orReg_mode (s : State) (o : Nat) (v : Word) : (s.orReg o v).mode = s.mode := rfl
@[simp] theorem State.orReg_pwr (s : State) (o : Nat) (v : Word) : (s.orReg o v).pwr = s.pwr := rfl
@[simp] theorem State.orReg_log (s : State) (o : Nat) (v : Word) : (s.orReg o v).log = s.log := rfl
@[simp] theorem State.orReg_cfg (s : State) (o : Nat) (v : Word) : (s.orReg o v).cfg = s.cfg := rfl
@[simp] theorem State.orReg_key (s : State) (o : Nat) (v : Word) : (s.orReg o v).key = s.key := rfl
@[simp] theorem State.orReg_afe (s : State) (o : Nat) (v : Word) : (s.orReg o v).afe = s.afe := rfl
@[simp] theorem State.orReg_chain (s : State) (o : Nat) (v : Word) : (s.orReg o v).chain = s.chain := rfl
@[simp] theorem State.orReg_fab (s : State) (o : Nat) (v : Word) : (s.orReg o v).fab = s.fab := rfl
@[simp] theorem State.orReg_scan (s : State) (o : Nat) (v : Word) : (s.orReg o v).scan = s.scan := rfl
@[simp] theorem State.orReg_recd (s : State) (o : Nat) (v : Word) : (s.orReg o v).recd = s.recd := rfl
@[simp] theorem State.orReg_mem (s : State) (o : Nat) (v : Word) : (s.orReg o v).mem = s.mem := rfl
@[simp] theorem State.orReg_core (s : State) (o : Nat) (v : Word) : (s.orReg o v).core = s.core := rfl
@[simp] theorem State.orReg_sch (s : State) (o : Nat) (v : Word) : (s.orReg o v).sch = s.sch := rfl
@[simp] theorem State.orReg_zve (s : State) (o : Nat) (v : Word) : (s.orReg o v).zve = s.zve := rfl
@[simp] theorem State.orReg_uid (s : State) (o : Nat) (v : Word) : (s.orReg o v).uid = s.uid := rfl
@[simp] theorem State.orReg_wnt (s : State) (o : Nat) (v : Word) : (s.orReg o v).wnt = s.wnt := rfl
@[simp] theorem State.orReg_use (s : State) (o : Nat) (v : Word) : (s.orReg o v).use = s.use := rfl
@[simp] theorem State.orReg_umu (s : State) (o : Nat) (v : Word) : (s.orReg o v).umu = s.umu := rfl
@[simp] theorem State.orReg_esu (s : State) (o : Nat) (v : Word) : (s.orReg o v).esu = s.esu := rfl
@[simp] theorem State.orReg_ifc (s : State) (o : Nat) (v : Word) : (s.orReg o v).ifc = s.ifc := rfl
@[simp] theorem State.orReg_dbg (s : State) (o : Nat) (v : Word) : (s.orReg o v).dbg = s.dbg := rfl
@[simp] theorem State.orReg_saf (s : State) (o : Nat) (v : Word) : (s.orReg o v).saf = s.saf := rfl

/-! State.evt. -/

@[simp] theorem State.evt_pending (s : State) (o i : Nat) : (s.evt o i).pending = s.pending := rfl
@[simp] theorem State.evt_part (s : State) (o i : Nat) : (s.evt o i).part = s.part := rfl
@[simp] theorem State.evt_freeCtr (s : State) (o i : Nat) : (s.evt o i).freeCtr = s.freeCtr := rfl
@[simp] theorem State.evt_resp (s : State) (o i : Nat) : (s.evt o i).resp = s.resp := rfl
@[simp] theorem State.evt_regs (s : State) (o i : Nat) : (s.evt o i).regs = mset 0 s.regs o (s.reg o ||| bitAt true i) := rfl
@[simp] theorem State.evt_latches (s : State) (o i : Nat) : (s.evt o i).latches = s.latches := rfl
@[simp] theorem State.evt_lows (s : State) (o i : Nat) : (s.evt o i).lows = s.lows := rfl
@[simp] theorem State.evt_said (s : State) (o i : Nat) : (s.evt o i).said = s.said := rfl
@[simp] theorem State.evt_time (s : State) (o i : Nat) : (s.evt o i).time = s.time := rfl
@[simp] theorem State.evt_mode (s : State) (o i : Nat) : (s.evt o i).mode = s.mode := rfl
@[simp] theorem State.evt_pwr (s : State) (o i : Nat) : (s.evt o i).pwr = s.pwr := rfl
@[simp] theorem State.evt_log (s : State) (o i : Nat) : (s.evt o i).log = s.log := rfl
@[simp] theorem State.evt_cfg (s : State) (o i : Nat) : (s.evt o i).cfg = s.cfg := rfl
@[simp] theorem State.evt_key (s : State) (o i : Nat) : (s.evt o i).key = s.key := rfl
@[simp] theorem State.evt_afe (s : State) (o i : Nat) : (s.evt o i).afe = s.afe := rfl
@[simp] theorem State.evt_chain (s : State) (o i : Nat) : (s.evt o i).chain = s.chain := rfl
@[simp] theorem State.evt_fab (s : State) (o i : Nat) : (s.evt o i).fab = s.fab := rfl
@[simp] theorem State.evt_scan (s : State) (o i : Nat) : (s.evt o i).scan = s.scan := rfl
@[simp] theorem State.evt_recd (s : State) (o i : Nat) : (s.evt o i).recd = s.recd := rfl
@[simp] theorem State.evt_mem (s : State) (o i : Nat) : (s.evt o i).mem = s.mem := rfl
@[simp] theorem State.evt_core (s : State) (o i : Nat) : (s.evt o i).core = s.core := rfl
@[simp] theorem State.evt_sch (s : State) (o i : Nat) : (s.evt o i).sch = s.sch := rfl
@[simp] theorem State.evt_zve (s : State) (o i : Nat) : (s.evt o i).zve = s.zve := rfl
@[simp] theorem State.evt_uid (s : State) (o i : Nat) : (s.evt o i).uid = s.uid := rfl
@[simp] theorem State.evt_wnt (s : State) (o i : Nat) : (s.evt o i).wnt = s.wnt := rfl
@[simp] theorem State.evt_use (s : State) (o i : Nat) : (s.evt o i).use = s.use := rfl
@[simp] theorem State.evt_umu (s : State) (o i : Nat) : (s.evt o i).umu = s.umu := rfl
@[simp] theorem State.evt_esu (s : State) (o i : Nat) : (s.evt o i).esu = s.esu := rfl
@[simp] theorem State.evt_ifc (s : State) (o i : Nat) : (s.evt o i).ifc = s.ifc := rfl
@[simp] theorem State.evt_dbg (s : State) (o i : Nat) : (s.evt o i).dbg = s.dbg := rfl
@[simp] theorem State.evt_saf (s : State) (o i : Nat) : (s.evt o i).saf = s.saf := rfl

/-! State.countReg. -/

@[simp] theorem State.countReg_pending (s : State) (o : Nat) (m : Word) : (s.countReg o m).pending = s.pending := rfl
@[simp] theorem State.countReg_part (s : State) (o : Nat) (m : Word) : (s.countReg o m).part = s.part := rfl
@[simp] theorem State.countReg_freeCtr (s : State) (o : Nat) (m : Word) : (s.countReg o m).freeCtr = s.freeCtr := rfl
@[simp] theorem State.countReg_resp (s : State) (o : Nat) (m : Word) : (s.countReg o m).resp = s.resp := rfl
@[simp] theorem State.countReg_regs (s : State) (o : Nat) (m : Word) :
    (s.countReg o m).regs = mset 0 s.regs o (if s.reg o = m then m else s.reg o + 1) := rfl
@[simp] theorem State.countReg_latches (s : State) (o : Nat) (m : Word) : (s.countReg o m).latches = s.latches := rfl
@[simp] theorem State.countReg_lows (s : State) (o : Nat) (m : Word) : (s.countReg o m).lows = s.lows := rfl
@[simp] theorem State.countReg_said (s : State) (o : Nat) (m : Word) : (s.countReg o m).said = s.said := rfl
@[simp] theorem State.countReg_time (s : State) (o : Nat) (m : Word) : (s.countReg o m).time = s.time := rfl
@[simp] theorem State.countReg_mode (s : State) (o : Nat) (m : Word) : (s.countReg o m).mode = s.mode := rfl
@[simp] theorem State.countReg_pwr (s : State) (o : Nat) (m : Word) : (s.countReg o m).pwr = s.pwr := rfl
@[simp] theorem State.countReg_log (s : State) (o : Nat) (m : Word) : (s.countReg o m).log = s.log := rfl
@[simp] theorem State.countReg_cfg (s : State) (o : Nat) (m : Word) : (s.countReg o m).cfg = s.cfg := rfl
@[simp] theorem State.countReg_key (s : State) (o : Nat) (m : Word) : (s.countReg o m).key = s.key := rfl
@[simp] theorem State.countReg_afe (s : State) (o : Nat) (m : Word) : (s.countReg o m).afe = s.afe := rfl
@[simp] theorem State.countReg_chain (s : State) (o : Nat) (m : Word) : (s.countReg o m).chain = s.chain := rfl
@[simp] theorem State.countReg_fab (s : State) (o : Nat) (m : Word) : (s.countReg o m).fab = s.fab := rfl
@[simp] theorem State.countReg_scan (s : State) (o : Nat) (m : Word) : (s.countReg o m).scan = s.scan := rfl
@[simp] theorem State.countReg_recd (s : State) (o : Nat) (m : Word) : (s.countReg o m).recd = s.recd := rfl
@[simp] theorem State.countReg_mem (s : State) (o : Nat) (m : Word) : (s.countReg o m).mem = s.mem := rfl
@[simp] theorem State.countReg_core (s : State) (o : Nat) (m : Word) : (s.countReg o m).core = s.core := rfl
@[simp] theorem State.countReg_sch (s : State) (o : Nat) (m : Word) : (s.countReg o m).sch = s.sch := rfl
@[simp] theorem State.countReg_zve (s : State) (o : Nat) (m : Word) : (s.countReg o m).zve = s.zve := rfl
@[simp] theorem State.countReg_uid (s : State) (o : Nat) (m : Word) : (s.countReg o m).uid = s.uid := rfl
@[simp] theorem State.countReg_wnt (s : State) (o : Nat) (m : Word) : (s.countReg o m).wnt = s.wnt := rfl
@[simp] theorem State.countReg_use (s : State) (o : Nat) (m : Word) : (s.countReg o m).use = s.use := rfl
@[simp] theorem State.countReg_umu (s : State) (o : Nat) (m : Word) : (s.countReg o m).umu = s.umu := rfl
@[simp] theorem State.countReg_esu (s : State) (o : Nat) (m : Word) : (s.countReg o m).esu = s.esu := rfl
@[simp] theorem State.countReg_ifc (s : State) (o : Nat) (m : Word) : (s.countReg o m).ifc = s.ifc := rfl
@[simp] theorem State.countReg_dbg (s : State) (o : Nat) (m : Word) : (s.countReg o m).dbg = s.dbg := rfl
@[simp] theorem State.countReg_saf (s : State) (o : Nat) (m : Word) : (s.countReg o m).saf = s.saf := rfl

/-! State.offer. -/

@[simp] theorem State.offer_pending (s : State) (e : Entry) : (s.offer e).pending = s.pending := rfl
@[simp] theorem State.offer_part (s : State) (e : Entry) : (s.offer e).part = s.part := rfl
@[simp] theorem State.offer_freeCtr (s : State) (e : Entry) : (s.offer e).freeCtr = s.freeCtr := rfl
@[simp] theorem State.offer_resp (s : State) (e : Entry) : (s.offer e).resp = s.resp := rfl
@[simp] theorem State.offer_regs (s : State) (e : Entry) : (s.offer e).regs = s.regs := rfl
@[simp] theorem State.offer_latches (s : State) (e : Entry) : (s.offer e).latches = s.latches := rfl
@[simp] theorem State.offer_lows (s : State) (e : Entry) : (s.offer e).lows = s.lows := rfl
@[simp] theorem State.offer_said (s : State) (e : Entry) : (s.offer e).said = s.said := rfl
@[simp] theorem State.offer_time (s : State) (e : Entry) : (s.offer e).time = s.time := rfl
@[simp] theorem State.offer_mode (s : State) (e : Entry) : (s.offer e).mode = s.mode := rfl
@[simp] theorem State.offer_pwr (s : State) (e : Entry) : (s.offer e).pwr = s.pwr := rfl
@[simp] theorem State.offer_log (s : State) (e : Entry) : (s.offer e).log =
    { s.log with offered := s.log.offered ++ [e], ports := s.log.ports ++ [(s.winCycle, e.port, s.arbRank e)] } := rfl
@[simp] theorem State.offer_cfg (s : State) (e : Entry) : (s.offer e).cfg = s.cfg := rfl
@[simp] theorem State.offer_key (s : State) (e : Entry) : (s.offer e).key = s.key := rfl
@[simp] theorem State.offer_afe (s : State) (e : Entry) : (s.offer e).afe = s.afe := rfl
@[simp] theorem State.offer_chain (s : State) (e : Entry) : (s.offer e).chain = s.chain := rfl
@[simp] theorem State.offer_fab (s : State) (e : Entry) : (s.offer e).fab = s.fab := rfl
@[simp] theorem State.offer_scan (s : State) (e : Entry) : (s.offer e).scan = s.scan := rfl
@[simp] theorem State.offer_recd (s : State) (e : Entry) : (s.offer e).recd = s.recd := rfl
@[simp] theorem State.offer_mem (s : State) (e : Entry) : (s.offer e).mem = s.mem := rfl
@[simp] theorem State.offer_core (s : State) (e : Entry) : (s.offer e).core = s.core := rfl
@[simp] theorem State.offer_sch (s : State) (e : Entry) : (s.offer e).sch = s.sch := rfl
@[simp] theorem State.offer_zve (s : State) (e : Entry) : (s.offer e).zve = s.zve := rfl
@[simp] theorem State.offer_uid (s : State) (e : Entry) : (s.offer e).uid = s.uid := rfl
@[simp] theorem State.offer_wnt (s : State) (e : Entry) : (s.offer e).wnt = s.wnt := rfl
@[simp] theorem State.offer_use (s : State) (e : Entry) : (s.offer e).use = s.use := rfl
@[simp] theorem State.offer_umu (s : State) (e : Entry) : (s.offer e).umu = s.umu := rfl
@[simp] theorem State.offer_esu (s : State) (e : Entry) : (s.offer e).esu = s.esu := rfl
@[simp] theorem State.offer_ifc (s : State) (e : Entry) : (s.offer e).ifc = s.ifc := rfl
@[simp] theorem State.offer_dbg (s : State) (e : Entry) : (s.offer e).dbg = s.dbg := rfl
@[simp] theorem State.offer_saf (s : State) (e : Entry) : (s.offer e).saf = s.saf := rfl

/-! State.say. -/

@[simp] theorem State.say_pending (s : State) (src : Src) (code : Half) (p0 p1 p2 p3 : Word) :
    (s.say src code p0 p1 p2 p3).pending = s.pending := rfl
@[simp] theorem State.say_part (s : State) (src : Src) (code : Half) (p0 p1 p2 p3 : Word) :
    (s.say src code p0 p1 p2 p3).part = s.part := rfl
@[simp] theorem State.say_freeCtr (s : State) (src : Src) (code : Half) (p0 p1 p2 p3 : Word) :
    (s.say src code p0 p1 p2 p3).freeCtr = s.freeCtr := rfl
@[simp] theorem State.say_resp (s : State) (src : Src) (code : Half) (p0 p1 p2 p3 : Word) :
    (s.say src code p0 p1 p2 p3).resp = s.resp := rfl
@[simp] theorem State.say_regs (s : State) (src : Src) (code : Half) (p0 p1 p2 p3 : Word) :
    (s.say src code p0 p1 p2 p3).regs = s.regs := rfl
@[simp] theorem State.say_latches (s : State) (src : Src) (code : Half) (p0 p1 p2 p3 : Word) :
    (s.say src code p0 p1 p2 p3).latches = s.latches := rfl
@[simp] theorem State.say_lows (s : State) (src : Src) (code : Half) (p0 p1 p2 p3 : Word) :
    (s.say src code p0 p1 p2 p3).lows = s.lows := rfl
@[simp] theorem State.say_said (s : State) (src : Src) (code : Half) (p0 p1 p2 p3 : Word) :
    (s.say src code p0 p1 p2 p3).said = s.said := rfl
@[simp] theorem State.say_time (s : State) (src : Src) (code : Half) (p0 p1 p2 p3 : Word) :
    (s.say src code p0 p1 p2 p3).time = s.time := rfl
@[simp] theorem State.say_mode (s : State) (src : Src) (code : Half) (p0 p1 p2 p3 : Word) :
    (s.say src code p0 p1 p2 p3).mode = s.mode := rfl
@[simp] theorem State.say_pwr (s : State) (src : Src) (code : Half) (p0 p1 p2 p3 : Word) : (s.say src code p0 p1 p2 p3).pwr = s.pwr := rfl
@[simp] theorem State.say_log (s : State) (src : Src) (code : Half) (p0 p1 p2 p3 : Word) :
    (s.say src code p0 p1 p2 p3).log = { s.log with
      offered := s.log.offered ++ [s.entry src code p0 p1 p2 p3]
      ports := s.log.ports ++ [(s.winCycle, (s.entry src code p0 p1 p2 p3).port, s.arbRank (s.entry src code p0 p1 p2 p3))] } := rfl
@[simp] theorem State.say_cfg (s : State) (src : Src) (code : Half) (p0 p1 p2 p3 : Word) : (s.say src code p0 p1 p2 p3).cfg = s.cfg := rfl
@[simp] theorem State.say_key (s : State) (src : Src) (code : Half) (p0 p1 p2 p3 : Word) : (s.say src code p0 p1 p2 p3).key = s.key := rfl
@[simp] theorem State.say_afe (s : State) (src : Src) (code : Half) (p0 p1 p2 p3 : Word) : (s.say src code p0 p1 p2 p3).afe = s.afe := rfl
@[simp] theorem State.say_chain (s : State) (src : Src) (code : Half) (p0 p1 p2 p3 : Word) :
    (s.say src code p0 p1 p2 p3).chain = s.chain := rfl
@[simp] theorem State.say_fab (s : State) (src : Src) (code : Half) (p0 p1 p2 p3 : Word) : (s.say src code p0 p1 p2 p3).fab = s.fab := rfl
@[simp] theorem State.say_scan (s : State) (src : Src) (code : Half) (p0 p1 p2 p3 : Word) :
    (s.say src code p0 p1 p2 p3).scan = s.scan := rfl
@[simp] theorem State.say_recd (s : State) (src : Src) (code : Half) (p0 p1 p2 p3 : Word) :
    (s.say src code p0 p1 p2 p3).recd = s.recd := rfl
@[simp] theorem State.say_mem (s : State) (src : Src) (code : Half) (p0 p1 p2 p3 : Word) : (s.say src code p0 p1 p2 p3).mem = s.mem := rfl
@[simp] theorem State.say_core (s : State) (src : Src) (code : Half) (p0 p1 p2 p3 : Word) :
    (s.say src code p0 p1 p2 p3).core = s.core := rfl
@[simp] theorem State.say_sch (s : State) (src : Src) (code : Half) (p0 p1 p2 p3 : Word) : (s.say src code p0 p1 p2 p3).sch = s.sch := rfl
@[simp] theorem State.say_zve (s : State) (src : Src) (code : Half) (p0 p1 p2 p3 : Word) : (s.say src code p0 p1 p2 p3).zve = s.zve := rfl
@[simp] theorem State.say_uid (s : State) (src : Src) (code : Half) (p0 p1 p2 p3 : Word) : (s.say src code p0 p1 p2 p3).uid = s.uid := rfl
@[simp] theorem State.say_wnt (s : State) (src : Src) (code : Half) (p0 p1 p2 p3 : Word) : (s.say src code p0 p1 p2 p3).wnt = s.wnt := rfl
@[simp] theorem State.say_use (s : State) (src : Src) (code : Half) (p0 p1 p2 p3 : Word) : (s.say src code p0 p1 p2 p3).use = s.use := rfl
@[simp] theorem State.say_umu (s : State) (src : Src) (code : Half) (p0 p1 p2 p3 : Word) : (s.say src code p0 p1 p2 p3).umu = s.umu := rfl
@[simp] theorem State.say_esu (s : State) (src : Src) (code : Half) (p0 p1 p2 p3 : Word) : (s.say src code p0 p1 p2 p3).esu = s.esu := rfl
@[simp] theorem State.say_ifc (s : State) (src : Src) (code : Half) (p0 p1 p2 p3 : Word) : (s.say src code p0 p1 p2 p3).ifc = s.ifc := rfl
@[simp] theorem State.say_dbg (s : State) (src : Src) (code : Half) (p0 p1 p2 p3 : Word) : (s.say src code p0 p1 p2 p3).dbg = s.dbg := rfl
@[simp] theorem State.say_saf (s : State) (src : Src) (code : Half) (p0 p1 p2 p3 : Word) : (s.say src code p0 p1 p2 p3).saf = s.saf := rfl

/-! State.sayWnt. -/

@[simp] theorem State.sayWnt_pending (s : State) (code : Half) (p0 p1 p2 p3 : Word) : (s.sayWnt code p0 p1 p2 p3).pending = s.pending := rfl
@[simp] theorem State.sayWnt_part (s : State) (code : Half) (p0 p1 p2 p3 : Word) : (s.sayWnt code p0 p1 p2 p3).part = s.part := rfl
@[simp] theorem State.sayWnt_freeCtr (s : State) (code : Half) (p0 p1 p2 p3 : Word) : (s.sayWnt code p0 p1 p2 p3).freeCtr = s.freeCtr := rfl
@[simp] theorem State.sayWnt_resp (s : State) (code : Half) (p0 p1 p2 p3 : Word) : (s.sayWnt code p0 p1 p2 p3).resp = s.resp := rfl
@[simp] theorem State.sayWnt_regs (s : State) (code : Half) (p0 p1 p2 p3 : Word) : (s.sayWnt code p0 p1 p2 p3).regs = s.regs := rfl
@[simp] theorem State.sayWnt_latches (s : State) (code : Half) (p0 p1 p2 p3 : Word) : (s.sayWnt code p0 p1 p2 p3).latches = s.latches := rfl
@[simp] theorem State.sayWnt_lows (s : State) (code : Half) (p0 p1 p2 p3 : Word) : (s.sayWnt code p0 p1 p2 p3).lows = s.lows := rfl
@[simp] theorem State.sayWnt_said (s : State) (code : Half) (p0 p1 p2 p3 : Word) : (s.sayWnt code p0 p1 p2 p3).said = s.said := rfl
@[simp] theorem State.sayWnt_time (s : State) (code : Half) (p0 p1 p2 p3 : Word) : (s.sayWnt code p0 p1 p2 p3).time = s.time := rfl
@[simp] theorem State.sayWnt_mode (s : State) (code : Half) (p0 p1 p2 p3 : Word) : (s.sayWnt code p0 p1 p2 p3).mode = s.mode := rfl
@[simp] theorem State.sayWnt_pwr (s : State) (code : Half) (p0 p1 p2 p3 : Word) : (s.sayWnt code p0 p1 p2 p3).pwr = s.pwr := rfl
@[simp] theorem State.sayWnt_cfg (s : State) (code : Half) (p0 p1 p2 p3 : Word) : (s.sayWnt code p0 p1 p2 p3).cfg = s.cfg := rfl
@[simp] theorem State.sayWnt_key (s : State) (code : Half) (p0 p1 p2 p3 : Word) : (s.sayWnt code p0 p1 p2 p3).key = s.key := rfl
@[simp] theorem State.sayWnt_afe (s : State) (code : Half) (p0 p1 p2 p3 : Word) : (s.sayWnt code p0 p1 p2 p3).afe = s.afe := rfl
@[simp] theorem State.sayWnt_chain (s : State) (code : Half) (p0 p1 p2 p3 : Word) : (s.sayWnt code p0 p1 p2 p3).chain = s.chain := rfl
@[simp] theorem State.sayWnt_fab (s : State) (code : Half) (p0 p1 p2 p3 : Word) : (s.sayWnt code p0 p1 p2 p3).fab = s.fab := rfl
@[simp] theorem State.sayWnt_scan (s : State) (code : Half) (p0 p1 p2 p3 : Word) : (s.sayWnt code p0 p1 p2 p3).scan = s.scan := rfl
@[simp] theorem State.sayWnt_recd (s : State) (code : Half) (p0 p1 p2 p3 : Word) : (s.sayWnt code p0 p1 p2 p3).recd = s.recd := rfl
@[simp] theorem State.sayWnt_mem (s : State) (code : Half) (p0 p1 p2 p3 : Word) : (s.sayWnt code p0 p1 p2 p3).mem = s.mem := rfl
@[simp] theorem State.sayWnt_core (s : State) (code : Half) (p0 p1 p2 p3 : Word) : (s.sayWnt code p0 p1 p2 p3).core = s.core := rfl
@[simp] theorem State.sayWnt_sch (s : State) (code : Half) (p0 p1 p2 p3 : Word) : (s.sayWnt code p0 p1 p2 p3).sch = s.sch := rfl
@[simp] theorem State.sayWnt_zve (s : State) (code : Half) (p0 p1 p2 p3 : Word) : (s.sayWnt code p0 p1 p2 p3).zve = s.zve := rfl
@[simp] theorem State.sayWnt_uid (s : State) (code : Half) (p0 p1 p2 p3 : Word) : (s.sayWnt code p0 p1 p2 p3).uid = s.uid := rfl
@[simp] theorem State.sayWnt_wnt (s : State) (code : Half) (p0 p1 p2 p3 : Word) : (s.sayWnt code p0 p1 p2 p3).wnt = s.wnt := rfl
@[simp] theorem State.sayWnt_use (s : State) (code : Half) (p0 p1 p2 p3 : Word) : (s.sayWnt code p0 p1 p2 p3).use = s.use := rfl
@[simp] theorem State.sayWnt_umu (s : State) (code : Half) (p0 p1 p2 p3 : Word) : (s.sayWnt code p0 p1 p2 p3).umu = s.umu := rfl
@[simp] theorem State.sayWnt_esu (s : State) (code : Half) (p0 p1 p2 p3 : Word) : (s.sayWnt code p0 p1 p2 p3).esu = s.esu := rfl
@[simp] theorem State.sayWnt_ifc (s : State) (code : Half) (p0 p1 p2 p3 : Word) : (s.sayWnt code p0 p1 p2 p3).ifc = s.ifc := rfl
@[simp] theorem State.sayWnt_dbg (s : State) (code : Half) (p0 p1 p2 p3 : Word) : (s.sayWnt code p0 p1 p2 p3).dbg = s.dbg := rfl
@[simp] theorem State.sayWnt_saf (s : State) (code : Half) (p0 p1 p2 p3 : Word) : (s.sayWnt code p0 p1 p2 p3).saf = s.saf := rfl

/-! State.latchSafe. -/

@[simp] theorem State.latchSafe_pending (s : State) (c : Nat) (p : Word) : (s.latchSafe c p).pending = s.pending := rfl
@[simp] theorem State.latchSafe_part (s : State) (c : Nat) (p : Word) : (s.latchSafe c p).part = s.part := rfl
@[simp] theorem State.latchSafe_freeCtr (s : State) (c : Nat) (p : Word) : (s.latchSafe c p).freeCtr = s.freeCtr := rfl
@[simp] theorem State.latchSafe_resp (s : State) (c : Nat) (p : Word) : (s.latchSafe c p).resp = s.resp := rfl
@[simp] theorem State.latchSafe_regs (s : State) (c : Nat) (p : Word) : (s.latchSafe c p).regs = s.regs := rfl
@[simp] theorem State.latchSafe_latches (s : State) (c : Nat) (p : Word) : (s.latchSafe c p).latches = s.latches := rfl
@[simp] theorem State.latchSafe_lows (s : State) (c : Nat) (p : Word) : (s.latchSafe c p).lows = s.lows := rfl
@[simp] theorem State.latchSafe_said (s : State) (c : Nat) (p : Word) : (s.latchSafe c p).said = s.said := rfl
@[simp] theorem State.latchSafe_time (s : State) (c : Nat) (p : Word) : (s.latchSafe c p).time = s.time := rfl
@[simp] theorem State.latchSafe_mode (s : State) (c : Nat) (p : Word) :
    (s.latchSafe c p).mode = { s.mode with safePend := s.mode.safePend ++ [(c, p, s.time.dt)] } := rfl
@[simp] theorem State.latchSafe_pwr (s : State) (c : Nat) (p : Word) : (s.latchSafe c p).pwr = s.pwr := rfl
@[simp] theorem State.latchSafe_log (s : State) (c : Nat) (p : Word) : (s.latchSafe c p).log = s.log := rfl
@[simp] theorem State.latchSafe_cfg (s : State) (c : Nat) (p : Word) : (s.latchSafe c p).cfg = s.cfg := rfl
@[simp] theorem State.latchSafe_key (s : State) (c : Nat) (p : Word) : (s.latchSafe c p).key = s.key := rfl
@[simp] theorem State.latchSafe_afe (s : State) (c : Nat) (p : Word) : (s.latchSafe c p).afe = s.afe := rfl
@[simp] theorem State.latchSafe_chain (s : State) (c : Nat) (p : Word) : (s.latchSafe c p).chain = s.chain := rfl
@[simp] theorem State.latchSafe_fab (s : State) (c : Nat) (p : Word) : (s.latchSafe c p).fab = s.fab := rfl
@[simp] theorem State.latchSafe_scan (s : State) (c : Nat) (p : Word) : (s.latchSafe c p).scan = s.scan := rfl
@[simp] theorem State.latchSafe_recd (s : State) (c : Nat) (p : Word) : (s.latchSafe c p).recd = s.recd := rfl
@[simp] theorem State.latchSafe_mem (s : State) (c : Nat) (p : Word) : (s.latchSafe c p).mem = s.mem := rfl
@[simp] theorem State.latchSafe_core (s : State) (c : Nat) (p : Word) : (s.latchSafe c p).core = s.core := rfl
@[simp] theorem State.latchSafe_sch (s : State) (c : Nat) (p : Word) : (s.latchSafe c p).sch = s.sch := rfl
@[simp] theorem State.latchSafe_zve (s : State) (c : Nat) (p : Word) : (s.latchSafe c p).zve = s.zve := rfl
@[simp] theorem State.latchSafe_uid (s : State) (c : Nat) (p : Word) : (s.latchSafe c p).uid = s.uid := rfl
@[simp] theorem State.latchSafe_wnt (s : State) (c : Nat) (p : Word) : (s.latchSafe c p).wnt = s.wnt := rfl
@[simp] theorem State.latchSafe_use (s : State) (c : Nat) (p : Word) : (s.latchSafe c p).use = s.use := rfl
@[simp] theorem State.latchSafe_umu (s : State) (c : Nat) (p : Word) : (s.latchSafe c p).umu = s.umu := rfl
@[simp] theorem State.latchSafe_esu (s : State) (c : Nat) (p : Word) : (s.latchSafe c p).esu = s.esu := rfl
@[simp] theorem State.latchSafe_ifc (s : State) (c : Nat) (p : Word) : (s.latchSafe c p).ifc = s.ifc := rfl
@[simp] theorem State.latchSafe_dbg (s : State) (c : Nat) (p : Word) : (s.latchSafe c p).dbg = s.dbg := rfl
@[simp] theorem State.latchSafe_saf (s : State) (c : Nat) (p : Word) : (s.latchSafe c p).saf = s.saf := rfl

/-! State.latchOpen. -/

@[simp] theorem State.latchOpen_pending (s : State) (c : Nat) : (s.latchOpen c).pending = s.pending := rfl
@[simp] theorem State.latchOpen_part (s : State) (c : Nat) : (s.latchOpen c).part = s.part := rfl
@[simp] theorem State.latchOpen_freeCtr (s : State) (c : Nat) : (s.latchOpen c).freeCtr = s.freeCtr + 1 := rfl
@[simp] theorem State.latchOpen_resp (s : State) (c : Nat) : (s.latchOpen c).resp = s.resp := rfl
@[simp] theorem State.latchOpen_regs (s : State) (c : Nat) : (s.latchOpen c).regs = s.regs := rfl
@[simp] theorem State.latchOpen_latches (s : State) (c : Nat) : (s.latchOpen c).latches = s.latches := rfl
@[simp] theorem State.latchOpen_lows (s : State) (c : Nat) : (s.latchOpen c).lows = s.lows := rfl
@[simp] theorem State.latchOpen_said (s : State) (c : Nat) : (s.latchOpen c).said = s.said := rfl
@[simp] theorem State.latchOpen_time (s : State) (c : Nat) : (s.latchOpen c).time = s.time := rfl
@[simp] theorem State.latchOpen_mode (s : State) (c : Nat) :
    (s.latchOpen c).mode = { s.mode with safePend := s.mode.safePend ++ [(c, Config.freeWord s.freeCtr, s.time.dt)] } := rfl
@[simp] theorem State.latchOpen_pwr (s : State) (c : Nat) : (s.latchOpen c).pwr = s.pwr := rfl
@[simp] theorem State.latchOpen_log (s : State) (c : Nat) : (s.latchOpen c).log = s.log := rfl
@[simp] theorem State.latchOpen_cfg (s : State) (c : Nat) : (s.latchOpen c).cfg = s.cfg := rfl
@[simp] theorem State.latchOpen_key (s : State) (c : Nat) : (s.latchOpen c).key = s.key := rfl
@[simp] theorem State.latchOpen_afe (s : State) (c : Nat) : (s.latchOpen c).afe = s.afe := rfl
@[simp] theorem State.latchOpen_chain (s : State) (c : Nat) : (s.latchOpen c).chain = s.chain := rfl
@[simp] theorem State.latchOpen_fab (s : State) (c : Nat) : (s.latchOpen c).fab = s.fab := rfl
@[simp] theorem State.latchOpen_scan (s : State) (c : Nat) : (s.latchOpen c).scan = s.scan := rfl
@[simp] theorem State.latchOpen_recd (s : State) (c : Nat) : (s.latchOpen c).recd = s.recd := rfl
@[simp] theorem State.latchOpen_mem (s : State) (c : Nat) : (s.latchOpen c).mem = s.mem := rfl
@[simp] theorem State.latchOpen_core (s : State) (c : Nat) : (s.latchOpen c).core = s.core := rfl
@[simp] theorem State.latchOpen_sch (s : State) (c : Nat) : (s.latchOpen c).sch = s.sch := rfl
@[simp] theorem State.latchOpen_zve (s : State) (c : Nat) : (s.latchOpen c).zve = s.zve := rfl
@[simp] theorem State.latchOpen_uid (s : State) (c : Nat) : (s.latchOpen c).uid = s.uid := rfl
@[simp] theorem State.latchOpen_wnt (s : State) (c : Nat) : (s.latchOpen c).wnt = s.wnt := rfl
@[simp] theorem State.latchOpen_use (s : State) (c : Nat) : (s.latchOpen c).use = s.use := rfl
@[simp] theorem State.latchOpen_umu (s : State) (c : Nat) : (s.latchOpen c).umu = s.umu := rfl
@[simp] theorem State.latchOpen_esu (s : State) (c : Nat) : (s.latchOpen c).esu = s.esu := rfl
@[simp] theorem State.latchOpen_ifc (s : State) (c : Nat) : (s.latchOpen c).ifc = s.ifc := rfl
@[simp] theorem State.latchOpen_dbg (s : State) (c : Nat) : (s.latchOpen c).dbg = s.dbg := rfl
@[simp] theorem State.latchOpen_saf (s : State) (c : Nat) : (s.latchOpen c).saf = s.saf := rfl

/-! State.raiseSaf. -/

@[simp] theorem State.raiseSaf_pending (s : State) (a ch : Nat) : (s.raiseSaf a ch).pending = s.pending := rfl
@[simp] theorem State.raiseSaf_part (s : State) (a ch : Nat) : (s.raiseSaf a ch).part = s.part := rfl
@[simp] theorem State.raiseSaf_freeCtr (s : State) (a ch : Nat) : (s.raiseSaf a ch).freeCtr = s.freeCtr := rfl
@[simp] theorem State.raiseSaf_resp (s : State) (a ch : Nat) : (s.raiseSaf a ch).resp = s.resp := rfl
@[simp] theorem State.raiseSaf_regs (s : State) (a ch : Nat) : (s.raiseSaf a ch).regs = s.regs := rfl
@[simp] theorem State.raiseSaf_latches (s : State) (a ch : Nat) : (s.raiseSaf a ch).latches = s.latches := rfl
@[simp] theorem State.raiseSaf_lows (s : State) (a ch : Nat) : (s.raiseSaf a ch).lows = s.lows := rfl
@[simp] theorem State.raiseSaf_said (s : State) (a ch : Nat) : (s.raiseSaf a ch).said = s.said := rfl
@[simp] theorem State.raiseSaf_time (s : State) (a ch : Nat) : (s.raiseSaf a ch).time = s.time := rfl
@[simp] theorem State.raiseSaf_mode (s : State) (a ch : Nat) : (s.raiseSaf a ch).mode = s.mode := rfl
@[simp] theorem State.raiseSaf_pwr (s : State) (a ch : Nat) : (s.raiseSaf a ch).pwr = s.pwr := rfl
@[simp] theorem State.raiseSaf_log (s : State) (a ch : Nat) : (s.raiseSaf a ch).log = s.log := rfl
@[simp] theorem State.raiseSaf_cfg (s : State) (a ch : Nat) : (s.raiseSaf a ch).cfg = s.cfg := rfl
@[simp] theorem State.raiseSaf_key (s : State) (a ch : Nat) : (s.raiseSaf a ch).key = s.key := rfl
@[simp] theorem State.raiseSaf_afe (s : State) (a ch : Nat) : (s.raiseSaf a ch).afe = s.afe := rfl
@[simp] theorem State.raiseSaf_chain (s : State) (a ch : Nat) : (s.raiseSaf a ch).chain = s.chain := rfl
@[simp] theorem State.raiseSaf_fab (s : State) (a ch : Nat) : (s.raiseSaf a ch).fab = s.fab := rfl
@[simp] theorem State.raiseSaf_scan (s : State) (a ch : Nat) : (s.raiseSaf a ch).scan = s.scan := rfl
@[simp] theorem State.raiseSaf_recd (s : State) (a ch : Nat) : (s.raiseSaf a ch).recd = s.recd := rfl
@[simp] theorem State.raiseSaf_mem (s : State) (a ch : Nat) : (s.raiseSaf a ch).mem = s.mem := rfl
@[simp] theorem State.raiseSaf_core (s : State) (a ch : Nat) : (s.raiseSaf a ch).core = s.core := rfl
@[simp] theorem State.raiseSaf_sch (s : State) (a ch : Nat) : (s.raiseSaf a ch).sch = s.sch := rfl
@[simp] theorem State.raiseSaf_zve (s : State) (a ch : Nat) : (s.raiseSaf a ch).zve = s.zve := rfl
@[simp] theorem State.raiseSaf_uid (s : State) (a ch : Nat) : (s.raiseSaf a ch).uid = s.uid := rfl
@[simp] theorem State.raiseSaf_wnt (s : State) (a ch : Nat) : (s.raiseSaf a ch).wnt = s.wnt := rfl
@[simp] theorem State.raiseSaf_use (s : State) (a ch : Nat) : (s.raiseSaf a ch).use = s.use := rfl
@[simp] theorem State.raiseSaf_umu (s : State) (a ch : Nat) : (s.raiseSaf a ch).umu = s.umu := rfl
@[simp] theorem State.raiseSaf_esu (s : State) (a ch : Nat) : (s.raiseSaf a ch).esu = s.esu := rfl
@[simp] theorem State.raiseSaf_ifc (s : State) (a ch : Nat) : (s.raiseSaf a ch).ifc = s.ifc := rfl
@[simp] theorem State.raiseSaf_dbg (s : State) (a ch : Nat) : (s.raiseSaf a ch).dbg = s.dbg := rfl
@[simp] theorem State.raiseSaf_saf (s : State) (a ch : Nat) :
    (s.raiseSaf a ch).saf = { s.saf with raised := s.saf.raised ++ [(a, ch)] } := rfl

/-! State.toMode. -/

@[simp] theorem State.toMode_pending (s : State) (m : Mode) : (s.toMode m).pending = s.pending := rfl
@[simp] theorem State.toMode_part (s : State) (m : Mode) : (s.toMode m).part = s.part := rfl
@[simp] theorem State.toMode_freeCtr (s : State) (m : Mode) : (s.toMode m).freeCtr = s.freeCtr := rfl
@[simp] theorem State.toMode_resp (s : State) (m : Mode) : (s.toMode m).resp = s.resp := rfl
@[simp] theorem State.toMode_regs (s : State) (m : Mode) : (s.toMode m).regs = s.regs := rfl
@[simp] theorem State.toMode_latches (s : State) (m : Mode) : (s.toMode m).latches = s.latches := rfl
@[simp] theorem State.toMode_lows (s : State) (m : Mode) : (s.toMode m).lows = s.lows := rfl
@[simp] theorem State.toMode_said (s : State) (m : Mode) : (s.toMode m).said = s.said := rfl
@[simp] theorem State.toMode_time (s : State) (m : Mode) : (s.toMode m).time = s.time := rfl
@[simp] theorem State.toMode_mode (s : State) (m : Mode) : (s.toMode m).mode = { s.mode with prev := s.mode.mode, mode := m } := rfl
@[simp] theorem State.toMode_pwr (s : State) (m : Mode) : (s.toMode m).pwr = s.pwr := rfl
@[simp] theorem State.toMode_log (s : State) (m : Mode) : (s.toMode m).log = s.log := rfl
@[simp] theorem State.toMode_cfg (s : State) (m : Mode) : (s.toMode m).cfg = s.cfg := rfl
@[simp] theorem State.toMode_key (s : State) (m : Mode) : (s.toMode m).key = s.key := rfl
@[simp] theorem State.toMode_afe (s : State) (m : Mode) : (s.toMode m).afe = s.afe := rfl
@[simp] theorem State.toMode_chain (s : State) (m : Mode) : (s.toMode m).chain = s.chain := rfl
@[simp] theorem State.toMode_fab (s : State) (m : Mode) : (s.toMode m).fab = s.fab := rfl
@[simp] theorem State.toMode_scan (s : State) (m : Mode) : (s.toMode m).scan = s.scan := rfl
@[simp] theorem State.toMode_recd (s : State) (m : Mode) : (s.toMode m).recd = s.recd := rfl
@[simp] theorem State.toMode_mem (s : State) (m : Mode) : (s.toMode m).mem = s.mem := rfl
@[simp] theorem State.toMode_core (s : State) (m : Mode) : (s.toMode m).core = s.core := rfl
@[simp] theorem State.toMode_sch (s : State) (m : Mode) : (s.toMode m).sch = s.sch := rfl
@[simp] theorem State.toMode_zve (s : State) (m : Mode) : (s.toMode m).zve = s.zve := rfl
@[simp] theorem State.toMode_uid (s : State) (m : Mode) : (s.toMode m).uid = s.uid := rfl
@[simp] theorem State.toMode_wnt (s : State) (m : Mode) : (s.toMode m).wnt = s.wnt := rfl
@[simp] theorem State.toMode_use (s : State) (m : Mode) : (s.toMode m).use = s.use := rfl
@[simp] theorem State.toMode_umu (s : State) (m : Mode) : (s.toMode m).umu = s.umu := rfl
@[simp] theorem State.toMode_esu (s : State) (m : Mode) : (s.toMode m).esu = s.esu := rfl
@[simp] theorem State.toMode_ifc (s : State) (m : Mode) : (s.toMode m).ifc = s.ifc := rfl
@[simp] theorem State.toMode_dbg (s : State) (m : Mode) : (s.toMode m).dbg = s.dbg := rfl
@[simp] theorem State.toMode_saf (s : State) (m : Mode) : (s.toMode m).saf = s.saf := rfl

/-! State.answer. -/

@[simp] theorem State.answer_pending (s : State) (st : BusStatus) (d : Word) : (s.answer st d).pending = s.pending := rfl
@[simp] theorem State.answer_part (s : State) (st : BusStatus) (d : Word) : (s.answer st d).part = s.part := rfl
@[simp] theorem State.answer_freeCtr (s : State) (st : BusStatus) (d : Word) : (s.answer st d).freeCtr = s.freeCtr := rfl
@[simp] theorem State.answer_resp (s : State) (st : BusStatus) (d : Word) : (s.answer st d).resp = ⟨st, d⟩ := rfl
@[simp] theorem State.answer_regs (s : State) (st : BusStatus) (d : Word) : (s.answer st d).regs = s.regs := rfl
@[simp] theorem State.answer_latches (s : State) (st : BusStatus) (d : Word) : (s.answer st d).latches = s.latches := rfl
@[simp] theorem State.answer_lows (s : State) (st : BusStatus) (d : Word) : (s.answer st d).lows = s.lows := rfl
@[simp] theorem State.answer_said (s : State) (st : BusStatus) (d : Word) : (s.answer st d).said = s.said := rfl
@[simp] theorem State.answer_time (s : State) (st : BusStatus) (d : Word) : (s.answer st d).time = s.time := rfl
@[simp] theorem State.answer_mode (s : State) (st : BusStatus) (d : Word) : (s.answer st d).mode = s.mode := rfl
@[simp] theorem State.answer_pwr (s : State) (st : BusStatus) (d : Word) : (s.answer st d).pwr = s.pwr := rfl
@[simp] theorem State.answer_log (s : State) (st : BusStatus) (d : Word) : (s.answer st d).log = s.log := rfl
@[simp] theorem State.answer_cfg (s : State) (st : BusStatus) (d : Word) : (s.answer st d).cfg = s.cfg := rfl
@[simp] theorem State.answer_key (s : State) (st : BusStatus) (d : Word) : (s.answer st d).key = s.key := rfl
@[simp] theorem State.answer_afe (s : State) (st : BusStatus) (d : Word) : (s.answer st d).afe = s.afe := rfl
@[simp] theorem State.answer_chain (s : State) (st : BusStatus) (d : Word) : (s.answer st d).chain = s.chain := rfl
@[simp] theorem State.answer_fab (s : State) (st : BusStatus) (d : Word) : (s.answer st d).fab = s.fab := rfl
@[simp] theorem State.answer_scan (s : State) (st : BusStatus) (d : Word) : (s.answer st d).scan = s.scan := rfl
@[simp] theorem State.answer_recd (s : State) (st : BusStatus) (d : Word) : (s.answer st d).recd = s.recd := rfl
@[simp] theorem State.answer_mem (s : State) (st : BusStatus) (d : Word) : (s.answer st d).mem = s.mem := rfl
@[simp] theorem State.answer_core (s : State) (st : BusStatus) (d : Word) : (s.answer st d).core = s.core := rfl
@[simp] theorem State.answer_sch (s : State) (st : BusStatus) (d : Word) : (s.answer st d).sch = s.sch := rfl
@[simp] theorem State.answer_zve (s : State) (st : BusStatus) (d : Word) : (s.answer st d).zve = s.zve := rfl
@[simp] theorem State.answer_uid (s : State) (st : BusStatus) (d : Word) : (s.answer st d).uid = s.uid := rfl
@[simp] theorem State.answer_wnt (s : State) (st : BusStatus) (d : Word) : (s.answer st d).wnt = s.wnt := rfl
@[simp] theorem State.answer_use (s : State) (st : BusStatus) (d : Word) : (s.answer st d).use = s.use := rfl
@[simp] theorem State.answer_umu (s : State) (st : BusStatus) (d : Word) : (s.answer st d).umu = s.umu := rfl
@[simp] theorem State.answer_esu (s : State) (st : BusStatus) (d : Word) : (s.answer st d).esu = s.esu := rfl
@[simp] theorem State.answer_ifc (s : State) (st : BusStatus) (d : Word) : (s.answer st d).ifc = s.ifc := rfl
@[simp] theorem State.answer_dbg (s : State) (st : BusStatus) (d : Word) : (s.answer st d).dbg = s.dbg := rfl
@[simp] theorem State.answer_saf (s : State) (st : BusStatus) (d : Word) : (s.answer st d).saf = s.saf := rfl

/-! State.withCore. -/

@[simp] theorem State.withCore_pending (s : State) (f : CoreSt → CoreSt) : (s.withCore f).pending = s.pending := rfl
@[simp] theorem State.withCore_part (s : State) (f : CoreSt → CoreSt) : (s.withCore f).part = s.part := rfl
@[simp] theorem State.withCore_freeCtr (s : State) (f : CoreSt → CoreSt) : (s.withCore f).freeCtr = s.freeCtr := rfl
@[simp] theorem State.withCore_resp (s : State) (f : CoreSt → CoreSt) : (s.withCore f).resp = s.resp := rfl
@[simp] theorem State.withCore_regs (s : State) (f : CoreSt → CoreSt) : (s.withCore f).regs = s.regs := rfl
@[simp] theorem State.withCore_latches (s : State) (f : CoreSt → CoreSt) : (s.withCore f).latches = s.latches := rfl
@[simp] theorem State.withCore_lows (s : State) (f : CoreSt → CoreSt) : (s.withCore f).lows = s.lows := rfl
@[simp] theorem State.withCore_said (s : State) (f : CoreSt → CoreSt) : (s.withCore f).said = s.said := rfl
@[simp] theorem State.withCore_time (s : State) (f : CoreSt → CoreSt) : (s.withCore f).time = s.time := rfl
@[simp] theorem State.withCore_mode (s : State) (f : CoreSt → CoreSt) : (s.withCore f).mode = s.mode := rfl
@[simp] theorem State.withCore_pwr (s : State) (f : CoreSt → CoreSt) : (s.withCore f).pwr = s.pwr := rfl
@[simp] theorem State.withCore_log (s : State) (f : CoreSt → CoreSt) : (s.withCore f).log = s.log := rfl
@[simp] theorem State.withCore_cfg (s : State) (f : CoreSt → CoreSt) : (s.withCore f).cfg = s.cfg := rfl
@[simp] theorem State.withCore_key (s : State) (f : CoreSt → CoreSt) : (s.withCore f).key = s.key := rfl
@[simp] theorem State.withCore_afe (s : State) (f : CoreSt → CoreSt) : (s.withCore f).afe = s.afe := rfl
@[simp] theorem State.withCore_chain (s : State) (f : CoreSt → CoreSt) : (s.withCore f).chain = s.chain := rfl
@[simp] theorem State.withCore_fab (s : State) (f : CoreSt → CoreSt) : (s.withCore f).fab = s.fab := rfl
@[simp] theorem State.withCore_scan (s : State) (f : CoreSt → CoreSt) : (s.withCore f).scan = s.scan := rfl
@[simp] theorem State.withCore_recd (s : State) (f : CoreSt → CoreSt) : (s.withCore f).recd = s.recd := rfl
@[simp] theorem State.withCore_mem (s : State) (f : CoreSt → CoreSt) : (s.withCore f).mem = s.mem := rfl
@[simp] theorem State.withCore_core (s : State) (f : CoreSt → CoreSt) : (s.withCore f).core = f s.core := rfl
@[simp] theorem State.withCore_sch (s : State) (f : CoreSt → CoreSt) : (s.withCore f).sch = s.sch := rfl
@[simp] theorem State.withCore_zve (s : State) (f : CoreSt → CoreSt) : (s.withCore f).zve = s.zve := rfl
@[simp] theorem State.withCore_uid (s : State) (f : CoreSt → CoreSt) : (s.withCore f).uid = s.uid := rfl
@[simp] theorem State.withCore_wnt (s : State) (f : CoreSt → CoreSt) : (s.withCore f).wnt = s.wnt := rfl
@[simp] theorem State.withCore_use (s : State) (f : CoreSt → CoreSt) : (s.withCore f).use = s.use := rfl
@[simp] theorem State.withCore_umu (s : State) (f : CoreSt → CoreSt) : (s.withCore f).umu = s.umu := rfl
@[simp] theorem State.withCore_esu (s : State) (f : CoreSt → CoreSt) : (s.withCore f).esu = s.esu := rfl
@[simp] theorem State.withCore_ifc (s : State) (f : CoreSt → CoreSt) : (s.withCore f).ifc = s.ifc := rfl
@[simp] theorem State.withCore_dbg (s : State) (f : CoreSt → CoreSt) : (s.withCore f).dbg = s.dbg := rfl
@[simp] theorem State.withCore_saf (s : State) (f : CoreSt → CoreSt) : (s.withCore f).saf = s.saf := rfl

/-! State.putIob. -/

@[simp] theorem State.putIob_pending (s : State) (a : Nat) (v : Byte) : (s.putIob a v).pending = s.pending := rfl
@[simp] theorem State.putIob_part (s : State) (a : Nat) (v : Byte) : (s.putIob a v).part = s.part := rfl
@[simp] theorem State.putIob_freeCtr (s : State) (a : Nat) (v : Byte) : (s.putIob a v).freeCtr = s.freeCtr := rfl
@[simp] theorem State.putIob_resp (s : State) (a : Nat) (v : Byte) : (s.putIob a v).resp = s.resp := rfl
@[simp] theorem State.putIob_regs (s : State) (a : Nat) (v : Byte) : (s.putIob a v).regs = s.regs := rfl
@[simp] theorem State.putIob_latches (s : State) (a : Nat) (v : Byte) : (s.putIob a v).latches = s.latches := rfl
@[simp] theorem State.putIob_lows (s : State) (a : Nat) (v : Byte) : (s.putIob a v).lows = s.lows := rfl
@[simp] theorem State.putIob_said (s : State) (a : Nat) (v : Byte) : (s.putIob a v).said = s.said := rfl
@[simp] theorem State.putIob_time (s : State) (a : Nat) (v : Byte) : (s.putIob a v).time = s.time := rfl
@[simp] theorem State.putIob_mode (s : State) (a : Nat) (v : Byte) : (s.putIob a v).mode = s.mode := rfl
@[simp] theorem State.putIob_pwr (s : State) (a : Nat) (v : Byte) : (s.putIob a v).pwr = s.pwr := rfl
@[simp] theorem State.putIob_log (s : State) (a : Nat) (v : Byte) : (s.putIob a v).log = s.log := rfl
@[simp] theorem State.putIob_cfg (s : State) (a : Nat) (v : Byte) : (s.putIob a v).cfg = s.cfg := rfl
@[simp] theorem State.putIob_key (s : State) (a : Nat) (v : Byte) : (s.putIob a v).key = s.key := rfl
@[simp] theorem State.putIob_afe (s : State) (a : Nat) (v : Byte) : (s.putIob a v).afe = s.afe := rfl
@[simp] theorem State.putIob_chain (s : State) (a : Nat) (v : Byte) : (s.putIob a v).chain = s.chain := rfl
@[simp] theorem State.putIob_fab (s : State) (a : Nat) (v : Byte) : (s.putIob a v).fab = s.fab := rfl
@[simp] theorem State.putIob_scan (s : State) (a : Nat) (v : Byte) : (s.putIob a v).scan = s.scan := rfl
@[simp] theorem State.putIob_recd (s : State) (a : Nat) (v : Byte) : (s.putIob a v).recd = s.recd := rfl
@[simp] theorem State.putIob_mem (s : State) (a : Nat) (v : Byte) : (s.putIob a v).mem = s.mem := rfl
@[simp] theorem State.putIob_core (s : State) (a : Nat) (v : Byte) : (s.putIob a v).core = s.core := rfl
@[simp] theorem State.putIob_sch (s : State) (a : Nat) (v : Byte) : (s.putIob a v).sch = s.sch := rfl
@[simp] theorem State.putIob_zve (s : State) (a : Nat) (v : Byte) : (s.putIob a v).zve = s.zve := rfl
@[simp] theorem State.putIob_uid (s : State) (a : Nat) (v : Byte) : (s.putIob a v).uid = s.uid := rfl
@[simp] theorem State.putIob_wnt (s : State) (a : Nat) (v : Byte) : (s.putIob a v).wnt = { s.wnt with io := mset 0 s.wnt.io a v } := rfl
@[simp] theorem State.putIob_use (s : State) (a : Nat) (v : Byte) : (s.putIob a v).use = s.use := rfl
@[simp] theorem State.putIob_umu (s : State) (a : Nat) (v : Byte) : (s.putIob a v).umu = s.umu := rfl
@[simp] theorem State.putIob_esu (s : State) (a : Nat) (v : Byte) : (s.putIob a v).esu = s.esu := rfl
@[simp] theorem State.putIob_ifc (s : State) (a : Nat) (v : Byte) : (s.putIob a v).ifc = s.ifc := rfl
@[simp] theorem State.putIob_dbg (s : State) (a : Nat) (v : Byte) : (s.putIob a v).dbg = s.dbg := rfl
@[simp] theorem State.putIob_saf (s : State) (a : Nat) (v : Byte) : (s.putIob a v).saf = s.saf := rfl

/-! State.putIos. -/

@[simp] theorem State.putIos_pending (s : State) (a : Nat) (l : List Byte) : (s.putIos a l).pending = s.pending := rfl
@[simp] theorem State.putIos_part (s : State) (a : Nat) (l : List Byte) : (s.putIos a l).part = s.part := rfl
@[simp] theorem State.putIos_freeCtr (s : State) (a : Nat) (l : List Byte) : (s.putIos a l).freeCtr = s.freeCtr := rfl
@[simp] theorem State.putIos_resp (s : State) (a : Nat) (l : List Byte) : (s.putIos a l).resp = s.resp := rfl
@[simp] theorem State.putIos_regs (s : State) (a : Nat) (l : List Byte) : (s.putIos a l).regs = s.regs := rfl
@[simp] theorem State.putIos_latches (s : State) (a : Nat) (l : List Byte) : (s.putIos a l).latches = s.latches := rfl
@[simp] theorem State.putIos_lows (s : State) (a : Nat) (l : List Byte) : (s.putIos a l).lows = s.lows := rfl
@[simp] theorem State.putIos_said (s : State) (a : Nat) (l : List Byte) : (s.putIos a l).said = s.said := rfl
@[simp] theorem State.putIos_time (s : State) (a : Nat) (l : List Byte) : (s.putIos a l).time = s.time := rfl
@[simp] theorem State.putIos_mode (s : State) (a : Nat) (l : List Byte) : (s.putIos a l).mode = s.mode := rfl
@[simp] theorem State.putIos_pwr (s : State) (a : Nat) (l : List Byte) : (s.putIos a l).pwr = s.pwr := rfl
@[simp] theorem State.putIos_log (s : State) (a : Nat) (l : List Byte) : (s.putIos a l).log = s.log := rfl
@[simp] theorem State.putIos_cfg (s : State) (a : Nat) (l : List Byte) : (s.putIos a l).cfg = s.cfg := rfl
@[simp] theorem State.putIos_key (s : State) (a : Nat) (l : List Byte) : (s.putIos a l).key = s.key := rfl
@[simp] theorem State.putIos_afe (s : State) (a : Nat) (l : List Byte) : (s.putIos a l).afe = s.afe := rfl
@[simp] theorem State.putIos_chain (s : State) (a : Nat) (l : List Byte) : (s.putIos a l).chain = s.chain := rfl
@[simp] theorem State.putIos_fab (s : State) (a : Nat) (l : List Byte) : (s.putIos a l).fab = s.fab := rfl
@[simp] theorem State.putIos_scan (s : State) (a : Nat) (l : List Byte) : (s.putIos a l).scan = s.scan := rfl
@[simp] theorem State.putIos_recd (s : State) (a : Nat) (l : List Byte) : (s.putIos a l).recd = s.recd := rfl
@[simp] theorem State.putIos_mem (s : State) (a : Nat) (l : List Byte) : (s.putIos a l).mem = s.mem := rfl
@[simp] theorem State.putIos_core (s : State) (a : Nat) (l : List Byte) : (s.putIos a l).core = s.core := rfl
@[simp] theorem State.putIos_sch (s : State) (a : Nat) (l : List Byte) : (s.putIos a l).sch = s.sch := rfl
@[simp] theorem State.putIos_zve (s : State) (a : Nat) (l : List Byte) : (s.putIos a l).zve = s.zve := rfl
@[simp] theorem State.putIos_uid (s : State) (a : Nat) (l : List Byte) : (s.putIos a l).uid = s.uid := rfl
@[simp] theorem State.putIos_wnt (s : State) (a : Nat) (l : List Byte) :
    (s.putIos a l).wnt = { s.wnt with io := mwrite 0 s.wnt.io a l } := rfl
@[simp] theorem State.putIos_use (s : State) (a : Nat) (l : List Byte) : (s.putIos a l).use = s.use := rfl
@[simp] theorem State.putIos_umu (s : State) (a : Nat) (l : List Byte) : (s.putIos a l).umu = s.umu := rfl
@[simp] theorem State.putIos_esu (s : State) (a : Nat) (l : List Byte) : (s.putIos a l).esu = s.esu := rfl
@[simp] theorem State.putIos_ifc (s : State) (a : Nat) (l : List Byte) : (s.putIos a l).ifc = s.ifc := rfl
@[simp] theorem State.putIos_dbg (s : State) (a : Nat) (l : List Byte) : (s.putIos a l).dbg = s.dbg := rfl
@[simp] theorem State.putIos_saf (s : State) (a : Nat) (l : List Byte) : (s.putIos a l).saf = s.saf := rfl

/-! State.setIp. -/

@[simp] theorem State.setIp_pending (s : State) (i : Nat) : (s.setIp i).pending = s.pending := rfl
@[simp] theorem State.setIp_part (s : State) (i : Nat) : (s.setIp i).part = s.part := rfl
@[simp] theorem State.setIp_freeCtr (s : State) (i : Nat) : (s.setIp i).freeCtr = s.freeCtr := rfl
@[simp] theorem State.setIp_resp (s : State) (i : Nat) : (s.setIp i).resp = s.resp := rfl
@[simp] theorem State.setIp_regs (s : State) (i : Nat) : (s.setIp i).regs = s.regs := rfl
@[simp] theorem State.setIp_latches (s : State) (i : Nat) : (s.setIp i).latches = s.latches := rfl
@[simp] theorem State.setIp_lows (s : State) (i : Nat) : (s.setIp i).lows = s.lows := rfl
@[simp] theorem State.setIp_said (s : State) (i : Nat) : (s.setIp i).said = s.said := rfl
@[simp] theorem State.setIp_time (s : State) (i : Nat) : (s.setIp i).time = s.time := rfl
@[simp] theorem State.setIp_mode (s : State) (i : Nat) : (s.setIp i).mode = s.mode := rfl
@[simp] theorem State.setIp_pwr (s : State) (i : Nat) : (s.setIp i).pwr = s.pwr := rfl
@[simp] theorem State.setIp_log (s : State) (i : Nat) : (s.setIp i).log = s.log := rfl
@[simp] theorem State.setIp_cfg (s : State) (i : Nat) : (s.setIp i).cfg = s.cfg := rfl
@[simp] theorem State.setIp_key (s : State) (i : Nat) : (s.setIp i).key = s.key := rfl
@[simp] theorem State.setIp_afe (s : State) (i : Nat) : (s.setIp i).afe = s.afe := rfl
@[simp] theorem State.setIp_chain (s : State) (i : Nat) : (s.setIp i).chain = s.chain := rfl
@[simp] theorem State.setIp_fab (s : State) (i : Nat) : (s.setIp i).fab = s.fab := rfl
@[simp] theorem State.setIp_scan (s : State) (i : Nat) : (s.setIp i).scan = s.scan := rfl
@[simp] theorem State.setIp_recd (s : State) (i : Nat) : (s.setIp i).recd = s.recd := rfl
@[simp] theorem State.setIp_mem (s : State) (i : Nat) : (s.setIp i).mem = s.mem := rfl
@[simp] theorem State.setIp_core (s : State) (i : Nat) : (s.setIp i).core = s.core := rfl
@[simp] theorem State.setIp_sch (s : State) (i : Nat) : (s.setIp i).sch = s.sch := rfl
@[simp] theorem State.setIp_zve (s : State) (i : Nat) : (s.setIp i).zve = s.zve := rfl
@[simp] theorem State.setIp_uid (s : State) (i : Nat) : (s.setIp i).uid = s.uid := rfl
@[simp] theorem State.setIp_wnt (s : State) (i : Nat) : (s.setIp i).wnt = { s.wnt with ip := s.wnt.ip ||| ((1 : Half) <<< i) } := rfl
@[simp] theorem State.setIp_use (s : State) (i : Nat) : (s.setIp i).use = s.use := rfl
@[simp] theorem State.setIp_umu (s : State) (i : Nat) : (s.setIp i).umu = s.umu := rfl
@[simp] theorem State.setIp_esu (s : State) (i : Nat) : (s.setIp i).esu = s.esu := rfl
@[simp] theorem State.setIp_ifc (s : State) (i : Nat) : (s.setIp i).ifc = s.ifc := rfl
@[simp] theorem State.setIp_dbg (s : State) (i : Nat) : (s.setIp i).dbg = s.dbg := rfl
@[simp] theorem State.setIp_saf (s : State) (i : Nat) : (s.setIp i).saf = s.saf := rfl

/-! State.dtcmPut. -/

@[simp] theorem State.dtcmPut_pending (s : State) (o : Nat) (v : Word) : (s.dtcmPut o v).pending = s.pending := rfl
@[simp] theorem State.dtcmPut_part (s : State) (o : Nat) (v : Word) : (s.dtcmPut o v).part = s.part := rfl
@[simp] theorem State.dtcmPut_freeCtr (s : State) (o : Nat) (v : Word) : (s.dtcmPut o v).freeCtr = s.freeCtr := rfl
@[simp] theorem State.dtcmPut_resp (s : State) (o : Nat) (v : Word) : (s.dtcmPut o v).resp = s.resp := rfl
@[simp] theorem State.dtcmPut_regs (s : State) (o : Nat) (v : Word) : (s.dtcmPut o v).regs = s.regs := rfl
@[simp] theorem State.dtcmPut_latches (s : State) (o : Nat) (v : Word) : (s.dtcmPut o v).latches = s.latches := rfl
@[simp] theorem State.dtcmPut_lows (s : State) (o : Nat) (v : Word) : (s.dtcmPut o v).lows = s.lows := rfl
@[simp] theorem State.dtcmPut_said (s : State) (o : Nat) (v : Word) : (s.dtcmPut o v).said = s.said := rfl
@[simp] theorem State.dtcmPut_time (s : State) (o : Nat) (v : Word) : (s.dtcmPut o v).time = s.time := rfl
@[simp] theorem State.dtcmPut_mode (s : State) (o : Nat) (v : Word) : (s.dtcmPut o v).mode = s.mode := rfl
@[simp] theorem State.dtcmPut_pwr (s : State) (o : Nat) (v : Word) : (s.dtcmPut o v).pwr = s.pwr := rfl
@[simp] theorem State.dtcmPut_log (s : State) (o : Nat) (v : Word) : (s.dtcmPut o v).log = s.log := rfl
@[simp] theorem State.dtcmPut_cfg (s : State) (o : Nat) (v : Word) : (s.dtcmPut o v).cfg = s.cfg := rfl
@[simp] theorem State.dtcmPut_key (s : State) (o : Nat) (v : Word) : (s.dtcmPut o v).key = s.key := rfl
@[simp] theorem State.dtcmPut_afe (s : State) (o : Nat) (v : Word) : (s.dtcmPut o v).afe = s.afe := rfl
@[simp] theorem State.dtcmPut_chain (s : State) (o : Nat) (v : Word) : (s.dtcmPut o v).chain = s.chain := rfl
@[simp] theorem State.dtcmPut_fab (s : State) (o : Nat) (v : Word) : (s.dtcmPut o v).fab = s.fab := rfl
@[simp] theorem State.dtcmPut_scan (s : State) (o : Nat) (v : Word) : (s.dtcmPut o v).scan = s.scan := rfl
@[simp] theorem State.dtcmPut_recd (s : State) (o : Nat) (v : Word) : (s.dtcmPut o v).recd = s.recd := rfl
@[simp] theorem State.dtcmPut_mem (s : State) (o : Nat) (v : Word) :
    (s.dtcmPut o v).mem = { s.mem with dtcm := mwrite 0 s.mem.dtcm o (bytesLE v) } := rfl
@[simp] theorem State.dtcmPut_core (s : State) (o : Nat) (v : Word) : (s.dtcmPut o v).core = s.core := rfl
@[simp] theorem State.dtcmPut_sch (s : State) (o : Nat) (v : Word) : (s.dtcmPut o v).sch = s.sch := rfl
@[simp] theorem State.dtcmPut_zve (s : State) (o : Nat) (v : Word) : (s.dtcmPut o v).zve = s.zve := rfl
@[simp] theorem State.dtcmPut_uid (s : State) (o : Nat) (v : Word) : (s.dtcmPut o v).uid = s.uid := rfl
@[simp] theorem State.dtcmPut_wnt (s : State) (o : Nat) (v : Word) : (s.dtcmPut o v).wnt = s.wnt := rfl
@[simp] theorem State.dtcmPut_use (s : State) (o : Nat) (v : Word) : (s.dtcmPut o v).use = s.use := rfl
@[simp] theorem State.dtcmPut_umu (s : State) (o : Nat) (v : Word) : (s.dtcmPut o v).umu = s.umu := rfl
@[simp] theorem State.dtcmPut_esu (s : State) (o : Nat) (v : Word) : (s.dtcmPut o v).esu = s.esu := rfl
@[simp] theorem State.dtcmPut_ifc (s : State) (o : Nat) (v : Word) : (s.dtcmPut o v).ifc = s.ifc := rfl
@[simp] theorem State.dtcmPut_dbg (s : State) (o : Nat) (v : Word) : (s.dtcmPut o v).dbg = s.dbg := rfl
@[simp] theorem State.dtcmPut_saf (s : State) (o : Nat) (v : Word) : (s.dtcmPut o v).saf = s.saf := rfl

/-! State.putThread. -/

@[simp] theorem State.putThread_pending (s : State) (t : Fin 64) (x : ThreadSt) : (s.putThread t x).pending = s.pending := rfl
@[simp] theorem State.putThread_part (s : State) (t : Fin 64) (x : ThreadSt) : (s.putThread t x).part = s.part := rfl
@[simp] theorem State.putThread_freeCtr (s : State) (t : Fin 64) (x : ThreadSt) : (s.putThread t x).freeCtr = s.freeCtr := rfl
@[simp] theorem State.putThread_resp (s : State) (t : Fin 64) (x : ThreadSt) : (s.putThread t x).resp = s.resp := rfl
@[simp] theorem State.putThread_regs (s : State) (t : Fin 64) (x : ThreadSt) : (s.putThread t x).regs = s.regs := rfl
@[simp] theorem State.putThread_latches (s : State) (t : Fin 64) (x : ThreadSt) : (s.putThread t x).latches = s.latches := rfl
@[simp] theorem State.putThread_lows (s : State) (t : Fin 64) (x : ThreadSt) : (s.putThread t x).lows = s.lows := rfl
@[simp] theorem State.putThread_said (s : State) (t : Fin 64) (x : ThreadSt) : (s.putThread t x).said = s.said := rfl
@[simp] theorem State.putThread_time (s : State) (t : Fin 64) (x : ThreadSt) : (s.putThread t x).time = s.time := rfl
@[simp] theorem State.putThread_mode (s : State) (t : Fin 64) (x : ThreadSt) : (s.putThread t x).mode = s.mode := rfl
@[simp] theorem State.putThread_pwr (s : State) (t : Fin 64) (x : ThreadSt) : (s.putThread t x).pwr = s.pwr := rfl
@[simp] theorem State.putThread_log (s : State) (t : Fin 64) (x : ThreadSt) : (s.putThread t x).log = s.log := rfl
@[simp] theorem State.putThread_cfg (s : State) (t : Fin 64) (x : ThreadSt) : (s.putThread t x).cfg = s.cfg := rfl
@[simp] theorem State.putThread_key (s : State) (t : Fin 64) (x : ThreadSt) : (s.putThread t x).key = s.key := rfl
@[simp] theorem State.putThread_afe (s : State) (t : Fin 64) (x : ThreadSt) : (s.putThread t x).afe = s.afe := rfl
@[simp] theorem State.putThread_chain (s : State) (t : Fin 64) (x : ThreadSt) : (s.putThread t x).chain = s.chain := rfl
@[simp] theorem State.putThread_fab (s : State) (t : Fin 64) (x : ThreadSt) : (s.putThread t x).fab = s.fab := rfl
@[simp] theorem State.putThread_scan (s : State) (t : Fin 64) (x : ThreadSt) : (s.putThread t x).scan = s.scan := rfl
@[simp] theorem State.putThread_recd (s : State) (t : Fin 64) (x : ThreadSt) : (s.putThread t x).recd = s.recd := rfl
@[simp] theorem State.putThread_mem (s : State) (t : Fin 64) (x : ThreadSt) : (s.putThread t x).mem = s.mem := rfl
@[simp] theorem State.putThread_core (s : State) (t : Fin 64) (x : ThreadSt) : (s.putThread t x).core = s.core := rfl
@[simp] theorem State.putThread_sch (s : State) (t : Fin 64) (x : ThreadSt) :
    (s.putThread t x).sch = { s.sch with thread := vput s.sch.thread t x } := rfl
@[simp] theorem State.putThread_zve (s : State) (t : Fin 64) (x : ThreadSt) : (s.putThread t x).zve = s.zve := rfl
@[simp] theorem State.putThread_uid (s : State) (t : Fin 64) (x : ThreadSt) : (s.putThread t x).uid = s.uid := rfl
@[simp] theorem State.putThread_wnt (s : State) (t : Fin 64) (x : ThreadSt) : (s.putThread t x).wnt = s.wnt := rfl
@[simp] theorem State.putThread_use (s : State) (t : Fin 64) (x : ThreadSt) : (s.putThread t x).use = s.use := rfl
@[simp] theorem State.putThread_umu (s : State) (t : Fin 64) (x : ThreadSt) : (s.putThread t x).umu = s.umu := rfl
@[simp] theorem State.putThread_esu (s : State) (t : Fin 64) (x : ThreadSt) : (s.putThread t x).esu = s.esu := rfl
@[simp] theorem State.putThread_ifc (s : State) (t : Fin 64) (x : ThreadSt) : (s.putThread t x).ifc = s.ifc := rfl
@[simp] theorem State.putThread_dbg (s : State) (t : Fin 64) (x : ThreadSt) : (s.putThread t x).dbg = s.dbg := rfl
@[simp] theorem State.putThread_saf (s : State) (t : Fin 64) (x : ThreadSt) : (s.putThread t x).saf = s.saf := rfl

/-! State.putRing. -/

@[simp] theorem State.putRing_pending (s : State) (r : Fin 64) (x : RingSt) : (s.putRing r x).pending = s.pending := rfl
@[simp] theorem State.putRing_part (s : State) (r : Fin 64) (x : RingSt) : (s.putRing r x).part = s.part := rfl
@[simp] theorem State.putRing_freeCtr (s : State) (r : Fin 64) (x : RingSt) : (s.putRing r x).freeCtr = s.freeCtr := rfl
@[simp] theorem State.putRing_resp (s : State) (r : Fin 64) (x : RingSt) : (s.putRing r x).resp = s.resp := rfl
@[simp] theorem State.putRing_regs (s : State) (r : Fin 64) (x : RingSt) : (s.putRing r x).regs = s.regs := rfl
@[simp] theorem State.putRing_latches (s : State) (r : Fin 64) (x : RingSt) : (s.putRing r x).latches = s.latches := rfl
@[simp] theorem State.putRing_lows (s : State) (r : Fin 64) (x : RingSt) : (s.putRing r x).lows = s.lows := rfl
@[simp] theorem State.putRing_said (s : State) (r : Fin 64) (x : RingSt) : (s.putRing r x).said = s.said := rfl
@[simp] theorem State.putRing_time (s : State) (r : Fin 64) (x : RingSt) : (s.putRing r x).time = s.time := rfl
@[simp] theorem State.putRing_mode (s : State) (r : Fin 64) (x : RingSt) : (s.putRing r x).mode = s.mode := rfl
@[simp] theorem State.putRing_pwr (s : State) (r : Fin 64) (x : RingSt) : (s.putRing r x).pwr = s.pwr := rfl
@[simp] theorem State.putRing_log (s : State) (r : Fin 64) (x : RingSt) : (s.putRing r x).log = s.log := rfl
@[simp] theorem State.putRing_cfg (s : State) (r : Fin 64) (x : RingSt) : (s.putRing r x).cfg = s.cfg := rfl
@[simp] theorem State.putRing_key (s : State) (r : Fin 64) (x : RingSt) : (s.putRing r x).key = s.key := rfl
@[simp] theorem State.putRing_afe (s : State) (r : Fin 64) (x : RingSt) : (s.putRing r x).afe = s.afe := rfl
@[simp] theorem State.putRing_chain (s : State) (r : Fin 64) (x : RingSt) : (s.putRing r x).chain = s.chain := rfl
@[simp] theorem State.putRing_fab (s : State) (r : Fin 64) (x : RingSt) : (s.putRing r x).fab = s.fab := rfl
@[simp] theorem State.putRing_scan (s : State) (r : Fin 64) (x : RingSt) : (s.putRing r x).scan = s.scan := rfl
@[simp] theorem State.putRing_recd (s : State) (r : Fin 64) (x : RingSt) : (s.putRing r x).recd = s.recd := rfl
@[simp] theorem State.putRing_mem (s : State) (r : Fin 64) (x : RingSt) : (s.putRing r x).mem = s.mem := rfl
@[simp] theorem State.putRing_core (s : State) (r : Fin 64) (x : RingSt) : (s.putRing r x).core = s.core := rfl
@[simp] theorem State.putRing_sch (s : State) (r : Fin 64) (x : RingSt) :
    (s.putRing r x).sch = { s.sch with ring := vput s.sch.ring r x } := rfl
@[simp] theorem State.putRing_zve (s : State) (r : Fin 64) (x : RingSt) : (s.putRing r x).zve = s.zve := rfl
@[simp] theorem State.putRing_uid (s : State) (r : Fin 64) (x : RingSt) : (s.putRing r x).uid = s.uid := rfl
@[simp] theorem State.putRing_wnt (s : State) (r : Fin 64) (x : RingSt) : (s.putRing r x).wnt = s.wnt := rfl
@[simp] theorem State.putRing_use (s : State) (r : Fin 64) (x : RingSt) : (s.putRing r x).use = s.use := rfl
@[simp] theorem State.putRing_umu (s : State) (r : Fin 64) (x : RingSt) : (s.putRing r x).umu = s.umu := rfl
@[simp] theorem State.putRing_esu (s : State) (r : Fin 64) (x : RingSt) : (s.putRing r x).esu = s.esu := rfl
@[simp] theorem State.putRing_ifc (s : State) (r : Fin 64) (x : RingSt) : (s.putRing r x).ifc = s.ifc := rfl
@[simp] theorem State.putRing_dbg (s : State) (r : Fin 64) (x : RingSt) : (s.putRing r x).dbg = s.dbg := rfl
@[simp] theorem State.putRing_saf (s : State) (r : Fin 64) (x : RingSt) : (s.putRing r x).saf = s.saf := rfl

/-! State.putMeter. -/

@[simp] theorem State.putMeter_pending (s : State) (m : Fin 4) (x : MeterSt) : (s.putMeter m x).pending = s.pending := rfl
@[simp] theorem State.putMeter_part (s : State) (m : Fin 4) (x : MeterSt) : (s.putMeter m x).part = s.part := rfl
@[simp] theorem State.putMeter_freeCtr (s : State) (m : Fin 4) (x : MeterSt) : (s.putMeter m x).freeCtr = s.freeCtr := rfl
@[simp] theorem State.putMeter_resp (s : State) (m : Fin 4) (x : MeterSt) : (s.putMeter m x).resp = s.resp := rfl
@[simp] theorem State.putMeter_regs (s : State) (m : Fin 4) (x : MeterSt) : (s.putMeter m x).regs = s.regs := rfl
@[simp] theorem State.putMeter_latches (s : State) (m : Fin 4) (x : MeterSt) : (s.putMeter m x).latches = s.latches := rfl
@[simp] theorem State.putMeter_lows (s : State) (m : Fin 4) (x : MeterSt) : (s.putMeter m x).lows = s.lows := rfl
@[simp] theorem State.putMeter_said (s : State) (m : Fin 4) (x : MeterSt) : (s.putMeter m x).said = s.said := rfl
@[simp] theorem State.putMeter_time (s : State) (m : Fin 4) (x : MeterSt) : (s.putMeter m x).time = s.time := rfl
@[simp] theorem State.putMeter_mode (s : State) (m : Fin 4) (x : MeterSt) : (s.putMeter m x).mode = s.mode := rfl
@[simp] theorem State.putMeter_pwr (s : State) (m : Fin 4) (x : MeterSt) : (s.putMeter m x).pwr = s.pwr := rfl
@[simp] theorem State.putMeter_log (s : State) (m : Fin 4) (x : MeterSt) : (s.putMeter m x).log = s.log := rfl
@[simp] theorem State.putMeter_cfg (s : State) (m : Fin 4) (x : MeterSt) : (s.putMeter m x).cfg = s.cfg := rfl
@[simp] theorem State.putMeter_key (s : State) (m : Fin 4) (x : MeterSt) : (s.putMeter m x).key = s.key := rfl
@[simp] theorem State.putMeter_afe (s : State) (m : Fin 4) (x : MeterSt) : (s.putMeter m x).afe = s.afe := rfl
@[simp] theorem State.putMeter_chain (s : State) (m : Fin 4) (x : MeterSt) : (s.putMeter m x).chain = s.chain := rfl
@[simp] theorem State.putMeter_fab (s : State) (m : Fin 4) (x : MeterSt) : (s.putMeter m x).fab = s.fab := rfl
@[simp] theorem State.putMeter_scan (s : State) (m : Fin 4) (x : MeterSt) : (s.putMeter m x).scan = s.scan := rfl
@[simp] theorem State.putMeter_recd (s : State) (m : Fin 4) (x : MeterSt) : (s.putMeter m x).recd = s.recd := rfl
@[simp] theorem State.putMeter_mem (s : State) (m : Fin 4) (x : MeterSt) : (s.putMeter m x).mem = s.mem := rfl
@[simp] theorem State.putMeter_core (s : State) (m : Fin 4) (x : MeterSt) : (s.putMeter m x).core = s.core := rfl
@[simp] theorem State.putMeter_sch (s : State) (m : Fin 4) (x : MeterSt) : (s.putMeter m x).sch = s.sch := rfl
@[simp] theorem State.putMeter_zve (s : State) (m : Fin 4) (x : MeterSt) : (s.putMeter m x).zve = s.zve := rfl
@[simp] theorem State.putMeter_uid (s : State) (m : Fin 4) (x : MeterSt) : (s.putMeter m x).uid = s.uid := rfl
@[simp] theorem State.putMeter_wnt (s : State) (m : Fin 4) (x : MeterSt) : (s.putMeter m x).wnt = s.wnt := rfl
@[simp] theorem State.putMeter_use (s : State) (m : Fin 4) (x : MeterSt) :
    (s.putMeter m x).use = { s.use with meter := vput s.use.meter m x } := rfl
@[simp] theorem State.putMeter_umu (s : State) (m : Fin 4) (x : MeterSt) : (s.putMeter m x).umu = s.umu := rfl
@[simp] theorem State.putMeter_esu (s : State) (m : Fin 4) (x : MeterSt) : (s.putMeter m x).esu = s.esu := rfl
@[simp] theorem State.putMeter_ifc (s : State) (m : Fin 4) (x : MeterSt) : (s.putMeter m x).ifc = s.ifc := rfl
@[simp] theorem State.putMeter_dbg (s : State) (m : Fin 4) (x : MeterSt) : (s.putMeter m x).dbg = s.dbg := rfl
@[simp] theorem State.putMeter_saf (s : State) (m : Fin 4) (x : MeterSt) : (s.putMeter m x).saf = s.saf := rfl

/-! State.putSlotV. -/

@[simp] theorem State.putSlotV_pending (s : State) (n : Fin 16) (v : VaultSlot) : (s.putSlotV n v).pending = s.pending := rfl
@[simp] theorem State.putSlotV_part (s : State) (n : Fin 16) (v : VaultSlot) : (s.putSlotV n v).part = s.part := rfl
@[simp] theorem State.putSlotV_freeCtr (s : State) (n : Fin 16) (v : VaultSlot) : (s.putSlotV n v).freeCtr = s.freeCtr := rfl
@[simp] theorem State.putSlotV_resp (s : State) (n : Fin 16) (v : VaultSlot) : (s.putSlotV n v).resp = s.resp := rfl
@[simp] theorem State.putSlotV_regs (s : State) (n : Fin 16) (v : VaultSlot) : (s.putSlotV n v).regs = s.regs := rfl
@[simp] theorem State.putSlotV_latches (s : State) (n : Fin 16) (v : VaultSlot) : (s.putSlotV n v).latches = s.latches := rfl
@[simp] theorem State.putSlotV_lows (s : State) (n : Fin 16) (v : VaultSlot) : (s.putSlotV n v).lows = s.lows := rfl
@[simp] theorem State.putSlotV_said (s : State) (n : Fin 16) (v : VaultSlot) : (s.putSlotV n v).said = s.said := rfl
@[simp] theorem State.putSlotV_time (s : State) (n : Fin 16) (v : VaultSlot) : (s.putSlotV n v).time = s.time := rfl
@[simp] theorem State.putSlotV_mode (s : State) (n : Fin 16) (v : VaultSlot) : (s.putSlotV n v).mode = s.mode := rfl
@[simp] theorem State.putSlotV_pwr (s : State) (n : Fin 16) (v : VaultSlot) : (s.putSlotV n v).pwr = s.pwr := rfl
@[simp] theorem State.putSlotV_log (s : State) (n : Fin 16) (v : VaultSlot) : (s.putSlotV n v).log = s.log := rfl
@[simp] theorem State.putSlotV_cfg (s : State) (n : Fin 16) (v : VaultSlot) : (s.putSlotV n v).cfg = s.cfg := rfl
@[simp] theorem State.putSlotV_key (s : State) (n : Fin 16) (v : VaultSlot) :
    (s.putSlotV n v).key = { s.key with vault := vput s.key.vault n v } := rfl
@[simp] theorem State.putSlotV_afe (s : State) (n : Fin 16) (v : VaultSlot) : (s.putSlotV n v).afe = s.afe := rfl
@[simp] theorem State.putSlotV_chain (s : State) (n : Fin 16) (v : VaultSlot) : (s.putSlotV n v).chain = s.chain := rfl
@[simp] theorem State.putSlotV_fab (s : State) (n : Fin 16) (v : VaultSlot) : (s.putSlotV n v).fab = s.fab := rfl
@[simp] theorem State.putSlotV_scan (s : State) (n : Fin 16) (v : VaultSlot) : (s.putSlotV n v).scan = s.scan := rfl
@[simp] theorem State.putSlotV_recd (s : State) (n : Fin 16) (v : VaultSlot) : (s.putSlotV n v).recd = s.recd := rfl
@[simp] theorem State.putSlotV_mem (s : State) (n : Fin 16) (v : VaultSlot) : (s.putSlotV n v).mem = s.mem := rfl
@[simp] theorem State.putSlotV_core (s : State) (n : Fin 16) (v : VaultSlot) : (s.putSlotV n v).core = s.core := rfl
@[simp] theorem State.putSlotV_sch (s : State) (n : Fin 16) (v : VaultSlot) : (s.putSlotV n v).sch = s.sch := rfl
@[simp] theorem State.putSlotV_zve (s : State) (n : Fin 16) (v : VaultSlot) : (s.putSlotV n v).zve = s.zve := rfl
@[simp] theorem State.putSlotV_uid (s : State) (n : Fin 16) (v : VaultSlot) : (s.putSlotV n v).uid = s.uid := rfl
@[simp] theorem State.putSlotV_wnt (s : State) (n : Fin 16) (v : VaultSlot) : (s.putSlotV n v).wnt = s.wnt := rfl
@[simp] theorem State.putSlotV_use (s : State) (n : Fin 16) (v : VaultSlot) : (s.putSlotV n v).use = s.use := rfl
@[simp] theorem State.putSlotV_umu (s : State) (n : Fin 16) (v : VaultSlot) : (s.putSlotV n v).umu = s.umu := rfl
@[simp] theorem State.putSlotV_esu (s : State) (n : Fin 16) (v : VaultSlot) : (s.putSlotV n v).esu = s.esu := rfl
@[simp] theorem State.putSlotV_ifc (s : State) (n : Fin 16) (v : VaultSlot) : (s.putSlotV n v).ifc = s.ifc := rfl
@[simp] theorem State.putSlotV_dbg (s : State) (n : Fin 16) (v : VaultSlot) : (s.putSlotV n v).dbg = s.dbg := rfl
@[simp] theorem State.putSlotV_saf (s : State) (n : Fin 16) (v : VaultSlot) : (s.putSlotV n v).saf = s.saf := rfl

/-! State.stepDone. -/

@[simp] theorem State.stepDone_pending (s : State) (n : Nat) : (s.stepDone n).pending = s.pending := rfl
@[simp] theorem State.stepDone_part (s : State) (n : Nat) : (s.stepDone n).part = s.part := rfl
@[simp] theorem State.stepDone_freeCtr (s : State) (n : Nat) : (s.stepDone n).freeCtr = s.freeCtr := rfl
@[simp] theorem State.stepDone_resp (s : State) (n : Nat) : (s.stepDone n).resp = s.resp := rfl
@[simp] theorem State.stepDone_regs (s : State) (n : Nat) : (s.stepDone n).regs = s.regs := rfl
@[simp] theorem State.stepDone_latches (s : State) (n : Nat) : (s.stepDone n).latches = s.latches := rfl
@[simp] theorem State.stepDone_lows (s : State) (n : Nat) : (s.stepDone n).lows = s.lows := rfl
@[simp] theorem State.stepDone_said (s : State) (n : Nat) : (s.stepDone n).said = s.said := rfl
@[simp] theorem State.stepDone_time (s : State) (n : Nat) : (s.stepDone n).time = s.time := rfl
@[simp] theorem State.stepDone_mode (s : State) (n : Nat) : (s.stepDone n).mode = { s.mode with done := n } := rfl
@[simp] theorem State.stepDone_pwr (s : State) (n : Nat) : (s.stepDone n).pwr = s.pwr := rfl
@[simp] theorem State.stepDone_log (s : State) (n : Nat) : (s.stepDone n).log = s.log := rfl
@[simp] theorem State.stepDone_cfg (s : State) (n : Nat) : (s.stepDone n).cfg = s.cfg := rfl
@[simp] theorem State.stepDone_key (s : State) (n : Nat) : (s.stepDone n).key = s.key := rfl
@[simp] theorem State.stepDone_afe (s : State) (n : Nat) : (s.stepDone n).afe = s.afe := rfl
@[simp] theorem State.stepDone_chain (s : State) (n : Nat) : (s.stepDone n).chain = s.chain := rfl
@[simp] theorem State.stepDone_fab (s : State) (n : Nat) : (s.stepDone n).fab = s.fab := rfl
@[simp] theorem State.stepDone_scan (s : State) (n : Nat) : (s.stepDone n).scan = s.scan := rfl
@[simp] theorem State.stepDone_recd (s : State) (n : Nat) : (s.stepDone n).recd = s.recd := rfl
@[simp] theorem State.stepDone_mem (s : State) (n : Nat) : (s.stepDone n).mem = s.mem := rfl
@[simp] theorem State.stepDone_core (s : State) (n : Nat) : (s.stepDone n).core = s.core := rfl
@[simp] theorem State.stepDone_sch (s : State) (n : Nat) : (s.stepDone n).sch = s.sch := rfl
@[simp] theorem State.stepDone_zve (s : State) (n : Nat) : (s.stepDone n).zve = s.zve := rfl
@[simp] theorem State.stepDone_uid (s : State) (n : Nat) : (s.stepDone n).uid = s.uid := rfl
@[simp] theorem State.stepDone_wnt (s : State) (n : Nat) : (s.stepDone n).wnt = s.wnt := rfl
@[simp] theorem State.stepDone_use (s : State) (n : Nat) : (s.stepDone n).use = s.use := rfl
@[simp] theorem State.stepDone_umu (s : State) (n : Nat) : (s.stepDone n).umu = s.umu := rfl
@[simp] theorem State.stepDone_esu (s : State) (n : Nat) : (s.stepDone n).esu = s.esu := rfl
@[simp] theorem State.stepDone_ifc (s : State) (n : Nat) : (s.stepDone n).ifc = s.ifc := rfl
@[simp] theorem State.stepDone_dbg (s : State) (n : Nat) : (s.stepDone n).dbg = s.dbg := rfl
@[simp] theorem State.stepDone_saf (s : State) (n : Nat) : (s.stepDone n).saf = s.saf := rfl

end Sys2Proof.Machine
end

