-- ==== Sys2Proof/Laws/Ops.lean ====
section
/-! SUPPORT. What the conditional shared operations can do: one lemma for each, to cite in place of unfolding it. -/

namespace Sys2Proof.Machine

/-- A fold of steps that each keep a projection keeps it. -/
theorem foldl_proj {α β γ : Type} (g : α → γ) (f : α → β → α) (h : ∀ a b, g (f a b) = g a) (l : List β) (a : α) :
    g (l.foldl f a) = g a := by
  induction l generalizing a with
  | nil => rfl
  | cons x t ih => rw [List.foldl_cons, ih, h]

/-- A fold of steps that each keep a property keeps it. -/
theorem foldl_keeps {α β : Type} (p : α → Prop) (f : α → β → α) (h : ∀ a b, p a → p (f a b)) (l : List β) (a : α) (ha : p a) :
    p (l.foldl f a) := by
  induction l generalizing a with
  | nil => exact ha
  | cons x t ih => exact ih _ (h _ _ ha)

/-- A rate-limited entry changes the log's offers and its own time mark, or nothing. -/
theorem sayKey_cases (s : State) (gap k : Nat) (src : Src) (c : Half) (p0 p1 p2 p3 : Word) :
    s.sayKey gap k src c p0 p1 p2 p3 = s ∨
    s.sayKey gap k src c p0 p1 p2 p3 =
      { s.say src c p0 p1 p2 p3 with said := mset 0 s.said k s.time.dt } := by
  unfold State.sayKey
  dsimp only
  split
  · exact .inl rfl
  · exact .inr rfl

theorem sayRate_cases (s : State) (gap idx : Nat) (src : Src) (c : Half) (p0 p1 p2 p3 : Word) :
    s.sayRate gap idx src c p0 p1 p2 p3 = s ∨
    s.sayRate gap idx src c p0 p1 p2 p3 =
      { s.say src c p0 p1 p2 p3 with said := mset 0 s.said (c.toNat * 256 + idx) s.time.dt } := sayKey_cases ..

/-- A sentinel entry limited to one a tick changes the log's offers and its own time mark, or nothing. -/
theorem sayTick_cases (s : State) (idx : Nat) (c : Half) (p0 p1 p2 p3 : Word) :
    s.sayTick idx c p0 p1 p2 p3 = s ∨
    s.sayTick idx c p0 p1 p2 p3 = { s.sayWnt c p0 p1 p2 p3 with said := mset 0 s.said (c.toNat * 256 + idx) (s.time.rtct + 1) } := by
  unfold State.sayTick
  dsimp only
  split
  · exact .inl rfl
  · exact .inr rfl

/-- A flush trigger starts a flush of what is staged, marks a running flush for another, or does nothing. -/
theorem flushTrigger_cases (s : State) :
    s.flushTrigger = s ∨ s.flushTrigger = { s with log := { s.log with again := true } } ∨
    s.flushTrigger = { s with log := { s.log with flush := some s.log.staged.length, retried := false } } := by
  unfold State.flushTrigger
  split
  · split
    · exact .inr (.inl rfl)
    · exact .inr (.inr rfl)
  · exact .inl rfl

/-- The RC's stop takes CALOK, or nothing changes. -/
theorem rcCheck_cases (s : State) : s.rcCheck = s ∨ s.rcCheck = { s with wnt := { s.wnt with calOk := false } } := by
  unfold State.rcCheck
  split
  · exact .inl rfl
  · exact .inr rfl

/-- A refused read changes only the answer: the master has no access, or the access is refused. -/
theorem busRead_refused (s : State) (m : Master) (w : Width) (a : Word) (st : BusStatus) (hn : st ≠ .ok)
    (h : s.canAccess m a = st ∨ s.canAccess m a = .ok ∧ s.status (s.accessOf m) false (widthBytes w) a = st) :
    s.busRead m w a = s.answer st 0 := by
  unfold State.busRead
  rcases h with h | ⟨h, k⟩
  · cases st <;> simp_all
  · simp only [h, k, if_neg hn]

/-- A refused write changes only the answer. -/
theorem busWrite_refused (s : State) (m : Master) (w : Width) (a v : Word) (st : BusStatus) (hn : st ≠ .ok)
    (h : s.canAccess m a = st ∨ s.canAccess m a = .ok ∧ s.status (s.accessOf m) true (widthBytes w) a = st) :
    s.busWrite m w a v = s.answer st 0 := by
  unfold State.busWrite
  rcases h with h | ⟨h, k⟩
  · cases st <;> simp_all
  · simp only [h, k, if_neg hn]

/-! What keeps the mode. -/

theorem sayRate_mode (s : State) (g i : Nat) (src : Src) (c : Half) (p0 p1 p2 p3 : Word) :
    (s.sayRate g i src c p0 p1 p2 p3).mode = s.mode := by
  rcases sayRate_cases s g i src c p0 p1 p2 p3 with h | h
  · rw [h]
  · rw [h]; rfl

theorem gateClose_mode (s : State) : s.gateClose.mode = s.mode := by
  unfold State.gateClose
  apply foldl_proj State.mode
  intro a b
  dsimp only
  split <;> simp [sayRate_mode]

theorem forChans_mode (s : State) (m) (f) (h : ∀ t n, (f t n).mode = t.mode) : (s.forChans m f).mode = s.mode := by
  unfold State.forChans
  apply foldl_proj State.mode
  intro a b
  split
  · exact h a b
  · rfl

theorem clearChannel_mode (s : State) (n k) : (s.clearChannel n k).mode = s.mode := by
  simp only [State.clearChannel, State.clearChain]
  split <;> rfl

theorem tapProtect_mode (s : State) : s.tapProtect.mode = s.mode := by unfold State.tapProtect; split <;> rfl

theorem endHalt_mode (s : State) : s.endHalt.mode = s.mode := by
  unfold State.endHalt State.wdtPause State.withCore
  split <;> rfl

/-! Registers written and entries offered keep the maps canonical. -/

theorem mapsWf_said (s : State) (m : List (Nat × DWord)) (h : s.mapsWf = true) (hm : mwf 0 m = true) :
    ({ s with said := m }).mapsWf = true := by
  simp only [State.mapsWf, Bool.and_eq_true] at h ⊢
  simp only [h, hm, and_self]

theorem State.orReg_mapsWf (s : State) (o : Nat) (v : Word) (h : s.mapsWf = true) : (s.orReg o v).mapsWf = true :=
  State.setReg_mapsWf s o _ h

theorem State.evt_mapsWf (s : State) (o i : Nat) (h : s.mapsWf = true) : (s.evt o i).mapsWf = true :=
  State.orReg_mapsWf s o _ h

theorem said_of_mapsWf (s : State) (h : s.mapsWf = true) : mwf 0 s.said = true := by
  simp only [State.mapsWf, Bool.and_eq_true] at h
  simp only [h]

theorem State.sayRate_mapsWf (s : State) (g i : Nat) (src : Src) (c : Half) (p0 p1 p2 p3 : Word) (h : s.mapsWf = true) :
    (s.sayRate g i src c p0 p1 p2 p3).mapsWf = true := by
  rcases sayRate_cases s g i src c p0 p1 p2 p3 with e | e
  · rw [e]; exact h
  · rw [e]
    exact mapsWf_said (s.say src c p0 p1 p2 p3) _ h (mset_wf _ _ (said_of_mapsWf s h))

/-- A warm cause latches only where none waits, and touches nothing but the waiting cause (04 R113). -/
theorem latchWarm_cases (s : State) (c : Fin 6) :
    (s.mode.warmReq.isSome = true ∧ s.latchWarm c = s) ∨
    (s.mode.warmReq = none ∧ s.latchWarm c = { s with mode := { s.mode with warmReq := some c } }) := by
  unfold State.latchWarm
  cases h : s.mode.warmReq with
  | some _ => exact .inl ⟨rfl, rfl⟩
  | none => exact .inr ⟨rfl, rfl⟩

/-- The FABRIC tick of an instant is applied at most once: it is idle, or the edge after the commit whose apply tick has come
(08 R658, 09 R240). -/
theorem edgeNow_cases (s : State) :
    s.edgeNow = s ∨ s.edgeNow = { s.commitApply.fabEdge with fab := { s.commitApply.fabEdge.fab with edgeDone := true } } := by
  unfold State.edgeNow
  split
  · exact .inl rfl
  · exact .inr rfl

end Sys2Proof.Machine
end

