-- ==== Sys2Proof/Machine/Pins.lean ====
section
/-! DEFINITION. The state of every pin class (23 Tables PIN-2 to PIN-4, R621 to R624, R632). A pin whose waveform its block makes while it
runs is `active`; the analogue behaviour of a pin is outside the model. -/

namespace Sys2Proof.Machine

/-- What a pin does (Table PIN-4). -/
inductive PinState where
  /-- high impedance with no pull -/
  | hiz
  | low
  | high
  /-- an input held by its pull -/
  | pullDown
  | pullUp
  /-- an input held by a bus keeper -/
  | keeper
  | input
  /-- an open-drain pin that is not driven -/
  | released
  /-- converting, sampled, oscillating, or driven by the block that owns it -/
  | active
  /-- the boundary register drives or senses it (22 R601) -/
  | boundary
  deriving DecidableEq, Repr

/-- A driven level. -/
def PinState.level (b : Bool) : PinState := if b then .high else .low

/-- The fields of the core die have power, and the power-fail sequence has not reached step 4 (Table PWR-4). -/
def State.fieldUp (s : State) : Bool := s.mode.coreOn && !s.mode.pf

/-! Winter pins: powered whenever the Winter domain is (R136). -/

/-- Class XW: XRTC_I, XRTC_O. -/
def State.pinXw (s : State) : PinState := if s.pwr.winter then .active else .hiz

/-- Class WK: WAKEn, a comparator input. -/
def State.pinWake (s : State) : PinState := if s.pwr.winter then .input else .hiz

/-- Class TA: driven only for the RTC tick of a check (16 R462), so between checks at high impedance. -/
def State.pinTampA (_ : State) : PinState := .hiz

/-- Class TB: its weak pull-up is connected only while a check samples it. -/
def State.pinTampB (s : State) : PinState := if s.pwr.winter then .input else .hiz

/-- Class IM: IMMOB (17 R501). -/
def State.pinImmob (s : State) : PinState := if s.pwr.winter then .level s.use.immob else .hiz

/-- Class RS: RST_N with its pull-up. -/
def State.pinRstN (s : State) : PinState := if s.pwr.winter then .pullUp else .hiz

/-- Class WD: GPIO8 to GPIO11 as the sentinel sets them (16 R465). -/
def State.pinWinterGpio (s : State) (i : Fin 4) : PinState :=
  if !s.pwr.winter then .hiz
  else if bit ((s.iob 0xF050).setWidth 32) i.val then .level (s.wgpio.getLsbD i.val) else .input

/-! Field pins. -/

/-- Class XM: XMAIN_I, XMAIN_O: off from step 4 of a power-fail. -/
def State.pinXm (s : State) : PinState := if s.fieldUp then .active else .hiz

/-- Class RF: REFOUT, REFCAP: until the core die powers down. -/
def State.pinRef (s : State) : PinState := if s.mode.coreOn then .active else .hiz

/-- Class AN: AIPn and AINn of an enabled channel, from step 9 on. -/
def State.pinAin (s : State) (n : Fin 16) : PinState :=
  if s.fieldUp && s.mode.past8 && s.chanEn n then .active else .hiz

/-- Class AN: FCPm and FCNm of an enabled comparator, from the end of step 8. -/
def State.pinFc (s : State) (m : Fin 8) : PinState := if s.fieldUp && s.mode.past8 && s.cmpEn m then .active else .hiz

/-- Class AN: HKn, sampled from the end of step 3 (06 R169). -/
def State.pinHk (s : State) : PinState := if s.fieldUp then .active else .hiz

/-- Class TP: TRPAn is output n, TRPBn output 12 + n (08 R218, R219). -/
def State.pinTrip (s : State) (i : Fin 24) : PinState :=
  if (s.tripZ ||| ~~~s.feederMask).getLsbD (i.val % 12) then .hiz else .level (s.commanded.getLsbD i.val)

/-- Class BS: BSTn with its pull-down from step 3. -/
def State.pinBst (s : State) : PinState := if s.fieldUp then .pullDown else .hiz

/-- Class KD: KDRVk sinks its coil's current while it is on (04 R101). -/
def State.pinKdrv (s : State) (k : Fin 4) : PinState := if s.fab.kdrv.getLsbD k.val then .low else .hiz

/-- Class SF: SAFE_N (04 R102). -/
def State.pinSafeN (s : State) : PinState := if s.mode.coreOn then .level s.safeN else .hiz

/-- Class PG: PGOOD, high while all four rails are in their windows. -/
def State.pinPgood (s : State) : PinState := if s.mode.coreOn then .level (s.pwr.rails == 15) else .hiz

/-! Core pins. -/

/-- The boundary register has the 41 pins of 22 R600; otherwise a pin of class DG is p until step 4 of a power-fail (R623). -/
def State.pinDg (s : State) (p : PinState) : PinState := if !s.fieldUp then .hiz else if s.bscan then .boundary else p

/-- CANk_TX: high while the controller takes no part in traffic (R622). -/
def State.pinCanTx (s : State) (k : Fin 2) : PinState := s.pinDg (if s.canOn k then .active else .high)

/-- TX of UART0 and UART1: the idle level is high. -/
def State.pinUartTx (s : State) (u : Fin 2) : PinState :=
  let v : Fin 4 := fin 3 u.val
  s.pinDg (if s.uartOn v && !(s.ifc.uart[v]).tx.isEmpty then .active else .high)

/-- TX of UART2 and UART3: driven by its owner, high when idle (16 R467). -/
def State.pinUartWtx (s : State) (u : Fin 2) : PinState :=
  let v : Fin 4 := fin 3 (u.val + 2)
  if !s.pwr.winter then .hiz
  else if (s.wnt.uart[u]).core then (if s.uartOn v && !(s.ifc.uart[v]).tx.isEmpty then .active else .high)
  else if (s.wnt.uart[u]).tx.isEmpty then .high else .active

/-- SPIk_SCK idles at the clock polarity of SPI_CTL.MODE, bit 1 of the mode. -/
def State.pinSpiSck (s : State) (k : Fin 2) : PinState :=
  s.pinDg (if s.ifcOn (R.spi k 0) && !(s.ifc.spi[k]).tx.isEmpty then .active else .level (bit (s.reg (R.spi k 0)) 2))

/-- SPIk_MOSI idles low. -/
def State.pinSpiMosi (s : State) (k : Fin 2) : PinState :=
  s.pinDg (if s.ifcOn (R.spi k 0) && !(s.ifc.spi[k]).tx.isEmpty then .active else .low)

/-- SPIk_CS_N: high while the interface is disabled (R622). -/
def State.pinSpiCs (s : State) (k : Fin 2) : PinState := s.pinDg (.level !(s.ifcOn (R.spi k 0) && s.spiCs k))

/-- I2Ck_SCL and I2Ck_SDA: released when idle. -/
def State.pinI2c (s : State) (k : Fin 2) : PinState := s.pinDg (if (s.ifc.i2c[k]).busy then .active else .released)

/-- GPIO0 to GPIO7 follow GPIO_DIR and GPIO_OUT; an input is held by its keeper. -/
def State.pinGpio (s : State) (i : Fin 8) : PinState :=
  s.pinDg (if bit (s.reg (R.gpio 0)) i.val then .level (bit (s.reg (R.gpio 4)) i.val) else .keeper)

/-- Another input of class DG. -/
def State.pinDgIn (s : State) : PinState := s.pinDg .keeper

/-- A mover job uses the flash. -/
def State.xspiBusy (s : State) : Bool := s.key.mov.toList.any MovSt.busy || s.log.flush.isSome

/-- The boundary register has a class XS pin; otherwise it is p until the core die powers down, step 7 of a power-fail. -/
def State.pinXs (s : State) (p : PinState) : PinState :=
  if !s.mode.coreOn then .hiz else if s.bscan then .boundary else p

/-- XSPI_CSn_N, XSPI_SCK, XSPI_DQS with XSPI_IO0 to XSPI_IO7, XSPI_RESET_N (R622). -/
def State.pinXspiCs (s : State) : PinState := s.pinXs (if s.xspiBusy then .active else .high)
def State.pinXspiSck (s : State) : PinState := s.pinXs (if s.xspiBusy then .active else .low)
def State.pinXspiIo (s : State) : PinState := s.pinXs (if s.xspiBusy then .active else .keeper)
def State.pinXspiReset (s : State) : PinState := s.pinXs (.level (s.blockOn 5))

/-- Class TP-J: TDO, driven only in the shift states; TCK with its pull-down; TMS, TDI and TRST_N with pull-ups (R622). -/
def State.pinTdo (_ : State) : PinState := .hiz
def State.pinTck (s : State) : PinState := if s.tapOn then .pullDown else .hiz
def State.pinTms (s : State) : PinState := if s.tapOn then .pullUp else .hiz

end Sys2Proof.Machine
end

