-- ==== Sys2Proof/Tests/Slice0.lean ====
section
/-! SUPPORT. Tests: for each statement a state and operands that meet its hypotheses together, clause by clause at the ends of the
ranges; single commands with values from the spec; one ill-formed command for each check. -/

namespace Sys2Proof.Tests
open Sys2Proof Sys2Proof.Machine

/-! States that the witnesses start from. -/

/-- A chain that every stage passes on. -/
def tChain : ChainCfg :=
  { cicDec := 4, shift0 := 0, hbCount := 0, hbShift1 := 0, hbShift2 := 0, taps := 1, firDec := 1, finalShift := 0, coef := [1] }

/-- A netlist with one threshold unit, one timer, one trip output. -/
def tFab : FabCfg :=
  { prech := 1, tu := Vector.replicate 64 { chain := 0, abs := false, below := false, en := true },
    integ := Vector.replicate 12 { chain := 0, en := false },
    timer := Vector.replicate 32 { start := 1, reset := 0, mode := 0, en := true },
    cell := Vector.replicate 256 { in0 := 0, in1 := 0, in2 := 0, in3 := 0, lut := 0, mode := 0 },
    trip := Vector.replicate 12 { trip := 0, latch := true, safeHigh := false, en := true, close := 0, reset := 0 },
    kdrv := Vector.replicate 4 { on := 0, en := true } }

/-- A sequencer state that is never left. -/
def tState : SeqStateCfg :=
  { exits := Vector.replicate 4 { target := 0, en := false, src := 0, index := 0, invert := false },
    minDwell := 0, maxDwell := 0, fallback := 0, count := 0, trigger := false }

/-- The memory map of the image. -/
def tMem : MemCfg :=
  { cs0 := 27, cs1 := 0, logBase := 0x100000, logLimit := 0x10FFFF, entries := 2048, recBase := 0x110000, recLimit := 0x2FFFFF,
    data := Vector.replicate 8 { base := 0, limit := 0, key := 0 }, halt := 0, tagEn := 0,
    region := Vector.replicate 3 { base := 0, limit := 0, tag := 0, ctr := 0 } }

/-- An image of small content. -/
def tImage : Image :=
  { slot := false, seq := 1, build := [], hash := List.replicate 32 0, pwren := 0xFF, periphHalf := false,
    afe := Vector.replicate 16 1, cmp := Vector.replicate 8 1, chain := Vector.replicate 16 tChain, fab := tFab, defGroup := 0,
    settings := Vector.replicate 4 (List.replicate 160 0),
    recd := some { nslot := 2, rate := 10, prePct := 50, post := 4, ch := [0] },
    brm := Vector.replicate 4 { en := false, initial := 0, thr := Vector.replicate 4 (0, false, 0), states := Vector.replicate 8 tState },
    rings := Vector.replicate 64 { role := 1, spill := 0x10000000, words := 64, thread := 0, bit := 0, flagEn := false },
    threads := Vector.replicate 64 { prio := 0, state := 0, all := false, mask := 0 },
    mem := tMem,
    scan := { period := 0, wcet := 1000, entry := 0x1000, codeLen := 0, codeCrc := 0, kernel := 0 },
    harvest := [], umu := some { group := #v[4, 0, 0, 0], demandMin := 15, sched := List.replicate 98 0 },
    recDrain := 0, recDead := 0 }

/-- The core die runs in Ready, with the image loaded. -/
def on : State :=
  { State.reset with
    time := { TimeSt.reset with run := true, dt := 1000000, xrtcSeen := true, rtct := 327680, clkOk := 0xFF, pwr := 0xFF }
    mode := { ModeSt.reset with mode := .ready, coreOn := true, wake := false, past7 := true, past8 := true, past10 := true, past11 := true, past13 := true }
    pwr := { PwrSt.reset with vbatValid := true, rails := 15, vbakOk := true }
    log := { LogSt.reset with offered := [], ports := [], reserve := 2048 }
    cfg := { CfgSt.reset with img := some tImage }
    core := { CoreSt.reset with r := ((Vector.replicate 164 0).set 2 0x10000010).set 3 0x20 }
    mem := { MemSt.reset with
      dtcm := [(0x28, 0x81), (0x29, 0x92), (0x30, 0xF3), (0x31, 0x84)]
      vs := [(0x20, 7), (0x21, 1), (0x30, 5), (0x34, 2)] }
    afe := { AfeSt.reset with ctl := Vector.replicate 16 1, cmpCtl := Vector.replicate 8 0x100 }
    chain := Vector.replicate 16 { ChainSt.reset with coef := [1], crc := 3075157821 }
    fab := { FabSt.reset with set := Vector.replicate 4 (List.replicate 160 0), crc := Vector.replicate 4 3760717006 }
    wnt := { WntSt.reset with st := .awake, winValid := true, sp := 0x5000, codeLen := 16 } }

/-- Every chain has an output whose comparisons are due. -/
def onDue : State := { on with chain := Vector.replicate 16 { on.chain[0] with due := true } }

/-- A log entry. -/
def tEntry : Entry := { code := 0x1234, source := 1, td := false, coarse := false, pf := false, hw := true, stamp := 5, p0 := 1, p1 := 2,
                        p2 := 3, p3 := 4 }

/-- The image with a LOG area of two erase units. -/
def tImageLog : Image :=
  { tImage with mem := { tMem with region := vput tMem.region 0 { base := 0x100000, limit := 0x10FFFF, tag := 0x300000, ctr := 0x400000 } } }

/-- A chain of one link. -/
def tLink (w0 w3 : Word) : ZChain :=
  { links := [{ w0 := w0, w1 := 32769, w2 := 32770, w3 := w3, tag := 0, pc := 0 }], closed := true, scan := false, precise := false,
    slot := none, susp := false }

/-- Its run, at the first link. -/
def tRun (w0 w3 : Word) : ZRun :=
  { chain := tLink w0 w3, done := 0, fwd := [], exc := [], replayed := false, abort := false, said := false, start := 0 }

/-- The hypotheses of ClockAndBridgeEventsTakeEffect are met. -/
theorem wit_ClockAndBridgeEventsTakeEffect :
    (∃ (s : State) (ch : BridgeCh), s.mode.coreOn = true ∧ (ch = .sar ∨ ch = .rb ∨ ch = .reg ∨ ch = .win)) ∧
    (∃ (s : State) (d : DWord), s.time.run = true ∧ s.time.edgeDt = some d ∧ s.time.rtct.toNat % 32 = 0 ∧
      (s.time.synced = false ∨ s.time.rtct ≠ s.time.syncRtc ∧ s.time.rtct ≠ s.time.syncRtc + 32)) ∧
    (∃ (s : State) (d : DWord) (n : Nat), s.time.run = true ∧ s.time.edgeDt = some d ∧ s.time.rtct.toNat % 32 = 0 ∧
      s.time.synced = true ∧ s.time.rtct = s.time.syncRtc + 32 ∧ n = (d - s.time.syncDt).toNat ∧ 390625 ≤ 4 * n + 195 ∧
      4 * n ≤ 390820) ∧
    (∃ (s : State) (n : Fin 8), s.mode.coreOn = true ∧ s.time.pwr.getLsbD n.val = true ∧ n.val < 5 ∧ s.safeDue 6 = false) ∧
    (∃ (s : State), s.mode.coreOn = true ∧ s.safeDue 7 = false) ∧
    (∃ (s : State) (n : Fin 8), s.mode.coreOn = true ∧ s.time.pwr.getLsbD n.val = true ∧ n.val < 6 ∧ s.safeDue 5 = false) ∧
    (∃ (s : State), s.time.xrtcSeen = true ∧ s.time.rcFallback = false ∧ s.time.coarse = false) ∧
    (∃ (s : State), s.pwr.winter = true ∧ s.time.xrtcSeen = false ∧ s.time.rcFallback = false ∧ s.time.coarse = false) ∧
    (∃ (s : State) (count : Nat), s.mode.coreOn = true ∧ s.time.pwr.getLsbD 0 = true ∧ s.saf.inj.getLsbD 6 = false ∧
      29700 ≤ count ∧ count ≤ 30300) ∧
    (∃ (s : State) (count : Nat), s.mode.coreOn = true ∧ s.time.pwr.getLsbD 0 = true ∧ s.saf.inj.getLsbD 6 = false ∧
      count < 29400 ∧ s.time.clkOver.getLsbD 0 = true ∧ bit (s.reg R.cmonWarn) 0 = true ∧ s.safeDue 5 = false) :=
  ⟨⟨{ on with mode := { on.mode with coreOn := true } }, .sar, by decide⟩,
   ⟨{ on with time := { on.time with run := true, edgeDt := some (0), synced := false } }, 0, by decide⟩,
   ⟨{ on with time := { on.time with run := true, edgeDt := some 100000, synced := true, rtct := 96, syncRtc := 64, syncDt := 2344 } },
     100000, 97656, by decide⟩,
   ⟨{ on with mode := { on.mode with coreOn := true } }, 0, by decide⟩,
   ⟨{ on with mode := { on.mode with coreOn := true } }, by decide⟩,
   ⟨{ on with mode := { on.mode with coreOn := true } }, 0, by decide⟩,
   ⟨{ on with time := { on.time with xrtcSeen := true, rcFallback := false, coarse := false } }, by decide⟩,
   ⟨{ on with pwr := { on.pwr with winter := true }, time := { on.time with xrtcSeen := false, rcFallback := false, coarse := false } },
     by decide⟩,
   ⟨{ on with mode := { on.mode with coreOn := true } }, 30000, by decide⟩,
   ⟨{ (on.setReg (R.cmonWarn) 1) with mode := { (on.setReg (R.cmonWarn) 1).mode with coreOn := true }, time := { (on.setReg (R.cmonWarn) 1).time with clkOver := 1 } },
     29000, by decide⟩⟩

/-- The hypotheses of ModeRequestsTakeEffect are met. -/
theorem wit_ModeRequestsTakeEffect :
    (∃ (s : State), s.regsOn = true) ∧
    (∃ (s : State), s.regsOn = true ∧ s.mode.starting = false ∧ s.modeRps = true) ∧
    (∃ (s : State), s.regsOn = true ∧ s.mode.starting = false ∧ s.mode.mode = .ready ∧ s.mode.m9 = none ∧
      s.key.authValid = true ∧ s.key.authBusy = false) ∧
    (∃ (s : State), s.regsOn = true ∧ s.mode.starting = false ∧ s.mode.mode = .ready ∧ s.mode.m9 = none ∧
      (s.key.authValid = false ∨ s.key.authBusy = true)) ∧
    (∃ (s : State), s.regsOn = true ∧ s.mode.starting = false ∧ s.mode.mode = .service ∧ s.mode.m9 = none) ∧
    (∃ (s : State), s.regsOn = true ∧ s.mode.starting = false ∧ s.mode.mode = .protect ∧ s.mode.m9 = none) ∧
    (∃ (s : State), s.regsOn = true ∧ s.mode.starting = false ∧ (s.mode.mode = .ready ∨ s.mode.mode = .service) ∧
      s.mode.m9 = none) :=
  ⟨⟨on, by decide⟩,
   ⟨{ on with mode := { on.mode with starting := false } }, by decide⟩,
   ⟨{ on with mode := { on.mode with starting := false, mode := .ready, m9 := none }, key := { on.key with authValid := true, authBusy := false } },
     by decide⟩,
   ⟨{ on with mode := { on.mode with starting := false, mode := .ready, m9 := none }, key := { on.key with authValid := false } },
     by decide⟩,
   ⟨{ on with mode := { on.mode with starting := false, mode := .service, m9 := none } }, by decide⟩,
   ⟨{ on with mode := { on.mode with starting := false, mode := .protect, m9 := none } }, by decide⟩,
   ⟨{ on with mode := { on.mode with starting := false, mode := .ready, m9 := none } }, by decide⟩⟩

/-- The hypotheses of GuardSampleAndModeSequencesTakeEffect are met. -/
theorem wit_GuardSampleAndModeSequencesTakeEffect :
    (∃ (s : State), s.regsOn = true ∧ s.mode.m5 = true ∧ s.mode.mode = .ready ∧ s.guards = 15) ∧
    (∃ (s : State), s.regsOn = true ∧ s.mode.m5 = true ∧ s.mode.mode = .ready ∧ s.guards ≠ 15) ∧
    (∃ (s : State) (sentry : Bool), s.mode.m9 = some sentry ∧ s.regsOn = true ∧ s.modeRps = true ∧ s.mode.mode ≠ .safe ∧
      s.core.scan = false ∧ s.scan.commit = none ∧ s.scan.redo = false ∧ s.scan.phase = .idle ∧ s.recd.order = []) ∧
    (∃ (s : State), s.mode.coreOn = true) ∧
    (∃ (s : State), s.mode.starting = true ∧ s.mode.past13 = false ∧ s.mode.mode = .ready ∧ s.mode.kindWarm = false ∧
      500000 ≤ s.mode.startUs.toNat + (s.time.dt - s.mode.startMark).toNat / 100 ∧ s.safeDue 24 = false) ∧
    (∃ (s : State) (v : Word), s.regsOn = true ∧ s.modeRps = true ∧ s.mode.warmReq = none ∧ fld v 16 16 = 0x5A3C ∧
      bit v 0 = true) ∧
    (∃ (s : State) (v : Word), s.regsOn = true ∧ s.modeRps = true ∧ s.mode.warmReq = none ∧
      (fld v 16 16 ≠ 0x5A3C ∨ bit v 0 = false)) :=
  ⟨⟨{ on with mode := { on.mode with m5 := true, mode := .ready }, use := { on.use with permit := true, en := true } },
     by decide⟩,
   ⟨{ on with mode := { on.mode with m5 := true, mode := .ready } }, by decide⟩,
   ⟨{ on with mode := { on.mode with m9 := some (true) }, core := { on.core with scan := false }, scan := { on.scan with commit := none, redo := false, phase := .idle }, recd := { on.recd with order := [] } },
     true, by decide⟩,
   ⟨{ on with mode := { on.mode with coreOn := true } }, by decide⟩,
   ⟨{ on with mode := { on.mode with starting := true, past13 := false, mode := .ready, kindWarm := false, startUs := 500000 } },
     by decide⟩,
   ⟨{ on with mode := { on.mode with warmReq := none } }, 0x5a3c0001, by decide⟩,
   ⟨{ on with mode := { on.mode with warmReq := none } }, 0, by decide⟩⟩

set_option maxRecDepth 20000 in
/-- The hypotheses of StartsAndSafeTakeEffect are met. -/
theorem wit_StartsAndSafeTakeEffect :
    (∃ (s : State) (e : ColdIn), s.coldReady = true ∧ e.trimOk = false) ∧
    (∃ (s : State) (e : ColdIn), s.coldReady = true ∧ e.trimOk = true ∧ e.monOk = false) ∧
    (∃ (s : State) (cause : Fin 6) (i : Image), s.mode.warmReq = some cause ∧ s.regsOn = true ∧ s.modeRps = true ∧
      s.mode.mode ≠ .safe ∧ s.mode.past13 = true ∧ s.mode.safePend = [] ∧ s.scan.commit = none ∧ s.key.vop = none ∧
      s.mode.m9 = none ∧ s.warmStorm = false ∧ s.cfg.img = some i ∧ s.itcmOk = true ∧ s.calDue = false ∧ (∀ c : Fin 8,
      (s.key.mov[c]).busy = false)) ∧
    (∃ (s : State) (cause : Fin 6), s.mode.warmReq = some cause ∧ s.regsOn = true ∧ s.modeRps = true ∧ s.mode.mode ≠ .safe ∧
      s.mode.past13 = true ∧ s.mode.safePend = [] ∧ s.scan.commit = none ∧ s.key.vop = none ∧ s.mode.m9 = none ∧
      s.warmStorm = true) ∧
    (∃ (s : State) (c : Nat) (p : Word) (d : DWord), s.mode.safePend = [(c, p, d)] ∧ c < 32 ∧ c ≠ 4 ∧ c ≠ 12 ∧ c ≠ 21 ∧
      s.mode.mode ≠ .safe ∧ (∀ k : Fin 8, (s.key.mov[k]).busy = false)) ∧
    (∃ (s : State), s.mode.mode = .safe ∧ s.mode.window = true ∧ s.mode.coreOn = true ∧ s.mode.pf = false ∧
      60000000000 ≤ (s.time.dt - s.mode.safeDt).toNat) :=
  ⟨⟨{ State.reset with pwr := { PwrSt.reset with vbatValid := true }, key := { KeySt.reset with wcKept := true } },
     { trimOk := false, monOk := true, kat := 3, stageBad := [], umuBad := 0, harvBad := 0, sntCodeBad := false, railBad := none, pllBad := none, bistBad := none, laneBad := 0, sfdp0 := some 27, sfdp1 := none, sfdpStep := 0, vaultBad := 0, wcBad := 0, seed := none, fabOk := true, cal := ⟨[], [], [], 0, 0x400000⟩, xrtc := true, us := 0 },
     by decide⟩,
   ⟨{ State.reset with pwr := { PwrSt.reset with vbatValid := true }, key := { KeySt.reset with wcKept := true } },
     { trimOk := true, monOk := false, kat := 3, stageBad := [], umuBad := 0, harvBad := 0, sntCodeBad := false, railBad := none, pllBad := none, bistBad := none, laneBad := 0, sfdp0 := some 27, sfdp1 := none, sfdpStep := 0, vaultBad := 0, wcBad := 0, seed := none, fabOk := true, cal := ⟨[], [], [], 0, 0x400000⟩, xrtc := true, us := 0 },
     by decide⟩,
   ⟨{ on with mode := { on.mode with warmReq := some (2), past13 := true, safePend := [], m9 := none }, scan := { on.scan with commit := none }, key := { on.key with vop := none }, cfg := { on.cfg with img := some (tImage) } },
     2, tImage, by decide⟩,
   ⟨{ on with mode := { on.mode with warmReq := some (2), past13 := true, safePend := [], m9 := none, warmDts := [1000, 900, 800] }, scan := { on.scan with commit := none }, key := { on.key with vop := none } },
     2, by decide⟩,
   ⟨{ on with mode := { on.mode with safePend := [((3), (7), (9))] } }, 3, 7, 9, by decide⟩,
   ⟨{ on with mode := { on.mode with mode := .safe, window := true, coreOn := true, pf := false }, time := { on.time with dt := 70000000000 } },
     by decide⟩⟩

/-- The hypotheses of SupplyEventsTakeEffect are met. -/
theorem wit_SupplyEventsTakeEffect :
    (∃ (s : State), s.mode.coreOn = true ∧ s.mode.pf = false ∧ s.mode.mode ≠ .safe ∧ s.scan.commit = none ∧ (∀ k : Fin 8,
      (s.key.mov[k]).busy = false) ∧ s.mode.past11 = true ∧ s.log.flushErr = false ∧ s.log.clearing = false) ∧
    (∃ (s : State), s.mode.coreOn = true ∧ s.pwr.surge = false) ∧
    (∃ (s : State), s.mode.coreOn = true ∧ s.pwr.surge = true) ∧
    (∃ (s : State), s.mode.coreOn = true ∧ s.pwr.bakSrc = false ∧ bit (s.reg R.pwrBakCtl) 0 = true ∧ s.pwr.chgActive = true) ∧
    (∃ (s : State), s.mode.coreOn = true ∧ s.pwr.bakSrc = false ∧ bit (s.reg R.pwrBakCtl) 0 = true ∧ s.pwr.chgDone = true) ∧
    (∃ (s : State) (v : Word), s.regsOn = true ∧ fld v 16 16 ≠ 0xB4C2) ∧
    (∃ (s : State) (v : Word), s.regsOn = true ∧ fld v 16 16 = 0xB4C2 ∧ s.pwr.bakSrc = false ∧ s.pwr.chgDone = false) ∧
    (∃ (s : State), s.mode.coreOn = true ∧ s.pwr.vbakOk = true ∧ bit (s.reg R.pwrBakCtl) 0 = false) ∧
    (∃ (s : State), s.mode.coreOn = true ∧ s.pwr.vbakOk = true ∧ bit (s.reg R.pwrBakCtl) 0 = true ∧ s.pwr.vbakLowSaid = false) ∧
    (∃ (s : State), s.mode.coreOn = true ∧ s.mode.pf = false ∧ s.safeDue 21 = false) ∧
    (∃ (s : State) (deg : Byte), s.mode.mode = .safe ∧ s.mode.safePri = 12 ∧ s.pwr.winter = true ∧ 194 < deg.toNat) ∧
    (∃ (s : State) (deg : Byte), s.mode.mode = .safe ∧ s.mode.safePri = 12 ∧ s.pwr.winter = true ∧ deg.toNat ≤ 194 ∧
      s.pwr.tjfOk = 7) :=
  ⟨⟨{ on with mode := { on.mode with coreOn := true, pf := false, past11 := true }, scan := { on.scan with commit := none }, log := { on.log with flushErr := false, clearing := false } },
     by decide⟩,
   ⟨{ on with mode := { on.mode with coreOn := true }, pwr := { on.pwr with surge := false } }, by decide⟩,
   ⟨{ on with mode := { on.mode with coreOn := true }, pwr := { on.pwr with surge := true } }, by decide⟩,
   ⟨{ (on.setReg R.pwrBakCtl 1) with mode := { (on.setReg R.pwrBakCtl 1).mode with coreOn := true }, pwr := { (on.setReg R.pwrBakCtl 1).pwr with bakSrc := false, chgActive := true } },
     by decide⟩,
   ⟨{ (on.setReg R.pwrBakCtl 1) with mode := { (on.setReg R.pwrBakCtl 1).mode with coreOn := true }, pwr := { (on.setReg R.pwrBakCtl 1).pwr with bakSrc := false, chgDone := true } },
     by decide⟩,
   ⟨on, 0, by decide⟩,
   ⟨{ on with pwr := { on.pwr with bakSrc := false, chgDone := false } }, 0xB4C20000, by decide⟩,
   ⟨{ on with mode := { on.mode with coreOn := true }, pwr := { on.pwr with vbakOk := true } }, by decide⟩,
   ⟨{ (on.setReg R.pwrBakCtl 1) with mode := { (on.setReg R.pwrBakCtl 1).mode with coreOn := true }, pwr := { (on.setReg R.pwrBakCtl 1).pwr with vbakOk := true, vbakLowSaid := false } },
     by decide⟩,
   ⟨{ on with mode := { on.mode with coreOn := true, pf := false } }, by decide⟩,
   ⟨{ on with mode := { on.mode with mode := .safe, safePri := 12 }, pwr := { on.pwr with winter := true } }, 195,
     by decide⟩,
   ⟨{ on with mode := { on.mode with mode := .safe, safePri := 12 }, pwr := { on.pwr with winter := true, tjfOk := 7 } }, 0,
     by decide⟩⟩

/-- The hypotheses of StagingCommandsMoveTheStage are met. -/
theorem wit_StagingCommandsMoveTheStage :
    (∃ (s : State), s.regsOn = true ∧ s.mode.mode = .service ∧ s.cfg.stage ≠ .checking) ∧
    (∃ (s : State), s.regsOn = true ∧ s.mode.mode = .service ∧ s.slotJob = false) ∧
    (∃ (s : State), s.regsOn = true ∧ s.mode.mode = .service ∧ s.slotJob = true) ∧
    (∃ (s : State), s.regsOn = true ∧ s.cfg.stage = .checking ∧ s.slotKey 0 = none) ∧
    (∃ (s : State), s.regsOn = true ∧ s.mode.mode ≠ .service) :=
  ⟨⟨{ on with mode := { on.mode with mode := .service } }, by decide⟩,
   ⟨{ on with mode := { on.mode with mode := .service } }, by decide⟩,
   ⟨{ on with mode := { on.mode with mode := .service }, key := { on.key with mov := vput on.key.mov 0 { MovSt.reset with busy := true, op := 2, dst := 0x1000 } } },
     by decide⟩,
   ⟨{ on with cfg := { on.cfg with stage := .checking } }, by decide⟩,
   ⟨on, by decide⟩⟩

/-- The hypotheses of RegisterAccessesFollowTheirCodes are met. -/
theorem wit_RegisterAccessesFollowTheirCodes :
    (∃ (s : State) (r : RegRow) (o : Nat) (v : Word), s.running = true ∧ s.mode.pf = false ∧ s.core.priv = true ∧
      s.core.scan = false ∧ s.scan.commit = none ∧ o < 0x1C0000 ∧ o % 4 = 0 ∧ s.regRow o = some r ∧ r.rw ||| r.w1c ≠ 0 ∧
      isPairRw o = false ∧ isPairRw (o - 4) = false ∧ s.regAct .core (s.core.efp != 0) o v = none) ∧
    (∃ (s : State), s.running = true ∧ s.mode.pf = false ∧ s.core.priv = true ∧ s.latched (s.latchKey .core) 0x50144 = none) ∧
    (∃ (s : State), s.running = true ∧ s.mode.pf = false ∧ s.core.priv = true ∧ s.latched (s.latchKey .core) 0x10010 = none) ∧
    (∃ (s : State) (w : Word), s.running = true ∧ s.mode.pf = false ∧ s.core.priv = true ∧
      s.latched (s.latchKey .core) 0x10014 = some w) ∧
    (∃ (s : State), s.running = true ∧ s.mode.pf = false ∧ s.core.priv = true ∧ s.core.scan = false ∧ s.scan.commit = none) :=
  ⟨⟨{ on with mode := { on.mode with pf := false }, core := { on.core with priv := true, scan := false }, scan := { on.scan with commit := none } },
     (heldRow 0x150 1 .rw 0x7F0F), 0x50150, 0, by decide⟩,
   ⟨{ on with mode := { on.mode with pf := false }, core := { on.core with priv := true } }, by decide⟩,
   ⟨{ on with mode := { on.mode with pf := false }, core := { on.core with priv := true } }, by decide⟩,
   ⟨{ ({ on with latches := [⟨0, 0x10014, 5⟩] }) with mode := { ({ on with latches := [⟨0, 0x10014, 5⟩] }).mode with pf := false }, core := { ({ on with latches := [⟨0, 0x10014, 5⟩] }).core with priv := true } },
     5, by decide⟩,
   ⟨{ on with mode := { on.mode with pf := false }, core := { on.core with priv := true, scan := false }, scan := { on.scan with commit := none } },
     by decide⟩⟩

/-- The hypotheses of ChannelEventsTakeEffect are met. -/
theorem wit_ChannelEventsTakeEffect :
    (∃ (s : State) (n : Fin 16) (v : Word), n.val < s.part.channels ∧ s.regsOn = true ∧ s.afe.pend[n] = none ∧
      (s.afe.ctl[n] &&& ~~~0x3E#32) ||| (v &&& 0x3E#32) ≠ s.afe.ctl[n] ∧ s.readyOrService = true ∧ bit v 4 = false ∧
      s.chanEn n = true) ∧
    (∃ (s : State) (n : Fin 16) (v : Word), n.val < s.part.channels ∧ s.regsOn = true ∧ s.afe.pend[n] = none ∧
      (s.afe.ctl[n] &&& ~~~0x3E#32) ||| (v &&& 0x3E#32) ≠ s.afe.ctl[n] ∧ s.readyOrService = true ∧ bit v 4 = false ∧
      s.chanEn n = false) ∧
    (∃ (s : State) (n : Fin 16) (v : Word), n.val < s.part.channels ∧ s.regsOn = true ∧ s.afe.pend[n] = none ∧
      (s.afe.ctl[n] &&& ~~~0x3E#32) ||| (v &&& 0x3E#32) ≠ s.afe.ctl[n] ∧ s.readyOrService = false) ∧
    (∃ (s : State) (n : Fin 16) (v : Word) (c : ChainCfg), n.val < s.part.channels ∧ s.afe.pend[n] = some v ∧
      s.chainCfg (fin 15 (fldN v 8 4)) = some c) ∧
    (∃ (s : State) (n : Fin 16) (c : ChainCfg), n.val < s.part.channels ∧ s.chanEn n = true ∧ s.converts = true ∧
      s.chainCfg (s.chanChain n) = some c) ∧
    (∃ (s : State) (n : Fin 16), n.val < s.part.channels ∧ s.chanEn n = true ∧ s.converts = true ∧ bit s.afe.ctl[n] 5 = true ∧
      s.afe.owPos.getLsbD n.val = false) ∧
    (∃ (s : State) (n : Fin 16), n.val < s.part.channels ∧ s.chanEn n = true ∧ s.converts = true ∧ bit s.afe.ctl[n] 5 = true ∧
      s.afe.owNeg.getLsbD n.val = true) ∧
    (∃ (s : State) (v : Word), s.regsOn = true ∧ bit v 31 = true ∧ s.readyOrService = true ∧ s.afe.burst = none) ∧
    (∃ (s : State) (v : Word), s.regsOn = true ∧ bit v 31 = true ∧ s.readyOrService = false) ∧
    (∃ (s : State) (mask : BitVec 16), s.afe.burst = some mask) :=
  ⟨⟨on, 0, 2, by decide⟩,
   ⟨{ on with afe := { on.afe with ctl := Vector.replicate 16 0 } }, 0, 2, by decide⟩,
   ⟨{ on with mode := { on.mode with mode := .protect } }, 0, 2, by decide⟩,
   ⟨{ on with afe := { on.afe with pend := Vector.replicate 16 (some 3) } }, 0, 3, tChain, by decide⟩,
   ⟨on, 0, tChain, by decide⟩,
   ⟨{ on with afe := { on.afe with ctl := Vector.replicate 16 33 } }, 0, by decide⟩,
   ⟨{ on with afe := { on.afe with ctl := Vector.replicate 16 33, owNeg := 1 } }, 0, by decide⟩,
   ⟨{ on with afe := { on.afe with burst := none } }, 0x80000000, by decide⟩,
   ⟨{ on with mode := { on.mode with mode := .protect } }, 0x80000000, by decide⟩,
   ⟨{ on with afe := { on.afe with burst := some (5) } }, 5, by decide⟩⟩

/-- The hypotheses of SarAndComparatorEventsTakeEffect are met. -/
theorem wit_SarAndComparatorEventsTakeEffect :
    (∃ (s : State) (slot : Fin 20) (uv : Int) (code : BitVec 12), s.sarRuns = true ∧ slot = s.afe.sarNext ∧ slot ≠ 19 ∧
      (code = 0 ↔ uv * 4096 < 1500000) ∧ (code = 0xFFF ↔ 4095 * 1500000 ≤ uv * 4096) ∧
      (0 ≤ uv → uv < 1500000 → (code.toNat : Int) * 1500000 ≤ uv * 4096 ∧ uv * 4096 < (code.toNat + 1 : Int) * 1500000)) ∧
    (∃ (s : State), s.sarRuns = true ∧ s.afe.sarNext = 19 ∧ s.afe.cycles < 49) ∧
    (∃ (s : State) (m : Fin 8), m.val < s.part.comparators ∧ s.cmpEn m = true ∧ s.mode.past8 = true) ∧
    (∃ (s : State) (m : Fin 8) (v : Word), m.val < s.part.comparators ∧ s.regsOn = true ∧
      (s.afe.cmpCtl[m] &&& ~~~0xF#32) ||| (v &&& 0xF#32) ≠ s.afe.cmpCtl[m] ∧ s.readyOrService = true) ∧
    (∃ (s : State) (m : Fin 8) (v : Word), m.val < s.part.comparators ∧ s.regsOn = true ∧
      (s.afe.cmpCtl[m] &&& ~~~0xF#32) ||| (v &&& 0xF#32) ≠ s.afe.cmpCtl[m] ∧ s.readyOrService = false) ∧
    (∃ (s : State) (pass : BitVec 8), s.mode.coreOn = true ∧ s.mode.past8 = true ∧ s.mode.pf = false ∧ s.cmpEn 3 = true ∧
      pass.getLsbD 3 = false) :=
  ⟨⟨on, 0, 0, 0, by decide⟩,
   ⟨{ on with afe := { on.afe with sarNext := 19 } }, by decide⟩,
   ⟨{ on with mode := { on.mode with past8 := true } }, 0, by decide⟩,
   ⟨on, 0, 2, by decide⟩,
   ⟨{ on with mode := { on.mode with mode := .protect } }, 0, 2, by decide⟩,
   ⟨{ on with mode := { on.mode with coreOn := true, past8 := true, pf := false }, afe := { on.afe with cmpCtl := Vector.replicate 8 0x100 } },
     0xF7, by decide⟩⟩

set_option maxRecDepth 20000 in
/-- The hypotheses of FilterChainEventsTakeEffect are met. -/
theorem wit_FilterChainEventsTakeEffect :
    (∃ (s : State) (k : Fin 16) (n : Fin 16) (c : ChainCfg) (bits : List Bool) (st : ChainSt) (y : Int) (v : Int),
      k.val < s.part.channels ∧ s.feeder k = some n ∧ s.chainCfg k = some c ∧ s.converts = true ∧ s.mode.run = none ∧
      bits.length = c.period ∧ (s.chain[k]).feed c (s.corr n).1 (s.corr n).2 bits none none = (st, some y, none) ∧
      v = rshift y c.finalShift ∧ -8388608 ≤ v ∧ v ≤ 8388607 ∧ st.remain = 0 ∧ s.afe.burst = none ∧ st.parityNext = false ∧
      s.afe.owPos.getLsbD n.val = false ∧ s.afe.owNeg.getLsbD n.val = false ∧ s.afe.owLatch.getLsbD n.val = false) ∧
    (∃ (s : State) (v : Word), s.regsOn = true ∧ fld v 0 16 ≠ 0 ∧ s.readyOrService = true ∧ fld v 0 16 &&& s.chainsOn ≠ 0) ∧
    (∃ (s : State) (v : Word), s.regsOn = true ∧ fld v 0 16 ≠ 0 ∧ s.readyOrService = false) ∧
    (∃ (s : State), s.converts = true ∧ s.mode.past10 = true ∧ (∀ k : Fin 16,
      (s.feeder k).isSome = true → s.coefCrcOf k = (s.chain[k]).crc)) ∧
    (∃ (s : State) (k : Fin 16), s.converts = true ∧ s.mode.past10 = true ∧ (s.feeder k).isSome = true ∧
      (s.chain[k]).coefSaid = false) :=
  ⟨⟨{ on with mode := { on.mode with run := none }, afe := { on.afe with burst := none } }, 0, 0, tChain,
     ([true, true, false, true]),
     (((on.chain[0]).feed tChain (on.corr 0).1 (on.corr 0).2 [true, true, false, true] none none).1),
     (((on.chain[0]).feed tChain (on.corr 0).1 (on.corr 0).2 [true, true, false, true] none none).2.1.getD 0),
     (((on.chain[0]).feed tChain (on.corr 0).1 (on.corr 0).2 [true, true, false, true] none none).2.1.getD 0),
     by decide +kernel⟩,
   ⟨on, 1, by decide +kernel⟩,
   ⟨{ on with mode := { on.mode with mode := .protect } }, 1, by decide +kernel⟩,
   ⟨{ on with mode := { on.mode with past10 := true }, afe := { on.afe with ctl := (Vector.replicate 16 0).set 0 1 } },
     by decide +kernel⟩,
   ⟨{ on with mode := { on.mode with past10 := true } }, 0, by decide +kernel⟩⟩

set_option maxRecDepth 20000 in
/-- The hypotheses of FabricEventsAndSettingsTakeEffect are met. -/
theorem wit_FabricEventsAndSettingsTakeEffect :
    (∃ (s : State) (k : Fin 16) (c : FabCfg) (ch : ChainCfg), k.val < s.part.channels ∧ s.fabCfg = some c ∧
      s.chainCfg k = some ch ∧ s.fabOn = true ∧ s.mode.past10 = true ∧ (s.chain[k]).due = true ∧ s.time.dt.toNat % 10 = 0 ∧
      (s.chain[k]).stamp.toNat + 30 ≤ s.time.dt.toNat ∧ bit (s.chain[k]).out 31 = false) ∧
    (∃ (s : State) (n : Fin 32) (c : FabCfg), s.fabCfg = some c ∧ s.fabOn = true ∧ (c.timer[n]).en = true ∧
      s.sig (c.timer[n]).reset = false ∧ (c.timer[n]).mode = 0 ∧ s.sig (c.timer[n]).start = true ∧ (s.fab.timer[n]).out = false) ∧
    (∃ (s : State) (n : Fin 32) (c : FabCfg), s.fabCfg = some c ∧ s.fabOn = true ∧ (c.timer[n]).en = true ∧
      s.sig (c.timer[n]).reset = false ∧ (c.timer[n]).mode = 1 ∧ s.sig (c.timer[n]).start = false ∧ (s.fab.timer[n]).out = true) ∧
    (∃ (s : State), s.fabOn = true) ∧
    (∃ (s : State), s.regsOn = true ∧ s.readyOrService = true) ∧
    (∃ (s : State), s.regsOn = true ∧ s.readyOrService = false) ∧
    (∃ (s : State) (g : Fin 4) (x : Word), s.fabOn = true ∧ (∀ g : Fin 4, groupCrc s.fab.set[g] = s.fab.crc[g]) ∧ x ≠ 0 ∧
      s.safeDue 13 = false) ∧
    (∃ (s : State) (g : Fin 4) (w : Fin 160) (x : Word),
      (let ws := (s.fab.set[g]).set w.val ((s.fab.set[g]).getD w.val 0 ^^^ x); s.fabOn = true ∧ (∀ g : Fin 4,
      groupCrc s.fab.set[g] = s.fab.crc[g]) ∧ s.safeDue 13 = false ∧ groupCrc ws ≠ s.fab.crc[g])) ∧
    (∃ (s : State) (v : Word), s.regsOn = true ∧ bit v 31 = true) ∧
    (∃ (s : State) (g : Fin 4) (w : Nat) (v : Word), s.regsOn = true ∧ g = fin 3 (fldN (s.reg R.fabSetSel) 0 2) ∧
      w = fldN (s.reg R.fabSetSel) 8 8 ∧ s.mode.mode = .service ∧ g ≠ s.fab.group ∧ w < 160 ∧ settingOk s.fab.set[g] w v = true) ∧
    (∃ (s : State) (g : Fin 4) (w : Nat), s.regsOn = true ∧ g = fin 3 (fldN (s.reg R.fabSetSel) 0 2) ∧
      w = fldN (s.reg R.fabSetSel) 8 8 ∧ (s.mode.mode ≠ .service ∨ g = s.fab.group)) :=
  ⟨⟨{ (onDue) with mode := { (onDue).mode with past10 := true } }, 0, tFab, tChain, by decide +kernel⟩,
   ⟨on, 0, tFab, by decide +kernel⟩,
   ⟨{ on with cfg := { on.cfg with img := some { tImage with fab := { tFab with timer := Vector.replicate 32 { start := 0, reset := 0, mode := 1, en := true } } } }, fab := { on.fab with timer := Vector.replicate 32 { cnt := 0, out := true } } },
     0, { tFab with timer := Vector.replicate 32 { start := 0, reset := 0, mode := 1, en := true } }, by decide +kernel⟩,
   ⟨on, by decide +kernel⟩,
   ⟨on, by decide +kernel⟩,
   ⟨{ on with mode := { on.mode with mode := .protect } }, by decide +kernel⟩,
   ⟨{ on with fab := { on.fab with set := Vector.replicate 4 [0], crc := Vector.replicate 4 (groupCrc [0]) } }, 0, 1,
     by decide +kernel⟩,
   ⟨on, 0, 0, 1, by decide +kernel⟩,
   ⟨on, 0x80000000, by decide +kernel⟩,
   ⟨{ (on.setReg R.fabSetSel 1) with mode := { (on.setReg R.fabSetSel 1).mode with mode := .service } }, 1, 0, 0,
     by decide +kernel⟩,
   ⟨on, 0, 0, by decide +kernel⟩⟩

set_option maxRecDepth 20000 in
/-- The hypotheses of TripAndDriverEventsTakeEffect are met. -/
theorem wit_TripAndDriverEventsTakeEffect :
    (∃ (s : State) (v : Word) (c : FabCfg), s.regsOn = true ∧ s.fabCfg = some c ∧ s.fabOn = true ∧ fld v 16 16 = 0x7E51) ∧
    (∃ (s : State) (v : Word) (c : FabCfg), s.regsOn = true ∧ s.fabCfg = some c ∧ s.fabOn = true ∧ fld v 16 16 ≠ 0x7E51) ∧
    (∃ (s : State) (c : FabCfg) (m : BitVec 12), m = c.latchedMask s.fab.rstReq ∧ m ≠ 0) ∧
    (∃ (s : State) (d : Fin 4), s.fab.kdrv.getLsbD d.val = true) ∧
    (∃ (s : State) (elem : BitVec 10), s.fabOn = true ∧ 8 ≤ elem.toNat ∧ elem.toNat < 512 ∧ s.safeDue 13 = false) ∧
    (∃ (s : State) (out : Fin 36) (i : Nat), s.fabOn = true ∧ s.safeDue 14 = false ∧ s.rbIndex out = some i) :=
  ⟨⟨on, 0x7E510001, tFab, by decide⟩,
   ⟨on, 0, tFab, by decide⟩,
   ⟨{ on with fab := { on.fab with rstReq := 1 } }, tFab, 1, by decide⟩,
   ⟨{ on with fab := { on.fab with kdrv := 1 } }, 0, by decide⟩,
   ⟨on, 8, by decide⟩,
   ⟨on, 0, 0, by decide⟩⟩

/-- The hypotheses of RecorderEventsTakeEffect are met. -/
theorem wit_RecorderEventsTakeEffect :
    (∃ (s : State) (c : RecCfg) (n : Fin 8), s.recCfg = some c ∧ s.recRuns = true ∧ s.recd.active = some n ∧
      (s.recd.slot[n]).st = .capture ∧ s.recd.brmCtl = 0 ∧ (∀ q : Fin 4, (s.recd.seqs[q]).en = false)) ∧
    (∃ (s : State) (c : RecCfg), s.recCfg = some c ∧ s.recRuns = true ∧ s.recd.active = none ∧ s.recd.arm = true ∧
      s.running = true ∧ s.mode.starting = false ∧ s.mode.m9 = none ∧ s.mode.pf = false ∧ 0 < s.cells c ∧ 0 < c.nslot ∧
      (s.recd.slot[(0 : Fin 8)]).st = .free ∧ s.recd.brmCtl = 0 ∧ (∀ q : Fin 4, (s.recd.seqs[q]).en = false)) ∧
    (∃ (s : State) (c : RecCfg) (q : Fin 4), s.recCfg = some c ∧ s.recRuns = true ∧ (s.recd.seqs[q]).stopped = false) ∧
    (∃ (s : State) (c : RecCfg), s.regsOn = true ∧ s.recCfg = some c ∧ s.recd.arm = false) ∧
    (∃ (s : State) (c : RecCfg), s.regsOn = true ∧ s.recCfg = some c ∧ s.recd.active = none) ∧
    (∃ (s : State) (c : RecCfg) (n : Fin 8), s.regsOn = true ∧ s.recCfg = some c ∧ s.recd.active = some n ∧
      (s.recd.slot[n]).st = .capture) ∧
    (∃ (s : State), s.regsOn = true) ∧
    (∃ (s : State) (c : RecCfg) (n : Fin 8) (rest : List (Fin 8)), s.recCfg = some c ∧ s.recd.order = n :: rest ∧
      s.mode.coreOn = true ∧ s.mode.starting = false ∧ s.recd.known = true ∧ s.recd.retried = true) ∧
    (∃ (s : State) (c : RecCfg) (n : Fin 8) (rest : List (Fin 8)), s.recCfg = some c ∧ s.recd.order = n :: rest ∧
      s.mode.coreOn = true ∧ s.mode.starting = false ∧ s.recd.known = true ∧ s.recd.retried = false ∧ s.bscan = false ∧
      s.recd.wptr + 1 < s.cells c) ∧
    (∃ (s : State) (c : RecCfg) (n : Fin 8) (rest : List (Fin 8)) (o : BitVec 19), s.recCfg = some c ∧
      s.recd.order = n :: rest ∧ s.mode.coreOn = true ∧ s.mode.starting = false ∧ s.recd.known = true ∧
      (s.recd.slot[n]).ecc = false ∧ n.val < c.nslot ∧ o.toNat < c.slotBytes) :=
  ⟨⟨{ on with recd := { on.recd with active := some 0, brmCtl := 0, slot := Vector.replicate 8 { RecSlot.reset with st := .capture } } },
     { nslot := 2, rate := 10, prePct := 50, post := 4, ch := [0] }, 0, by decide⟩,
   ⟨{ on with recd := { on.recd with active := none, arm := true, brmCtl := 0 }, mode := { on.mode with starting := false, m9 := none, pf := false } },
     { nslot := 2, rate := 10, prePct := 50, post := 4, ch := [0] }, by decide⟩,
   ⟨on, { nslot := 2, rate := 10, prePct := 50, post := 4, ch := [0] }, 0, by decide⟩,
   ⟨{ on with recd := { on.recd with arm := false } }, { nslot := 2, rate := 10, prePct := 50, post := 4, ch := [0] },
     by decide⟩,
   ⟨{ on with recd := { on.recd with active := none } }, { nslot := 2, rate := 10, prePct := 50, post := 4, ch := [0] },
     by decide⟩,
   ⟨{ on with recd := { on.recd with active := some 0, slot := Vector.replicate 8 { RecSlot.reset with st := .capture } } },
     { nslot := 2, rate := 10, prePct := 50, post := 4, ch := [0] }, 0, by decide⟩,
   ⟨on, by decide⟩,
   ⟨{ on with recd := { on.recd with order := [0], known := true, retried := true }, mode := { on.mode with coreOn := true, starting := false } },
     { nslot := 2, rate := 10, prePct := 50, post := 4, ch := [0] }, 0, ([]), by decide⟩,
   ⟨{ on with recd := { on.recd with order := [0], known := true, retried := false }, mode := { on.mode with coreOn := true, starting := false } },
     { nslot := 2, rate := 10, prePct := 50, post := 4, ch := [0] }, 0, ([]), by decide⟩,
   ⟨{ on with recd := { on.recd with order := [0], known := true, retried := false }, mode := { on.mode with coreOn := true, starting := false } },
     { nslot := 2, rate := 10, prePct := 50, post := 4, ch := [0] }, 0, ([]), 0, by decide⟩⟩

/-- The hypotheses of IntegerOperationsWriteResult are met. -/
theorem wit_IntegerOperationsWriteResult :
    (∃ (s : State) (o : SylEnc), BundleReady s o [o.rd, o.ra, o.rb] ∧ o.ext = none ∧ o.f = 0) ∧
    (∃ (s : State) (o : SylEnc), BundleReady s o [o.rd, o.ra] ∧ (∀ e, o.ext = some e → e.extractLsb' 23 6 = 0)) ∧
    (∃ (s : State) (o : SylEnc), BundleReady s o [o.rd, o.ra] ∧ o.ext = none ∧ (o.rb ++ o.f : BitVec 9).toNat < 32) :=
  ⟨⟨on, { pg := 0, stop := true, rd := 1, ra := 2, rb := 3, f := 0, ext := none },
     by unfold BundleReady BundleStart; decide⟩,
   ⟨on, { pg := 0, stop := true, rd := 1, ra := 2, rb := 3, f := 0, ext := none },
     by unfold BundleReady BundleStart; decide, (by intro e h; cases h)⟩,
   ⟨on, { pg := 0, stop := true, rd := 1, ra := 2, rb := 2, f := 1, ext := none },
     by unfold BundleReady BundleStart; decide⟩⟩

/-- The hypotheses of TemperatureCrossingsTakeEffect are met. -/
theorem wit_TemperatureCrossingsTakeEffect :
    (∃ (s : State) (n : Fin 3), s.mode.coreOn = true ∧ 8 ≤ s.pwr.tHigh[n] ∧ s.pwr.twarn.getLsbD n.val = false) ∧
    (∃ (s : State) (n : Fin 3), s.mode.coreOn = true ∧ 8 ≤ s.pwr.tLow[n] ∧ s.pwr.twarn.getLsbD n.val = true) ∧
    (∃ (s : State) (n : Fin 3), s.mode.coreOn = true ∧ 8 ≤ s.pwr.tShut[n] ∧ s.safeDue 12 = false) ∧
    (∃ (s : State) (n : Fin 3), s.mode.coreOn = true ∧ s.pwr.tShut[n] < 8 ∧ 8 ≤ s.pwr.tOut[n] ∧ s.safeDue 12 = false) ∧
    (∃ (s : State), s.mode.coreOn = true) :=
  ⟨⟨{ on with mode := { on.mode with coreOn := true }, pwr := { on.pwr with tHigh := Vector.replicate 3 8 } }, 0,
     by decide⟩,
   ⟨{ on with mode := { on.mode with coreOn := true }, pwr := { on.pwr with tLow := Vector.replicate 3 8, twarn := 7 } }, 0,
     by decide⟩,
   ⟨{ on with mode := { on.mode with coreOn := true }, pwr := { on.pwr with tShut := Vector.replicate 3 8 } }, 0,
     by decide⟩,
   ⟨{ on with mode := { on.mode with coreOn := true }, pwr := { on.pwr with tOut := Vector.replicate 3 8 } }, 0,
     by decide⟩,
   ⟨{ on with mode := { on.mode with coreOn := true } }, by decide⟩⟩

/-- The hypotheses of CompareAndPredicateLogicWritePredicates are met. -/
theorem wit_CompareAndPredicateLogicWritePredicates :
    (∃ (s : State) (o : SylEnc) (pd : BitVec 3) (pe : BitVec 3), BundleReady s o [o.ra, o.rb] ∧ o.ext = none ∧ o.f = 0 ∧
      o.rd = pe ++ pd ∧ (pd = pe → pd = 0)) ∧
    (∃ (s : State) (o : SylEnc) (pd : BitVec 3) (pe : BitVec 3), BundleReady s o [o.ra] ∧ (∀ e,
      o.ext = some e → e.extractLsb' 23 6 = 0) ∧ o.rd = pe ++ pd ∧ (pd = pe → pd = 0)) ∧
    (∃ (s : State) (o : SylEnc), BundleReady s o [] ∧ o.ext = none ∧ o.rd.toNat < 8 ∧ o.ra.toNat < 8 ∧ o.rb.toNat < 8 ∧
      o.f.toNat < 4) :=
  ⟨⟨on, { pg := 0, stop := true, rd := 17, ra := 2, rb := 3, f := 0, ext := none }, 1, 2,
     by unfold BundleReady BundleStart; decide⟩,
   ⟨on, { pg := 0, stop := true, rd := 17, ra := 2, rb := 1, f := 2, ext := none }, 1, 2,
     by unfold BundleReady BundleStart; decide, (by intro e h; cases h), by decide, by decide⟩,
   ⟨on, { pg := 0, stop := true, rd := 3, ra := 0, rb := 1, f := 1, ext := none },
     by unfold BundleReady BundleStart; decide⟩⟩

/-- The hypotheses of SelectExtendCountDivideTrapAddWriteResult are met. -/
theorem wit_SelectExtendCountDivideTrapAddWriteResult :
    (∃ (s : State) (o : SylEnc), BundleReady s o [o.rd, o.ra] ∧ o.ext = none ∧ o.rb = 0 ∧ o.f = 1) ∧
    (∃ (s : State) (o : SylEnc), BundleReady s o [o.rd, o.ra] ∧ o.ext = none ∧ o.rb = 0 ∧ o.f = 2) ∧
    (∃ (s : State) (o : SylEnc), BundleReady s o [o.rd, o.ra] ∧ o.ext = none ∧ o.rb = 0 ∧ o.f = 3) ∧
    (∃ (s : State) (o : SylEnc) (n : Nat), (let a := s.rf o.ra; BundleReady s o [o.rd, o.ra] ∧ o.ext = none ∧ o.rb = 0 ∧
      o.f = 0 ∧ n ≤ 32 ∧ (∀ i, 32 - n ≤ i → a.getLsbD i = false) ∧ (n < 32 → a.getLsbD (31 - n) = true))) ∧
    (∃ (s : State) (o : SylEnc), (let a := s.rf o.ra; let b := s.rf o.rb; BundleReady s o [o.rd, o.ra, o.rb] ∧ o.ext = none ∧
      o.f = 0 ∧ (BitVec.ofInt 32 (a.toInt + b.toInt)).toInt = a.toInt + b.toInt)) ∧
    (∃ (s : State) (o : SylEnc), (let a := s.rf o.ra; let b := s.rf o.rb; BundleReady s o [o.rd, o.ra, o.rb] ∧ o.ext = none ∧
      o.f = 0 ∧ (BitVec.ofInt 32 (a.toInt - b.toInt)).toInt = a.toInt - b.toInt)) ∧
    (∃ (s : State) (o : SylEnc), (let b := s.rf o.rb; BundleReady s o [o.rd, o.ra, o.rb] ∧ o.ext = none ∧ o.f = 0 ∧ b ≠ 0)) :=
  ⟨⟨on, { pg := 0, stop := true, rd := 1, ra := 2, rb := 0, f := 1, ext := none },
     by unfold BundleReady BundleStart; decide⟩,
   ⟨on, { pg := 0, stop := true, rd := 1, ra := 2, rb := 0, f := 2, ext := none },
     by unfold BundleReady BundleStart; decide⟩,
   ⟨on, { pg := 0, stop := true, rd := 1, ra := 2, rb := 0, f := 3, ext := none },
     by unfold BundleReady BundleStart; decide⟩,
   ⟨on, { pg := 0, stop := true, rd := 1, ra := 2, rb := 0, f := 0, ext := none }, 3,
     by unfold BundleReady BundleStart; decide, by decide, by decide, by decide,
     by decide, (by
     have k : ∀ i : Fin 32,
     29 ≤ i.val → (on.rf 2).getLsbD i.val = false := by decide
     intro i h
     by_cases hi : i < 32
     · exact k ⟨i,
     hi⟩ h
     · exact BitVec.getLsbD_of_ge _ _ (by omega)), by decide⟩,
   ⟨on, { pg := 0, stop := true, rd := 1, ra := 2, rb := 3, f := 0, ext := none },
     by unfold BundleReady BundleStart; decide⟩,
   ⟨on, { pg := 0, stop := true, rd := 1, ra := 2, rb := 3, f := 0, ext := none },
     by unfold BundleReady BundleStart; decide⟩,
   ⟨on, { pg := 0, stop := true, rd := 1, ra := 2, rb := 3, f := 0, ext := none },
     by unfold BundleReady BundleStart; decide⟩⟩

/-- The hypotheses of LoadsDeliverDtcmBytesAfterTheirDelay are met. -/
theorem wit_LoadsDeliverDtcmBytesAfterTheirDelay :
    (∃ (s : State) (o : SylEnc) (x : Word), BundleReady s o [o.rd, o.ra] ∧ (∀ e, o.ext = some e → e.extractLsb' 23 6 = 0) ∧
      x = s.rf o.ra + immOf o ∧ 0x10000000 ≤ x.toNat ∧ x.toNat + 4 ≤ 0x10040000 ∧ x.toNat % 4 = 0) ∧
    (∃ (s : State) (o : SylEnc) (x : Word), BundleReady s o [o.rd, o.ra] ∧ (∀ e, o.ext = some e → e.extractLsb' 23 6 = 0) ∧
      x = s.rf o.ra + immOf o ∧ 0x10000000 ≤ x.toNat ∧ x.toNat + 2 ≤ 0x10040000 ∧ x.toNat % 2 = 0) ∧
    (∃ (s : State) (o : SylEnc) (x : Word), BundleReady s o [o.rd, o.ra] ∧ (∀ e, o.ext = some e → e.extractLsb' 23 6 = 0) ∧
      x = s.rf o.ra + immOf o ∧ 0x10000000 ≤ x.toNat ∧ x.toNat < 0x10040000) ∧
    (∃ (s : State) (o : SylEnc) (x : Word), BundleReady s o [o.rd, o.ra, o.rb] ∧ o.ext = none ∧ x = s.rf o.ra + s.rf o.rb ∧
      0x10000000 ≤ x.toNat ∧ x.toNat < 0x10040000 ∧ x.toNat % 4 = 0 ∧ o.f = 0) ∧
    (∃ (s : State) (o : SylEnc) (x : Word), BundleReady s o [o.rd, o.ra, o.rb] ∧ o.ext = none ∧ x = s.rf o.ra + s.rf o.rb ∧
      0x10000000 ≤ x.toNat ∧ x.toNat < 0x10040000 ∧ x.toNat % 4 = 0 ∧ o.f = 1) ∧
    (∃ (s : State) (o : SylEnc) (x : Word), BundleReady s o [o.rd, o.ra, o.rb] ∧ o.ext = none ∧ x = s.rf o.ra + s.rf o.rb ∧
      0x10000000 ≤ x.toNat ∧ x.toNat < 0x10040000 ∧ x.toNat % 4 = 0 ∧ o.f = 2) ∧
    (∃ (s : State) (o : SylEnc) (x : Word), BundleReady s o [o.rd, o.ra, o.rb] ∧ o.ext = none ∧ x = s.rf o.ra + s.rf o.rb ∧
      0x10000000 ≤ x.toNat ∧ x.toNat < 0x10040000 ∧ x.toNat % 4 = 0 ∧ o.f = 3) ∧
    (∃ (s : State) (o : SylEnc) (x : Word), BundleReady s o [o.rd, o.ra, o.rb] ∧ o.ext = none ∧ x = s.rf o.ra + s.rf o.rb ∧
      0x10000000 ≤ x.toNat ∧ x.toNat < 0x10040000 ∧ x.toNat % 4 = 0 ∧ o.f = 4) :=
  ⟨⟨on, { pg := 0, stop := true, rd := 1, ra := 2, rb := 3, f := 0, ext := none }, 0x10000028,
     by unfold BundleReady BundleStart; decide, (by intro e h; cases h), by decide, by decide,
     by decide, by decide⟩,
   ⟨on, { pg := 0, stop := true, rd := 1, ra := 2, rb := 3, f := 0, ext := none }, 0x10000028,
     by unfold BundleReady BundleStart; decide, (by intro e h; cases h), by decide, by decide,
     by decide, by decide⟩,
   ⟨on, { pg := 0, stop := true, rd := 1, ra := 2, rb := 3, f := 0, ext := none }, 0x10000028,
     by unfold BundleReady BundleStart; decide, (by intro e h; cases h), by decide, by decide,
     by decide⟩,
   ⟨on, { pg := 0, stop := true, rd := 1, ra := 2, rb := 3, f := 0, ext := none }, 0x10000030,
     by unfold BundleReady BundleStart; decide⟩,
   ⟨on, { pg := 0, stop := true, rd := 1, ra := 2, rb := 3, f := 1, ext := none }, 0x10000030,
     by unfold BundleReady BundleStart; decide⟩,
   ⟨on, { pg := 0, stop := true, rd := 1, ra := 2, rb := 3, f := 2, ext := none }, 0x10000030,
     by unfold BundleReady BundleStart; decide⟩,
   ⟨on, { pg := 0, stop := true, rd := 1, ra := 2, rb := 3, f := 3, ext := none }, 0x10000030,
     by unfold BundleReady BundleStart; decide⟩,
   ⟨on, { pg := 0, stop := true, rd := 1, ra := 2, rb := 3, f := 4, ext := none }, 0x10000030,
     by unfold BundleReady BundleStart; decide⟩⟩

/-- The hypotheses of StoresWriteOnlyTheirDtcmBytes are met. -/
theorem wit_StoresWriteOnlyTheirDtcmBytes :
    (∃ (s : State) (o : SylEnc) (x : Word), BundleReady s o [o.rd, o.ra] ∧ (∀ e, o.ext = some e → e.extractLsb' 23 6 = 0) ∧
      x = s.rf o.ra + immOf o ∧ 0x10000000 ≤ x.toNat ∧ x.toNat < 0x10040000 ∧ (x.toNat < 0x1003E000 ∨ 0x1003F000 ≤ x.toNat) ∧
      x.toNat % 4 = 0) ∧
    (∃ (s : State) (o : SylEnc) (x : Word), BundleReady s o [o.rd, o.ra] ∧ (∀ e, o.ext = some e → e.extractLsb' 23 6 = 0) ∧
      x = s.rf o.ra + immOf o ∧ 0x10000000 ≤ x.toNat ∧ x.toNat < 0x10040000 ∧ (x.toNat < 0x1003E000 ∨ 0x1003F000 ≤ x.toNat) ∧
      x.toNat % 2 = 0) ∧
    (∃ (s : State) (o : SylEnc) (x : Word), BundleReady s o [o.rd, o.ra, o.rb] ∧ o.ext = none ∧ x = s.rf o.ra + s.rf o.rb ∧
      0x10000000 ≤ x.toNat ∧ x.toNat < 0x10040000 ∧ (x.toNat < 0x1003E000 ∨ 0x1003F000 ≤ x.toNat) ∧ o.f = 0 ∧ x.toNat % 4 = 0) ∧
    (∃ (s : State) (o : SylEnc) (x : Word), BundleReady s o [o.rd, o.ra, o.rb] ∧ o.ext = none ∧ x = s.rf o.ra + s.rf o.rb ∧
      0x10000000 ≤ x.toNat ∧ x.toNat < 0x10040000 ∧ (x.toNat < 0x1003E000 ∨ 0x1003F000 ≤ x.toNat) ∧ o.f = 1 ∧ x.toNat % 2 = 0) ∧
    (∃ (s : State) (o : SylEnc) (x : Word), BundleReady s o [o.rd, o.ra, o.rb] ∧ o.ext = none ∧ x = s.rf o.ra + s.rf o.rb ∧
      0x10000000 ≤ x.toNat ∧ x.toNat < 0x10040000 ∧ (x.toNat < 0x1003E000 ∨ 0x1003F000 ≤ x.toNat) ∧ o.f = 3) ∧
    (∃ (a : Nat) (n : Nat) (i : Nat), n ≤ 4 ∧ (i < a ∨ a + n ≤ i)) :=
  ⟨⟨on, { pg := 0, stop := true, rd := 1, ra := 2, rb := 3, f := 0, ext := none }, 0x10000028,
     by unfold BundleReady BundleStart; decide, (by intro e h; cases h), by decide, by decide,
     by decide, by decide, by decide⟩,
   ⟨on, { pg := 0, stop := true, rd := 1, ra := 2, rb := 3, f := 0, ext := none }, 0x10000028,
     by unfold BundleReady BundleStart; decide, (by intro e h; cases h), by decide, by decide,
     by decide, by decide, by decide⟩,
   ⟨on, { pg := 0, stop := true, rd := 1, ra := 2, rb := 3, f := 0, ext := none }, 0x10000030,
     by unfold BundleReady BundleStart; decide⟩,
   ⟨on, { pg := 0, stop := true, rd := 1, ra := 2, rb := 3, f := 1, ext := none }, 0x10000030,
     by unfold BundleReady BundleStart; decide⟩,
   ⟨on, { pg := 0, stop := true, rd := 1, ra := 2, rb := 3, f := 3, ext := none }, 0x10000030,
     by unfold BundleReady BundleStart; decide⟩,
   ⟨0, 0, 0, by decide⟩⟩

/-- The hypotheses of ControlTransfersMoveThePcAndTheWindow are met. -/
theorem wit_ControlTransfersMoveThePcAndTheWindow :
    (∃ (s : State) (o : SylEnc) (t : Word), BundleReady s o [] ∧ o.ext = none ∧ t.toNat % 4 = 0 ∧
      t = s.core.pc + ((o.rd ++ o.ra ++ o.rb ++ o.f : BitVec 21).signExtend 32) <<< 2 ∧ s.core.df = false ∧
      s.core.wtrap = false ∧ s.core.cwp + 1 ≠ s.core.rw) ∧
    (∃ (s : State) (o : SylEnc), BundleReady s o [o.ra] ∧ o.ext = none ∧ o.rd = 0 ∧ o.rb = 0 ∧ o.f = 0 ∧
      (s.rf o.ra).toNat % 4 = 0 ∧ s.core.df = false ∧ s.core.wtrap = false ∧ s.core.cwp + 1 ≠ s.core.rw) ∧
    (∃ (s : State) (o : SylEnc), BundleReady s o [] ∧ o.ext = none ∧ o.rd = 0 ∧ o.ra = 0 ∧ o.rb = 0 ∧ o.f = 0 ∧
      s.core.df = false ∧ s.core.wtrap = false ∧ s.core.cwp - 1 ≠ s.core.rw ∧ (s.core.get 39).toNat % 4 = 0) :=
  ⟨⟨{ on with core := { on.core with df := false, wtrap := false } },
     { pg := 0, stop := true, rd := 0, ra := 0, rb := 16, f := 6, ext := none }, 0x218,
     by unfold BundleReady BundleStart; decide⟩,
   ⟨{ on with core := { on.core with df := false, wtrap := false } },
     { pg := 0, stop := true, rd := 0, ra := 2, rb := 0, f := 0, ext := none },
     by unfold BundleReady BundleStart; decide⟩,
   ⟨{ on with core := { on.core with df := false, wtrap := false, rw := 3 } },
     { pg := 0, stop := true, rd := 0, ra := 0, rb := 0, f := 0, ext := none },
     by unfold BundleReady BundleStart; decide⟩⟩

/-- The hypotheses of SystemCallsAndSystemRegistersTakeEffect are met. -/
theorem wit_SystemCallsAndSystemRegistersTakeEffect :
    (∃ (s : State) (o : SylEnc), BundleReady s o [] ∧ o.ext = none ∧ o.rd = 0 ∧ o.ra = 0 ∧ s.core.priv = false) ∧
    (∃ (s : State) (o : SylEnc) (n : Nat), BundleReady s o [o.rd] ∧ o.ext = none ∧ o.ra = 0 ∧ s.core.priv = true ∧
      n = (o.rb ++ o.f : BitVec 9).toNat ∧ srAllocated n = true ∧ n ≠ 8 ∧ n ≠ 9 ∧ (n < 0x20 ∨ 0x30 ≤ n)) ∧
    (∃ (s : State) (o : SylEnc), BundleReady s o [o.rd] ∧ o.ext = none ∧ o.ra = 0 ∧ s.core.priv = true ∧
      (o.rb ++ o.f : BitVec 9).toNat = 8) ∧
    (∃ (s : State) (o : SylEnc), BundleReady s o [o.ra] ∧ o.ext = none ∧ o.rd = 0 ∧ s.core.priv = true ∧
      (o.rb ++ o.f : BitVec 9) = 0x00) ∧
    (∃ (s : State) (o : SylEnc), BundleReady s o [o.ra] ∧ o.ext = none ∧ o.rd = 0 ∧ s.core.priv = true ∧
      (o.rb ++ o.f : BitVec 9) = 0x01) ∧
    (∃ (s : State) (o : SylEnc), BundleReady s o [o.ra] ∧ o.ext = none ∧ o.rd = 0 ∧ s.core.priv = true ∧
      (o.rb ++ o.f : BitVec 9) = 0x05) ∧
    (∃ (s : State) (o : SylEnc), BundleReady s o [o.ra] ∧ o.ext = none ∧ o.rd = 0 ∧ s.core.priv = true ∧
      (o.rb ++ o.f : BitVec 9) = 0x11) ∧
    (∃ (s : State) (o : SylEnc), BundleReady s o [o.ra] ∧ o.ext = none ∧ o.rd = 0 ∧ s.core.priv = true ∧
      (o.rb ++ o.f : BitVec 9) = 0x18) ∧
    (∃ (s : State) (o : SylEnc), BundleReady s o [] ∧ o.ext = none ∧ o.rd = 0 ∧ o.ra = 0 ∧ o.rb = 0 ∧ o.f = 0 ∧
      s.core.priv = true ∧ (s.arbiter s.core.mask).isSome = true) ∧
    (∃ (s : State) (o : SylEnc), BundleReady s o [o.ra] ∧ o.ext = none ∧ o.rd = 0 ∧ o.rb = 0 ∧ o.f = 0 ∧
      s.zve.hasTag ((s.rf o.ra).setWidth 8) = false) :=
  ⟨⟨{ on with core := { on.core with priv := false } },
     { pg := 0, stop := true, rd := 0, ra := 0, rb := 1, f := 2, ext := none },
     by unfold BundleReady BundleStart; decide⟩,
   ⟨{ on with core := { on.core with priv := true } },
     { pg := 0, stop := true, rd := 1, ra := 0, rb := 2, f := 0, ext := none }, 0x10,
     by unfold BundleReady BundleStart; decide⟩,
   ⟨{ on with core := { on.core with priv := true } },
     { pg := 0, stop := true, rd := 1, ra := 0, rb := 1, f := 0, ext := none },
     by unfold BundleReady BundleStart; decide⟩,
   ⟨{ on with core := { on.core with priv := true } },
     { pg := 0, stop := true, rd := 0, ra := 2, rb := 0, f := 0, ext := none },
     by unfold BundleReady BundleStart; decide⟩,
   ⟨{ on with core := { on.core with priv := true } },
     { pg := 0, stop := true, rd := 0, ra := 2, rb := 0, f := 1, ext := none },
     by unfold BundleReady BundleStart; decide⟩,
   ⟨{ on with core := { on.core with priv := true } },
     { pg := 0, stop := true, rd := 0, ra := 2, rb := 0, f := 5, ext := none },
     by unfold BundleReady BundleStart; decide⟩,
   ⟨{ on with core := { on.core with priv := true } },
     { pg := 0, stop := true, rd := 0, ra := 2, rb := 2, f := 1, ext := none },
     by unfold BundleReady BundleStart; decide⟩,
   ⟨{ on with core := { on.core with priv := true } },
     { pg := 0, stop := true, rd := 0, ra := 2, rb := 3, f := 0, ext := none },
     by unfold BundleReady BundleStart; decide⟩,
   ⟨{ (((on.setReg (R.icuCfg 64) 0x105).setReg (R.icuSw 0) 1)) with core := { (((on.setReg (R.icuCfg 64) 0x105).setReg (R.icuSw 0) 1)).core with priv := true, lines2 := (1 <<< 64 : BitVec 128) } },
     { pg := 0, stop := true, rd := 0, ra := 0, rb := 0, f := 0, ext := none },
     by unfold BundleReady BundleStart; decide⟩,
   ⟨on, { pg := 0, stop := true, rd := 0, ra := 2, rb := 0, f := 0, ext := none },
     by unfold BundleReady BundleStart; decide⟩⟩

/-- The hypotheses of EventLogCommandsTakeEffect are met. -/
theorem wit_EventLogCommandsTakeEffect :
    (∃ (s : State) (e : Entry), s.log.offered[s.log.turn]? = some e ∧ s.log.full = true) ∧
    (∃ (s : State) (e : Entry), s.log.offered[s.log.turn]? = some e ∧ s.log.full = false ∧ s.log.staged.length < 95 ∧
      e.code.extractLsb' 12 4 ≠ 8) ∧
    (∃ (s : State) (e : Entry) (st : List Entry), s.log.offered[s.log.turn]? = some e ∧ s.log.full = false ∧
      127 ≤ s.log.staged.length ∧ bumpOvf s.log.staged = some st) ∧
    (∃ (s : State) (e : Entry), s.log.offered[s.log.turn]? = some e ∧ s.log.full = false ∧ s.log.staged.length = 127 ∧
      bumpOvf s.log.staged = none) ∧
    (∃ (s : State) (e : Entry), s.log.offered[s.log.turn]? = some e ∧ s.log.full = false ∧ 128 ≤ s.log.staged.length ∧
      bumpOvf s.log.staged = none) ∧
    (∃ (l : LogSt) (j : Nat) (x : Entry × Nat × Nat × Nat) (y : Entry × Nat × Nat × Nat),
      (l.offered.zip l.ports)[l.turn]? = some y ∧ (l.offered.zip l.ports)[j]? = some x) ∧
    (∃ (s : State) (v : Word), s.regsOn = true ∧ bit v 0 = true ∧ s.mode.past11 = true ∧ s.log.clearing = false ∧
      s.log.flush = none) ∧
    (∃ (s : State) (v : Word) (n : Nat), s.regsOn = true ∧ bit v 0 = true ∧ s.mode.past11 = true ∧ s.log.clearing = false ∧
      s.log.flush = some n) ∧
    (∃ (s : State) (n : Nat) (res : FlushRes), s.log.flush = some n ∧ s.mode.pf = false ∧ res = .done ∧
      n ≤ s.log.reserve - s.log.wptr ∧ s.log.clearWait = false ∧ s.log.again = false ∧ (s.flushN n).2 = false ∧
      s.log.retried = false) ∧
    (∃ (s : State) (n : Nat) (res : FlushRes), s.log.flush = some n ∧ s.mode.pf = false ∧ res = .done ∧
      n ≤ s.log.reserve - s.log.wptr ∧ s.log.clearWait = false ∧ s.log.again = false ∧ (s.flushN n).2 = false ∧
      s.log.retried = true ∧ (s.flushN n).1.log.staged = s.log.staged) ∧
    (∃ (s : State) (a : Area) (k : List Byte), s.mode.coreOn = true ∧ s.mode.past11 = true ∧ s.mode.pf = false ∧
      s.log.clearing = false ∧ s.bscan = false ∧ s.logArea = some (a, k) ∧
      s.log.reserve < min ((s.reserveNeed + 1023) / 1024 * 1024) s.entries) ∧
    (∃ (s : State) (v : Word), s.regsOn = true ∧ v.extractLsb' 12 4 = 0xE) ∧
    (∃ (s : State) (v : Word), s.regsOn = true ∧ v.extractLsb' 12 4 ≠ 0xE) ∧
    (∃ (s : State) (e : Entry), s.regsOn = true ∧ s.log.win = .fetching ∧ s.log.clearing = false ∧
      s.log.wptr ≤ s.log.cursor.toNat ∧ s.log.staged[s.log.cursor.toNat - s.log.wptr]? = some e) ∧
    (∃ (s : State), s.running = true ∧ s.mode.pf = false ∧ s.core.priv = true ∧ s.log.win = .valid ∧ s.log.clearing = false ∧
      s.log.cursor.toNat + 1 < s.log.wptr + s.log.staged.length ∧ s.log.cursor.toNat + 1 < 2 ^ 20 ∧
      s.latched (s.latchKey .core) 0x9005C = none) ∧
    (∃ (s : State) (v : Word), s.regsOn = true ∧ s.mode.mode = .service ∧ v.extractLsb' 16 16 = (0x6C0E : BitVec 16) ∧
      (v.extractLsb' 0 16).toNat = s.log.wptr % 65536 ∧ s.log.flush = none) ∧
    (∃ (s : State), s.regsOn = true ∧ s.mode.mode ≠ .service) ∧
    (∃ (s : State) (a : Area) (k : List Byte), s.mode.coreOn = true ∧ s.log.clearing = true ∧ s.mode.pf = false ∧
      s.log.flush = none ∧ s.bscan = false ∧ s.logArea = some (a, k)) ∧
    (∃ (s : State) (n : Nat) (res : FlushRes), s.log.flush = some n ∧ s.mode.pf = false ∧ res = .done ∧
      n ≤ s.log.reserve - s.log.wptr ∧ s.log.clearWait = false ∧ s.log.again = false ∧ (s.flushN n).2 = true ∧
      s.log.wptr + n < s.entries ∧ s.logArea.isSome = true) ∧
    (∃ (s : State) (n : Nat) (res : FlushRes), s.log.flush = some n ∧ s.mode.pf = false ∧ res = .done ∧
      n ≤ s.log.reserve - s.log.wptr ∧ s.log.clearWait = false ∧ s.log.again = false ∧ (s.flushN n).2 = true ∧
      s.logArea = none ∧ n ≤ s.log.staged.length) :=
  ⟨⟨{ on with log := { on.log with full := true, offered := List.replicate 1 tEntry, ports := List.replicate 1 (1, 1, 9) } },
     tEntry,
     by decide +kernel⟩,
   ⟨{ on with log := { on.log with full := false, offered := List.replicate 1 tEntry, ports := List.replicate 1 (1, 1, 9) } },
     tEntry,
     by decide +kernel⟩,
   ⟨{ on with log := { on.log with full := false, offered := List.replicate 1 tEntry, ports := List.replicate 1 (1, 1, 9), staged := [{ code := 0x0030, source := 7, td := false, coarse := false, pf := false, hw := true, stamp := 5, p0 := 1, p1 := 2, p2 := 3, p3 := 4 }] ++ (List.replicate 126 tEntry) } },
     tEntry,
     ([{ code := 0x0030, source := 7, td := false, coarse := false, pf := false, hw := true, stamp := 5, p0 := 2, p1 := 2, p2 := 3, p3 := 4 }] ++ (List.replicate 126 tEntry)),
     by decide +kernel⟩,
   ⟨{ on with log := { on.log with full := false, offered := List.replicate 1 tEntry, ports := List.replicate 1 (1, 1, 9), staged := (List.replicate 127 tEntry) } },
     tEntry,
     by decide +kernel⟩,
   ⟨{ on with log := { on.log with full := false, offered := List.replicate 1 tEntry, ports := List.replicate 1 (1, 1, 9), staged := (List.replicate 128 tEntry) } },
     tEntry,
     by decide +kernel⟩,
   ⟨{ LogSt.reset with offered := [tEntry], ports := [(1, 1, 9)] },
     0,
     ((tEntry,
     1, 1, 9)),
     ((tEntry,
     1, 1, 9)), by decide +kernel⟩,
   ⟨{ on with mode := { on.mode with past11 := true }, log := { on.log with clearing := false, flush := none } }, 1,
     by decide +kernel⟩,
   ⟨{ on with mode := { on.mode with past11 := true }, log := { on.log with clearing := false, flush := some (3) } }, 1, 3,
     by decide +kernel⟩,
   ⟨{ on with log := { on.log with flush := some (2), clearWait := false, again := false, retried := false, reserve := 2, staged := (List.replicate 2 tEntry) }, mode := { on.mode with pf := false }, cfg := { on.cfg with img := some tImageLog }, key := { on.key with loaded := vput on.key.loaded 1 (some (List.replicate 16 0)), wc := Vector.replicate 12 0xFFFFFFFF } },
     2, .done, by decide +kernel⟩,
   ⟨{ on with log := { on.log with flush := some (2), clearWait := false, again := false, retried := true, reserve := 2, staged := (List.replicate 2 tEntry) }, mode := { on.mode with pf := false }, cfg := { on.cfg with img := some tImageLog }, key := { on.key with loaded := vput on.key.loaded 1 (some (List.replicate 16 0)), wc := Vector.replicate 12 0xFFFFFFFF } },
     2, .done, by decide +kernel⟩,
   ⟨{ on with mode := { on.mode with coreOn := true, past11 := true, pf := false }, log := { on.log with clearing := false, reserve := 5 }, cfg := { on.cfg with img := some tImageLog }, key := { on.key with loaded := vput on.key.loaded 1 (some (List.replicate 16 0)) } },
     { code := 1, base := 0x100000, limit := 0x10FFFF, tag := 0x300000, ctr := 0x400000, key := 1, kid := 0 },
     (List.replicate 16 0), by decide +kernel⟩,
   ⟨on, 0xE123, by decide +kernel⟩,
   ⟨on, 0, by decide +kernel⟩,
   ⟨{ on with log := { on.log with win := .fetching, clearing := false, staged := [tEntry] } },
     tEntry,
     by decide +kernel⟩,
   ⟨{ on with mode := { on.mode with pf := false }, core := { on.core with priv := true }, log := { on.log with win := .valid, clearing := false, staged := List.replicate 3 tEntry } },
     by decide +kernel⟩,
   ⟨{ on with mode := { on.mode with mode := .service }, log := { on.log with flush := none } }, 0x6C0E0000, by decide +kernel⟩,
   ⟨on, by decide +kernel⟩,
   ⟨{ on with mode := { on.mode with coreOn := true, pf := false }, log := { on.log with clearing := true, flush := none }, cfg := { on.cfg with img := some tImageLog }, key := { on.key with loaded := vput on.key.loaded 1 (some (List.replicate 16 0)) } },
     { code := 1, base := 0x100000, limit := 0x10FFFF, tag := 0x300000, ctr := 0x400000, key := 1, kid := 0 },
     (List.replicate 16 0), by decide +kernel⟩,
   ⟨{ on with log := { on.log with flush := some 0, clearWait := false, again := false, wptr := 1, reserve := 2048, staged := List.replicate 5 tEntry }, mode := { on.mode with pf := false }, cfg := { on.cfg with img := some tImageLog }, key := { on.key with loaded := vput on.key.loaded 1 (some (List.replicate 16 0)) } },
     0, .done, by decide +kernel⟩,
   ⟨{ on with log := { on.log with flush := some 2, clearWait := false, again := false, reserve := 2048, staged := List.replicate 5 tEntry }, mode := { on.mode with pf := false } },
     2, .done, by decide +kernel⟩⟩

/-- The hypotheses of EretBreakZissAndCommitTakeEffect are met. -/
theorem wit_EretBreakZissAndCommitTakeEffect :
    (∃ (s : State) (o : SylEnc),
      (let w (i : Nat) : Word := (wordsLE 8 (mread 0 s.mem.dtcm (s.core.efp.toNat - 0x10000000) 32)).getD i 0; BundleReady s o [] ∧
      o.ext = none ∧ o.rd = 0 ∧ o.ra = 0 ∧ o.rb = 0 ∧ o.f = 0 ∧ s.core.priv = true ∧ s.core.df = false ∧ s.core.scan = false ∧
      s.core.loads = [] ∧ 0x10000000 ≤ s.core.efp.toNat ∧ s.core.efp.toNat + 32 ≤ 0x10040000 ∧ s.core.efp.toNat % 4 = 0 ∧
      bit (w 1) 1 = false)) ∧
    (∃ (s : State) (o : SylEnc) (x : Desc), BundleReady s o [] ∧ o.ext = none ∧ o.rd = 0 ∧ o.ra = 0 ∧ s.core.df = false ∧
      s.core.wtrap = false ∧ s.core.scan = false ∧ s.core.loads = [] ∧ s.core.cwp + 1 ≠ s.core.rw ∧ s.descOf 13 = some x ∧
      pushOk (s.core.at 31) = true) ∧
    (∃ (s : State) (o : SylEnc) (a : Word),
      (let d (i : Nat) : Word := s.dtcmWord (a.toNat - 0x10000000 + 4 * i); let l : ZLink := { w0 := d 0, w1 := d 1, w2 := d 2, w3 := d 3, tag := s.zve.tag, pc := s.core.pc }; BundleReady s o [o.rd, o.ra] ∧
      o.ext = none ∧ o.rb = 0 ∧ a = s.rf o.ra ∧ a.toNat % 16 = 0 ∧ 0x10000000 ≤ a.toNat ∧ a.toNat + 16 ≤ 0x10040000 ∧
      s.time.pwr.getLsbD 1 = true ∧ s.zve.coverage ≠ 3 ∧ s.zve.opened s.core.scan = none ∧ zvCheck [] l s.core.precise = true ∧
      s.zve.held < 8 ∧ (s.core.scan = true ∨ s.zve.heldKernel < 4))) ∧
    (∃ (s : State) (o : SylEnc) (a : Word),
      (let d (i : Nat) : Word := s.dtcmWord (a.toNat - 0x10000000 + 4 * i); let l : ZLink := { w0 := d 0, w1 := d 1, w2 := d 2, w3 := d 3, tag := s.zve.tag, pc := s.core.pc }; BundleReady s o [o.rd, o.ra] ∧
      o.ext = none ∧ o.rb = 0 ∧ a = s.rf o.ra ∧ a.toNat % 16 = 0 ∧ 0x10000000 ≤ a.toNat ∧ a.toNat + 16 ≤ 0x10040000 ∧
      s.time.pwr.getLsbD 1 = true ∧ s.zve.coverage ≠ 3 ∧ s.zve.opened s.core.scan = none ∧ zvCheck [] l s.core.precise = true ∧
      8 ≤ s.zve.held)) ∧
    (∃ (s : State) (o : SylEnc), BundleReady s o [] ∧ o.ext = none ∧ o.rd = 0 ∧ o.ra = 0 ∧ o.rb = 0 ∧ o.f = 0 ∧
      s.core.scan = true ∧ s.scanCycle + 300 ≤ s.periodCyc) :=
  ⟨⟨{ on with core := { on.core with priv := true, df := false, scan := false, loads := [], efp := 0x10002000 } },
     { pg := 0, stop := true, rd := 0, ra := 0, rb := 0, f := 0, ext := none },
     by unfold BundleReady BundleStart; decide⟩,
   ⟨{ on with core := { on.core with df := false, wtrap := false, scan := false, loads := [], edtb := 0x10004000, edtbSet := true, r := (Vector.replicate 164 0).set 31 0x10020000 }, mem := { on.mem with dtcm := mwrite 0 [] (0x4000 + 208) [0, 8, 0, 0, 0, 0, 3, 16, 81, 0, 0, 0, 160, 231, 0, 0] } },
     { pg := 0, stop := true, rd := 0, ra := 0, rb := 0, f := 0, ext := none },
     { handler := 0x800, sp := 0x10030000, tpriv := true, own := false, chain := false, ie := false, mask := 5 },
     by unfold BundleReady BundleStart; decide⟩,
   ⟨{ on with core := { on.core with scan := true }, mem := { on.mem with dtcm := mwrite 0 [] 0x10 [65, 0, 1, 0, 1, 128, 0, 0, 2, 128, 0, 0, 3, 128, 0, 0] } },
     { pg := 0, stop := true, rd := 1, ra := 2, rb := 0, f := 1, ext := none }, 0x10000010,
     by unfold BundleReady BundleStart; decide⟩,
   ⟨{ on with mem := { on.mem with dtcm := mwrite 0 [] 0x10 [65, 0, 1, 0, 1, 128, 0, 0, 2, 128, 0, 0, 3, 128, 0, 0] }, zve := { on.zve with queue := List.replicate 8 (tLink 65601 32771) } },
     { pg := 0, stop := true, rd := 1, ra := 2, rb := 0, f := 1, ext := none }, 0x10000010,
     by unfold BundleReady BundleStart; decide⟩,
   ⟨{ on with core := { on.core with scan := true } },
     { pg := 0, stop := true, rd := 0, ra := 0, rb := 0, f := 0, ext := none },
     by unfold BundleReady BundleStart; decide⟩⟩

set_option maxRecDepth 20000 in
/-- The hypotheses of ScanCycleEventsTakeEffect are met. -/
theorem wit_ScanCycleEventsTakeEffect :
    (∃ (s : State) (pu : BitVec 2) (l : List Word) (w : Word), s.mapsWf = true ∧ s.scanDue = true ∧ s.core.loads = [] ∧
      s.core.cwp + 1 ≠ s.core.rw ∧ pushOk s.core.scanSp = true ∧ pu.getLsbD 0 = false ∧ s.scan.latch = some (w :: l) ∧
      l.length = 1023) ∧
    (∃ (s : State) (pu : BitVec 2), s.mapsWf = true ∧ s.scanDue = true ∧ s.core.loads = [] ∧ s.core.cwp + 1 ≠ s.core.rw ∧
      pushOk s.core.scanSp = true ∧ pu.getLsbD 0 = false ∧ s.scan.latch = none ∧ s.mode.starting = false ∧
      s.fab.edgeDone = true ∧ s.zve.run = none) ∧
    (∃ (s : State) (pu : BitVec 2), s.scanDue = true ∧ s.scan.latch.isSome = true ∧ s.core.cwp + 1 ≠ s.core.rw ∧
      (pushOk s.core.scanSp = false ∨ pu.getLsbD 0 = true)) ∧
    (∃ (s : State) (c : CommitSt), s.scan.commit = some c ∧ c.applied = true ∧ s.running = true) ∧
    (∃ (s : State), s.mapsWf = true ∧ s.scan.redo = true) ∧
    (∃ (s : State), s.running = true ∧ s.mode.past13 = true ∧ s.mode.pf = false ∧ s.inScan = true) ∧
    (∃ (s : State), s.running = true ∧ s.mode.past13 = true ∧ s.mode.pf = false ∧ s.inScan = false ∧ s.mode.warmReq = none) ∧
    (∃ (s : State) (c : CommitSt), s.scan.commit = some c ∧ c.applied = false ∧ s.running = true ∧ c.dt ≤ s.time.dt ∧
      s.outWord 0x080 = 0 ∧ bit (s.outWord 0x004) 8 = false ∧ s.fab.grpReq = none ∧ s.time.dt.setWidth 32 ≠ (0 : Word)) ∧
    (∃ (s : State), s.core.scan = true ∧ s.scan.latch = none ∧ s.scan.ovrPrev = true) ∧
    (∃ (s : State), s.inScan = true ∧ s.scanCycle + 300 + s.wcet ≤ s.periodCyc ∧ s.scan.reexec = false ∧ s.scan.redo = false ∧
      s.core.pc ≠ 0) :=
  ⟨⟨{ on with core := { on.core with loads := [], scanSp := 0x10030000 }, scan := { on.scan with latch := some ((7) :: (List.replicate 1023 0)), run := true }, time := { on.time with dt := 1000000 } },
     0, (List.replicate 1023 0), 7, by decide⟩,
   ⟨{ on with core := { on.core with loads := [], scanSp := 0x10030000 }, scan := { on.scan with latch := none, run := true, latchDt := 7 }, mode := { on.mode with starting := false }, fab := { on.fab with edgeDone := true }, zve := { on.zve with run := none }, time := { on.time with dt := 1000000 } },
     0, by decide⟩,
   ⟨{ on with time := { on.time with dt := 1000000 }, scan := { on.scan with run := true, latchDt := 7, latch := some [] }, core := { on.core with scanSp := 0x10030000 } },
     1, by decide⟩,
   ⟨{ on with scan := { on.scan with commit := some ({ dt := 5, issue := 0, applied := true }) } },
     { dt := 5, issue := 0, applied := true }, by decide⟩,
   ⟨{ on with scan := { on.scan with redo := true } }, by decide⟩,
   ⟨{ on with mode := { on.mode with past13 := true, pf := false }, core := { on.core with scan := true } }, by decide⟩,
   ⟨{ on with mode := { on.mode with past13 := true, pf := false, warmReq := none } }, by decide⟩,
   ⟨{ on with scan := { on.scan with commit := some ({ dt := 5, issue := 0, applied := false }) }, fab := { on.fab with grpReq := none }, time := { on.time with dt := 7 } },
     { dt := 5, issue := 0, applied := false }, by decide⟩,
   ⟨{ on with core := { on.core with scan := true }, scan := { on.scan with latch := none, ovrPrev := true } },
     by decide⟩,
   ⟨{ on with scan := { on.scan with reexec := false, redo := false }, core := { on.core with scan := true, pc := 0x100 } },
     by decide⟩⟩

/-- The hypotheses of InterruptEntryAndThreadSwitchesTakeEffect are met. -/
theorem wit_InterruptEntryAndThreadSwitchesTakeEffect :
    (∃ (s : State) (n : Nat) (level : BitVec 4) (x : Desc) (pu : BitVec 2), s.coreRuns = true ∧ s.core.bundle = [] ∧
      s.core.ie = true ∧ s.core.idle = [] ∧ s.scanDue = false ∧ s.scan.latch = none ∧ s.core.scan = false ∧ s.core.df = false ∧
      s.aexcDue = none ∧ s.core.loads = [] ∧ s.core.cwp + 1 ≠ s.core.rw ∧ s.arbiter s.core.mask = some (n, level) ∧ n < 128 ∧
      s.descOf (32 + n) = some x ∧ pushOk (s.core.at 31) = true ∧ pu.getLsbD 0 = false) ∧
    (∃ (s : State) (n : Nat) (level : BitVec 4) (x : Desc) (pu : BitVec 2) (y : Desc), s.coreRuns = true ∧ s.core.bundle = [] ∧
      s.core.ie = true ∧ s.core.idle = [] ∧ s.scanDue = false ∧ s.scan.latch = none ∧ s.core.scan = false ∧ s.core.df = false ∧
      s.aexcDue = none ∧ s.core.loads = [] ∧ s.core.cwp + 1 ≠ s.core.rw ∧ s.arbiter s.core.mask = some (n, level) ∧ n < 128 ∧
      s.descOf (32 + n) = some x ∧ pushOk (s.core.at 31) = true ∧ s.descOf 2 = some y ∧ s.core.wtrap = false ∧ pu = 1) ∧
    (∃ (s : State) (n : Nat) (level : BitVec 4) (x : Desc) (pu : BitVec 2) (y : Desc), s.coreRuns = true ∧ s.core.bundle = [] ∧
      s.core.ie = true ∧ s.core.idle = [] ∧ s.scanDue = false ∧ s.scan.latch = none ∧ s.core.scan = false ∧ s.core.df = false ∧
      s.aexcDue = none ∧ s.core.loads = [] ∧ s.core.cwp + 1 ≠ s.core.rw ∧ s.arbiter s.core.mask = some (n, level) ∧ n < 128 ∧
      s.descOf (32 + n) = some x ∧ pushOk (s.core.at 31) = true ∧ s.descOf 2 = some y ∧ s.core.wtrap = false ∧ pu = 3) ∧
    (∃ (s : State) (u : Fin 64), s.inScan = false ∧ s.mode.warmReq = none ∧ s.sch.wb = some u) ∧
    (∃ (s : State) (u : Fin 64), s.inScan = false ∧ s.mode.warmReq = none ∧ s.sch.wb = none ∧ s.sch.en = true ∧
      s.sch.sel = some u) ∧
    (∃ (s : State) (u : Fin 64), s.inScan = false ∧ s.mode.warmReq = none ∧ s.switchDue = true ∧ s.sch.sel = some u) ∧
    (∃ (s : State) (v : Word), s.regsOn = true ∧ bit v 0 = true ∧ ctxBaseOk (s.reg R.schCtxBase) = true) ∧
    (∃ (s : State) (v : Word), s.regsOn = true ∧ bit v 0 = false) ∧
    (∃ (s : State) (v : Word), s.regsOn = true ∧ v.toNat % 256 = 0 ∧ 0x10000000 ≤ v.toNat ∧ v.toNat + 49152 ≤ 0x1003E000 ∧
      s.sch.en = false) ∧
    (∃ (s : State), s.regsOn = true ∧ s.sch.en = true) ∧
    (∃ (s : State) (u : Fin 64), s.switchDue = true ∧ s.aexcDue = none ∧ s.sch.sel = some u ∧ s.sch.run = some 2 ∧
      s.sch.req = some .yield) :=
  ⟨⟨{ (((on.setReg (R.icuCfg 64) 0x105).setReg (R.icuSw 0) 1)) with core := { (((on.setReg (R.icuCfg 64) 0x105).setReg (R.icuSw 0) 1)).core with bundle := [], ie := true, idle := [], scan := false, df := false, loads := [], edtb := 0x10004000, edtbSet := true, r := (Vector.replicate 164 0).set 31 0x10020000, lines2 := (1 <<< 64 : BitVec 128) }, scan := { (((on.setReg (R.icuCfg 64) 0x105).setReg (R.icuSw 0) 1)).scan with latch := none }, mem := { (((on.setReg (R.icuCfg 64) 0x105).setReg (R.icuSw 0) 1)).mem with dtcm := mwrite 0 [] (0x4000 + 16 * 96) [0, 9, 0, 0, 0, 0, 3, 16, 113, 0, 0, 0, 237, 230, 0, 0] } },
     64, 5, { handler := 0x900, sp := 0x10030000, tpriv := true, own := false, chain := false, ie := false, mask := 7 }, 0,
     by decide⟩,
   ⟨{ (((on.setReg (R.icuCfg 64) 0x105).setReg (R.icuSw 0) 1)) with core := { (((on.setReg (R.icuCfg 64) 0x105).setReg (R.icuSw 0) 1)).core with bundle := [], ie := true, idle := [], scan := false, df := false, loads := [], wtrap := false, edtb := 0x10004000, edtbSet := true, r := (Vector.replicate 164 0).set 31 0x10020000, lines2 := (1 <<< 64 : BitVec 128) }, scan := { (((on.setReg (R.icuCfg 64) 0x105).setReg (R.icuSw 0) 1)).scan with latch := none }, mem := { (((on.setReg (R.icuCfg 64) 0x105).setReg (R.icuSw 0) 1)).mem with dtcm := mwrite 0 (mwrite 0 [] (0x4000 + 32) [0, 7, 0, 0, 0, 16, 3, 16, 3, 0, 0, 0, 253, 248, 0, 0]) (0x4000 + 16 * 96) [0, 9, 0, 0, 0, 0, 3, 16, 113, 0, 0, 0, 237, 230, 0, 0] } },
     64, 5, { handler := 0x900, sp := 0x10030000, tpriv := true, own := false, chain := false, ie := false, mask := 7 }, 1,
     { handler := 0x700, sp := 0x10031000, tpriv := true, own := true, chain := false, ie := false, mask := 0 },
     by decide⟩,
   ⟨{ (((on.setReg (R.icuCfg 64) 0x105).setReg (R.icuSw 0) 1)) with core := { (((on.setReg (R.icuCfg 64) 0x105).setReg (R.icuSw 0) 1)).core with bundle := [], ie := true, idle := [], scan := false, df := false, loads := [], wtrap := false, edtb := 0x10004000, edtbSet := true, r := (Vector.replicate 164 0).set 31 0x10020000, lines2 := (1 <<< 64 : BitVec 128) }, scan := { (((on.setReg (R.icuCfg 64) 0x105).setReg (R.icuSw 0) 1)).scan with latch := none }, mem := { (((on.setReg (R.icuCfg 64) 0x105).setReg (R.icuSw 0) 1)).mem with dtcm := mwrite 0 (mwrite 0 [] (0x4000 + 32) [0, 7, 0, 0, 0, 16, 3, 16, 3, 0, 0, 0, 253, 248, 0, 0]) (0x4000 + 16 * 96) [0, 9, 0, 0, 0, 0, 3, 16, 113, 0, 0, 0, 237, 230, 0, 0] } },
     64, 5, { handler := 0x900, sp := 0x10030000, tpriv := true, own := false, chain := false, ie := false, mask := 7 }, 3,
     { handler := 0x700, sp := 0x10031000, tpriv := true, own := true, chain := false, ie := false, mask := 0 },
     by decide⟩,
   ⟨{ on with mode := { on.mode with warmReq := none }, sch := { on.sch with wb := some (3) } }, 3, by decide⟩,
   ⟨{ on with mode := { on.mode with warmReq := none }, sch := { on.sch with wb := none, en := true, sel := some (3) } }, 3,
     by decide⟩,
   ⟨{ on with mode := { on.mode with warmReq := none }, sch := { on.sch with sel := some 3, en := true, valid := true, run := some 2, req := some .yield, ctx := List.replicate 168 0x10000300 } },
     3, by decide⟩,
   ⟨(on.setReg R.schCtxBase 0x10008000), 1, by decide⟩,
   ⟨on, 0, by decide⟩,
   ⟨{ on with sch := { on.sch with en := false } }, 0x10008000, by decide⟩,
   ⟨{ on with sch := { on.sch with en := true } }, by decide⟩,
   ⟨{ on with sch := { on.sch with sel := some 3, en := true, valid := true, run := some 2, req := some .yield, ctx := List.replicate 168 0x10000300 } },
     3, by decide⟩⟩

/-- The hypotheses of WaitsYieldsAndSlotsTakeEffect are met. -/
theorem wit_WaitsYieldsAndSlotsTakeEffect :
    (∃ (s : State) (u : Fin 64) (v : Word), (let x : ThreadSt := { s.sch.thread[u] with all := v.getLsbD 31 }; s.regsOn = true ∧
      s.core.scan = false ∧ s.core.efp = 0 ∧ s.sch.run = some u ∧ x.mask = 0)) ∧
    (∃ (s : State) (u : Fin 64) (v : Word), (let x : ThreadSt := { s.sch.thread[u] with all := v.getLsbD 31 }; s.regsOn = true ∧
      s.core.scan = false ∧ s.core.efp = 0 ∧ s.sch.run = some u ∧ x.mask ≠ 0 ∧ s.topReady ≠ [] ∧
      (if x.all then x.flags &&& x.mask = x.mask else x.flags &&& x.mask ≠ 0))) ∧
    (∃ (s : State) (u : Fin 64) (v : Word), (let x : ThreadSt := { s.sch.thread[u] with all := v.getLsbD 31 }; s.regsOn = true ∧
      s.core.scan = false ∧ s.core.efp = 0 ∧ s.sch.run = some u ∧ x.mask ≠ 0 ∧ s.topReady ≠ [] ∧
      ¬ (if x.all then x.flags &&& x.mask = x.mask else x.flags &&& x.mask ≠ 0))) ∧
    (∃ (s : State) (u : Fin 64) (w : Fin 64) (l : List (Fin 64)) (v : Word), s.regsOn = true ∧ s.core.scan = false ∧
      s.core.efp = 0 ∧ s.sch.run = some u ∧ v.getLsbD 0 = true ∧ s.topReady = w :: l ∧
      (s.sch.thread[u]).prio ≤ (s.sch.thread[w]).prio) ∧
    (∃ (s : State) (u : Fin 64) (w : Fin 64) (l : List (Fin 64)) (v : Word), s.regsOn = true ∧ s.core.scan = false ∧
      s.core.efp = 0 ∧ s.sch.run = some u ∧ v.getLsbD 0 = true ∧ s.topReady = w :: l ∧
      (s.sch.thread[w]).prio < (s.sch.thread[u]).prio) ∧
    (∃ (s : State) (v : Word), s.regsOn = true ∧ s.core.scan = true ∧ v.getLsbD 0 = true) ∧
    (∃ (s : State) (u : Fin 64) (n : Nat), (s.sch.thread[u]).tmo = some n ∧ (s.sch.thread[u]).state = 2 ∧
      n ≤ s.time.dt.toNat / 100) ∧
    (∃ (s : State) (u : Fin 64), (let x := s.sch.thread[u]; s.regsOn = true ∧ x.state ≠ 2)) ∧
    (∃ (s : State) (u : Fin 64) (v : Word), (let x := s.sch.thread[u]; s.regsOn = true ∧ x.state = 2 ∧ x.all = false ∧
      (x.flags ||| v) &&& x.mask ≠ 0)) ∧
    (∃ (s : State) (u : Fin 64) (v : Word), s.regsOn = true ∧ (s.sch.thread[u]).state = 0 ∧ v.extractLsb' 4 2 = (1 : BitVec 2)) :=
  ⟨⟨{ on with core := { on.core with scan := false, efp := 0 }, sch := { on.sch with run := some 0 } }, 0, 0, by decide⟩,
   ⟨{ on with core := { on.core with scan := false, efp := 0 }, sch := { on.sch with run := some 0, thread := (vput (vput on.sch.thread 1 { ThreadSt.reset with state := 1, prio := 5 }) 0 { ThreadSt.reset with state := 3, mask := 3, flags := 2 }) } },
     0, 0, by decide⟩,
   ⟨{ on with core := { on.core with scan := false, efp := 0 }, sch := { on.sch with run := some 0, thread := (vput (vput on.sch.thread 1 { ThreadSt.reset with state := 1, prio := 5 }) 0 { ThreadSt.reset with state := 3, mask := 3, flags := 4 }) } },
     0, 50, by decide⟩,
   ⟨{ on with core := { on.core with scan := false, efp := 0 }, sch := { on.sch with run := some 0, thread := (vput (vput on.sch.thread 1 { ThreadSt.reset with state := 1, prio := 5 }) 0 { ThreadSt.reset with state := 3 }) } },
     0, 1, ([]), 1, by decide⟩,
   ⟨{ on with core := { on.core with scan := false, efp := 0 }, sch := { on.sch with run := some 0, thread := (vput (vput on.sch.thread 1 { ThreadSt.reset with state := 1, prio := 2 }) 0 { ThreadSt.reset with state := 3, prio := 4 }) } },
     0, 1, ([]), 1, by decide⟩,
   ⟨{ on with core := { on.core with scan := true } }, 1, by decide⟩,
   ⟨{ on with sch := { on.sch with thread := (vput (vput on.sch.thread 1 { ThreadSt.reset with state := 1, prio := 5 }) 0 { ThreadSt.reset with state := 2, tmo := some 100 }) } },
     0, 100, by decide⟩,
   ⟨on, 0, by decide⟩,
   ⟨{ on with sch := { on.sch with thread := (vput (vput on.sch.thread 1 { ThreadSt.reset with state := 1, prio := 5 }) 0 { ThreadSt.reset with state := 2, mask := 3 }) } },
     0, 2, by decide⟩,
   ⟨on, 0, 0x13, by decide⟩⟩

/-- The hypotheses of RingAccessesTakeEffect are met. -/
theorem wit_RingAccessesTakeEffect :
    (∃ (s : State) (r : Fin 64) (port : Fin 5) (v : Word), (let x := s.sch.ring[r]; s.regsOn = true ∧ (s.ringCfg r).role ≠ 0 ∧
      x.opened[port] = none ∧ x.torn[port] = none ∧ 2 ≤ v.toNat % 16 ∧ v.toNat % 16 ≤ 8 ∧ v.toNat % 16 ≤ s.ringFree r)) ∧
    (∃ (s : State) (r : Fin 64) (port : Fin 5) (o : OpenItem), (let x := s.sch.ring[r]; s.regsOn = true ∧
      (s.ringCfg r).role ≠ 0 ∧ x.opened[port] = some o ∧ o.words.length + 1 < o.len)) ∧
    (∃ (s : State) (r : Fin 64), s.regsOn = true ∧ (s.ringCfg r).role ≠ 0 ∧ s.inScan = false ∧ s.mode.warmReq = none) ∧
    (∃ (s : State) (r : Fin 64), (let x := s.sch.ring[r]; s.regsOn = true ∧ (s.ringCfg r).role = 1 ∧ x.lens = [])) ∧
    (∃ (s : State) (r : Fin 64) (n : Nat) (l : List Nat), (let x := s.sch.ring[r]; s.regsOn = true ∧ (s.ringCfg r).role = 1 ∧
      x.lens = n :: l ∧ 1 ≤ n ∧ n ≤ x.chip.length ∧ x.cnt = 0)) ∧
    (∃ (s : State) (v : Word), s.regsOn = true ∧ v.getLsbD 0 = true) ∧
    (∃ (s : State) (r : Fin 64), s.regsOn = true ∧ (s.ringCfg r).role = 0) :=
  ⟨⟨on, 0, 0, 3, by decide⟩,
   ⟨{ on with sch := { on.sch with ring := vput on.sch.ring 0 { RingSt.reset with opened := vput RingSt.reset.opened 0 (some { len := 3, words := [3] }) } } },
     0, 0, { len := 3, words := [3] }, by decide⟩,
   ⟨{ on with mode := { on.mode with warmReq := none } }, 0, by decide⟩,
   ⟨on, 0, by decide⟩,
   ⟨{ on with sch := { on.sch with ring := vput on.sch.ring 0 { RingSt.reset with chip := [2, 9], lens := [2] } } }, 0, 2, ([]),
     by decide⟩,
   ⟨{ on with sch := { on.sch with ring := vput on.sch.ring 0 { RingSt.reset with chip := [2, 9], lens := [2] } } }, 7,
     by decide⟩,
   ⟨{ on with cfg := { on.cfg with img := none } }, 0, by decide⟩⟩

/-- The hypotheses of VectorIntegerLinksWriteResult are met. -/
theorem wit_VectorIntegerLinksWriteResult :
    (∃ (s : State) (r : ZRun) (l : ZLink) (op : Nat), LinkReady s r l op 1 false ∧ l.vl = 1 ∧ op = 1) ∧
    (∃ (s : State) (r : ZRun) (l : ZLink) (op : Nat), LinkReady s r l op 1 false ∧ l.vl = 1 ∧ op = 2) ∧
    (∃ (s : State) (r : ZRun) (l : ZLink) (op : Nat), LinkReady s r l op 1 false ∧ l.vl = 1 ∧ op = 3) ∧
    (∃ (s : State) (r : ZRun) (l : ZLink) (op : Nat), LinkReady s r l op 1 false ∧ l.vl = 1 ∧ op = 8) ∧
    (∃ (s : State) (r : ZRun) (l : ZLink) (op : Nat), LinkReady s r l op 1 false ∧ l.vl = 1 ∧ op = 10) ∧
    (∃ (s : State) (r : ZRun) (l : ZLink) (op : Nat),
      (let a := s.vsRead (16 * strBase l.w2) 32; let b := s.vsRead (16 * strBase l.w3) 32; LinkReady s r l op 1 false ∧
      l.vl = 1 ∧ op = 16 ∧ b ≠ 0 ∧ a.toInt % b.toInt = 0 ∧ (¬ (a = 0x80000000 ∧ b = 0xFFFFFFFF)))) ∧
    (∃ (s : State) (r : ZRun) (l : ZLink) (op : Nat), (let b := s.vsRead (16 * strBase l.w3) 32; LinkReady s r l op 1 false ∧
      l.vl = 1 ∧ op = 16 ∧ b = 0)) ∧
    (∃ (s : State) (r : ZRun) (l : ZLink) (op : Nat), LinkReady s r l op 1 false ∧ l.vl = 1 ∧ op = 24) ∧
    (∃ (s : State) (r : ZRun) (l : ZLink) (op : Nat), LinkReady s r l op 1 false ∧ l.vl = 1 ∧ op = 25) ∧
    (∃ (s : State) (r : ZRun) (l : ZLink) (op : Nat), LinkReady s r l op 1 false ∧ l.vl = 1 ∧ op = 26) ∧
    (∃ (s : State) (r : ZRun) (l : ZLink) (op : Nat), LinkReady s r l op 1 false ∧ l.vl = 1 ∧ op = 27) ∧
    (∃ (s : State) (r : ZRun) (l : ZLink) (op : Nat), LinkReady s r l op 1 false ∧ l.vl = 1 ∧ op = 28) ∧
    (∃ (s : State) (r : ZRun) (l : ZLink) (op : Nat), LinkReady s r l op 1 false ∧ l.vl = 1 ∧ op = 29) ∧
    (∃ (s : State) (r : ZRun) (l : ZLink) (op : Nat) (n : Nat), LinkReady s r l op 1 false ∧ l.vl = 1 ∧ op = 30 ∧
      n = (l.w3.extractLsb' 0 5).toNat) ∧
    (∃ (s : State) (r : ZRun) (l : ZLink) (op : Nat), LinkReady s r l op 1 false ∧ l.vl = 1 ∧ op = 31) ∧
    (∃ (s : State) (r : ZRun) (l : ZLink) (op : Nat), LinkReady s r l op 1 false ∧ l.vl = 1 ∧ op = 4 ∧
      (l.w3.extractLsb' 0 3).toNat = 0) ∧
    (∃ (s : State) (r : ZRun) (l : ZLink), LinkReady s r l 9 1 true ∧ l.vl = 1) :=
  ⟨⟨{ on with zve := { on.zve with run := some (tRun 65601 32771) } },
     (tRun 65601 32771),
     { w0 := 65601, w1 := 32769, w2 := 32770, w3 := 32771, tag := 0, pc := 0 }, 1, by unfold LinkReady; decide⟩,
   ⟨{ on with zve := { on.zve with run := some (tRun 65602 32771) } },
     (tRun 65602 32771),
     { w0 := 65602, w1 := 32769, w2 := 32770, w3 := 32771, tag := 0, pc := 0 }, 2, by unfold LinkReady; decide⟩,
   ⟨{ on with zve := { on.zve with run := some (tRun 65603 0) } },
     (tRun 65603 0),
     { w0 := 65603, w1 := 32769, w2 := 32770, w3 := 0, tag := 0, pc := 0 }, 3, by unfold LinkReady; decide⟩,
   ⟨{ on with zve := { on.zve with run := some (tRun 65608 32771) } },
     (tRun 65608 32771),
     { w0 := 65608, w1 := 32769, w2 := 32770, w3 := 32771, tag := 0, pc := 0 }, 8, by unfold LinkReady; decide⟩,
   ⟨{ on with zve := { on.zve with run := some (tRun 65610 0) } },
     (tRun 65610 0),
     { w0 := 65610, w1 := 32769, w2 := 32770, w3 := 0, tag := 0, pc := 0 }, 10, by unfold LinkReady; decide⟩,
   ⟨{ on with zve := { on.zve with run := some (tRun 65616 32771) }, mem := { on.mem with vs := [(0x20, 10), (0x30, 5)] } },
     (tRun 65616 32771),
     { w0 := 65616, w1 := 32769, w2 := 32770, w3 := 32771, tag := 0, pc := 0 }, 16, by unfold LinkReady; decide⟩,
   ⟨{ on with zve := { on.zve with run := some (tRun 65616 32771) }, mem := { on.mem with vs := [(0x20, 10)] } },
     (tRun 65616 32771),
     { w0 := 65616, w1 := 32769, w2 := 32770, w3 := 32771, tag := 0, pc := 0 }, 16, by unfold LinkReady; decide⟩,
   ⟨{ on with zve := { on.zve with run := some (tRun 65624 32771) } },
     (tRun 65624 32771),
     { w0 := 65624, w1 := 32769, w2 := 32770, w3 := 32771, tag := 0, pc := 0 }, 24, by unfold LinkReady; decide⟩,
   ⟨{ on with zve := { on.zve with run := some (tRun 65625 32771) } },
     (tRun 65625 32771),
     { w0 := 65625, w1 := 32769, w2 := 32770, w3 := 32771, tag := 0, pc := 0 }, 25, by unfold LinkReady; decide⟩,
   ⟨{ on with zve := { on.zve with run := some (tRun 65626 32771) } },
     (tRun 65626 32771),
     { w0 := 65626, w1 := 32769, w2 := 32770, w3 := 32771, tag := 0, pc := 0 }, 26, by unfold LinkReady; decide⟩,
   ⟨{ on with zve := { on.zve with run := some (tRun 65627 32771) } },
     (tRun 65627 32771),
     { w0 := 65627, w1 := 32769, w2 := 32770, w3 := 32771, tag := 0, pc := 0 }, 27, by unfold LinkReady; decide⟩,
   ⟨{ on with zve := { on.zve with run := some (tRun 65628 32771) } },
     (tRun 65628 32771),
     { w0 := 65628, w1 := 32769, w2 := 32770, w3 := 32771, tag := 0, pc := 0 }, 28, by unfold LinkReady; decide⟩,
   ⟨{ on with zve := { on.zve with run := some (tRun 65629 32771) } },
     (tRun 65629 32771),
     { w0 := 65629, w1 := 32769, w2 := 32770, w3 := 32771, tag := 0, pc := 0 }, 29, by unfold LinkReady; decide⟩,
   ⟨{ on with zve := { on.zve with run := some (tRun 65630 2) } },
     (tRun 65630 2),
     { w0 := 65630, w1 := 32769, w2 := 32770, w3 := 2, tag := 0, pc := 0 }, 30, 2, by unfold LinkReady; decide⟩,
   ⟨{ on with zve := { on.zve with run := some (tRun 65631 0) } },
     (tRun 65631 0),
     { w0 := 65631, w1 := 32769, w2 := 32770, w3 := 0, tag := 0, pc := 0 }, 31, by unfold LinkReady; decide⟩,
   ⟨{ on with zve := { on.zve with run := some (tRun 65604 0) } },
     (tRun 65604 0),
     { w0 := 65604, w1 := 32769, w2 := 32770, w3 := 0, tag := 0, pc := 0 }, 4, by unfold LinkReady; decide⟩,
   ⟨{ on with zve := { on.zve with run := some (tRun 66121 32771) } },
     (tRun 66121 32771),
     { w0 := 66121, w1 := 32769, w2 := 32770, w3 := 32771, tag := 0, pc := 0 }, by unfold LinkReady; decide⟩⟩

/-- The hypotheses of VectorIndexedRootAndReductionLinksWriteResult are met. -/
theorem wit_VectorIndexedRootAndReductionLinksWriteResult :
    (∃ (s : State) (r : ZRun) (l : ZLink) (k : Nat), (let a := s.vsRead (16 * strBase l.w2) 32; LinkReady s r l 17 3 false ∧
      l.vl = 1 ∧ 0 ≤ a.toInt ∧ k * k ≤ a.toNat * 2 ^ 31 ∧ a.toNat * 2 ^ 31 < (k + 1) * (k + 1) ∧ k + 1 < 2 ^ 31 ∧
      k * k = a.toNat * 2 ^ 31)) ∧
    (∃ (s : State) (r : ZRun) (l : ZLink) (k : Nat),
      (let a := s.vsRead (16 * strBase l.w2) 32; let b := s.vsRead (16 * strBase l.w2 + 4) 32; LinkReady s r l 18 3 true ∧
      l.vl = 1 ∧ k * k = a.toInt.natAbs ^ 2 + b.toInt.natAbs ^ 2 ∧ k < 2 ^ 31)) ∧
    (∃ (s : State) (r : ZRun) (l : ZLink), LinkReady s r l 19 3 true ∧ l.vl = 1) ∧
    (∃ (s : State) (r : ZRun) (l : ZLink), LinkReady s r l 20 3 false ∧ l.vl = 1) ∧
    (∃ (s : State) (r : ZRun) (l : ZLink), (let i := s.vsRead (16 * strBase l.w3) 32; LinkReady s r l 32 1 false ∧ l.vl = 1 ∧
      0 ≤ i.toInt ∧ i.toInt ≤ 65535 ∧ 16 * strBase l.w2 + i.toNat * 4 + 4 ≤ 499712)) ∧
    (∃ (s : State) (r : ZRun) (l : ZLink), (let i := s.vsRead (16 * strBase l.w3) 32; LinkReady s r l 32 1 false ∧ l.vl = 1 ∧
      i.toInt < 0)) ∧
    (∃ (s : State) (r : ZRun) (l : ZLink), (let i := s.vsRead (16 * strBase l.w3) 32; LinkReady s r l 33 1 false ∧ l.vl = 1 ∧
      0 ≤ i.toInt ∧ i.toInt ≤ 65535 ∧ 16 * strBase l.w1 + i.toNat * 4 + 4 ≤ 499712)) ∧
    (∃ (s : State) (r : ZRun) (l : ZLink), (let i := s.vsRead (16 * strBase l.w3) 32; LinkReady s r l 33 1 false ∧ l.vl = 1 ∧
      i.toInt < 0)) ∧
    (∃ (s : State) (r : ZRun) (l : ZLink), LinkReady s r l 40 1 false) ∧
    (∃ (s : State) (r : ZRun) (l : ZLink), LinkReady s r l 41 1 false ∧ 0 < l.vl) :=
  ⟨⟨{ on with zve := { on.zve with run := some (tRun 65745 32771) }, mem := { on.mem with vs := [(0x23, 0x20)] } },
     (tRun 65745 32771),
     { w0 := 65745, w1 := 32769, w2 := 32770, w3 := 32771, tag := 0, pc := 0 }, 0x40000000, by unfold LinkReady; decide⟩,
   ⟨{ on with zve := { on.zve with run := some (tRun 66258 32771) }, mem := { on.mem with vs := [(0x20, 3), (0x24, 4)] } },
     (tRun 66258 32771),
     { w0 := 66258, w1 := 32769, w2 := 32770, w3 := 32771, tag := 0, pc := 0 }, 5, by unfold LinkReady; decide⟩,
   ⟨{ on with zve := { on.zve with run := some (tRun 66259 32771) } },
     (tRun 66259 32771),
     { w0 := 66259, w1 := 32769, w2 := 32770, w3 := 32771, tag := 0, pc := 0 }, by unfold LinkReady; decide⟩,
   ⟨{ on with zve := { on.zve with run := some (tRun 65748 32771) } },
     (tRun 65748 32771),
     { w0 := 65748, w1 := 32769, w2 := 32770, w3 := 32771, tag := 0, pc := 0 }, by unfold LinkReady; decide⟩,
   ⟨{ on with zve := { on.zve with run := some (tRun 65632 32771) } },
     (tRun 65632 32771),
     { w0 := 65632, w1 := 32769, w2 := 32770, w3 := 32771, tag := 0, pc := 0 }, by unfold LinkReady; decide⟩,
   ⟨{ on with zve := { on.zve with run := some (tRun 65632 32771) }, mem := { on.mem with vs := [(0x33, 0x80)] } },
     (tRun 65632 32771),
     { w0 := 65632, w1 := 32769, w2 := 32770, w3 := 32771, tag := 0, pc := 0 }, by unfold LinkReady; decide⟩,
   ⟨{ on with zve := { on.zve with run := some (tRun 65633 32771) } },
     (tRun 65633 32771),
     { w0 := 65633, w1 := 32769, w2 := 32770, w3 := 32771, tag := 0, pc := 0 }, by unfold LinkReady; decide⟩,
   ⟨{ on with zve := { on.zve with run := some (tRun 65633 32771) }, mem := { on.mem with vs := [(0x33, 0x80)] } },
     (tRun 65633 32771),
     { w0 := 65633, w1 := 32769, w2 := 32770, w3 := 32771, tag := 0, pc := 0 }, by unfold LinkReady; decide⟩,
   ⟨{ on with zve := { on.zve with run := some (tRun 131176 32771) } },
     (tRun 131176 32771),
     { w0 := 131176, w1 := 32769, w2 := 32770, w3 := 32771, tag := 0, pc := 0 }, by unfold LinkReady; decide⟩,
   ⟨{ on with zve := { on.zve with run := some (tRun 131177 32771) } },
     (tRun 131177 32771),
     { w0 := 131177, w1 := 32769, w2 := 32770, w3 := 32771, tag := 0, pc := 0 }, by unfold LinkReady; decide⟩⟩

/-- The hypotheses of ChainsAndLanesTakeEffect are met. -/
theorem wit_ChainsAndLanesTakeEffect :
    (∃ (s : State) (c : ZChain), s.mode.m9 = none ∧ s.zve.run = none ∧ s.zve.pick = some c ∧ s.vecOn = true ∧
      s.zve.nRetired < 3 ∧ (c.scan = true ∨ (s.scanCtx = false ∧ s.scan.redo = false))) ∧
    (∃ (s : State) (r : ZRun) (l : ZLink), s.zve.run = some r ∧ r.chain.links = [l] ∧ r.done = 1 ∧ l.note = 0 ∧
      r.marks 65536 = []) ∧
    (∃ (s : State) (r : ZRun) (l : ZLink) (o : Fin 499712), s.mapsWf = true ∧ LinkReady s r l 31 1 false ∧ l.vl = 1 ∧
      l.note = 0 ∧ (strAddr l.w2 4 0).toNat = o.val) ∧
    (∃ (s : State) (r : ZRun), s.zve.run = some r ∧ r.done < r.chain.links.length) ∧
    (∃ (s : State) (c : ZChain) (l : ZLink), s.zve.queue = [c] ∧ c.links = [l] ∧ l.note = 0) ∧
    (∃ (s : State) (r : ZRun), s.zve.run = some r ∧ r.abort = true) ∧
    (∃ (s : State) (r : ZRun), s.vecOn = true ∧ s.scanCtx = false ∧ s.zve.run = some r ∧ r.replayed = false ∧ r.abort = false ∧
      s.zve.nRetired < 3) ∧
    (∃ (s : State) (p : Fin 18), s.vecOn = true ∧ s.scanCtx = false ∧ s.zve.run = none ∧ s.zve.lane[p] = 0) ∧
    (∃ (s : State), s.vecOn = true ∧ s.zve.nRetired = 0 ∧ (s.zve.step + 1) % 18 < 16) ∧
    (∃ (s : State), s.vecOn = true ∧ s.zve.run = none) ∧
    (∃ (s : State), s.vecOn = true ∧ s.zve.nRetired = 0 ∧ 16 ≤ (s.zve.step + 1) % 18 ∧ s.zve.find 1 = some 16 ∧
      s.zve.find 2 = some 17) :=
  ⟨⟨{ on with mode := { on.mode with m9 := none }, zve := { on.zve with run := none, queue := [(tLink 65601 32771)] } },
     (tLink 65601 32771),
     by decide⟩,
   ⟨{ on with zve := { on.zve with run := some { chain := (tLink 65601 32771), done := 1, fwd := [], exc := [], replayed := false, abort := false, said := false, start := 0 } } },
     { chain := (tLink 65601 32771), done := 1, fwd := [], exc := [], replayed := false, abort := false, said := false, start := 0 },
     { w0 := 65601, w1 := 32769, w2 := 32770, w3 := 32771, tag := 0, pc := 0 }, by decide⟩,
   ⟨{ on with zve := { on.zve with run := some (tRun 65631 0) } },
     (tRun 65631 0),
     { w0 := 65631, w1 := 32769, w2 := 32770, w3 := 0, tag := 0, pc := 0 }, 32, by unfold LinkReady; decide⟩,
   ⟨{ on with zve := { on.zve with run := some (tRun 65601 32771) } },
     (tRun 65601 32771),
     by decide⟩,
   ⟨{ on with zve := { on.zve with queue := [(tLink 65601 32771)] } },
     (tLink 65601 32771),
     { w0 := 65601, w1 := 32769, w2 := 32770, w3 := 32771, tag := 0, pc := 0 }, by decide⟩,
   ⟨{ on with zve := { on.zve with run := some { chain := (tLink 65601 32771), done := 0, fwd := [], exc := [], replayed := false, abort := true, said := false, start := 0 } } },
     { chain := (tLink 65601 32771), done := 0, fwd := [], exc := [], replayed := false, abort := true, said := false, start := 0 },
     by decide⟩,
   ⟨{ on with zve := { on.zve with run := some (tRun 65601 32771) } },
     (tRun 65601 32771),
     by decide⟩,
   ⟨{ on with zve := { on.zve with run := none } }, 0, by decide⟩,
   ⟨on, by decide⟩,
   ⟨{ on with zve := { on.zve with run := none } }, by decide⟩,
   ⟨{ on with zve := { on.zve with step := 15 } }, by decide⟩⟩

/-- The hypotheses of SentinelAluWritesResultAndFlags are met. -/
theorem wit_SentinelAluWritesResultAndFlags :
    (∃ (s : State) (reg : Bool), SntReady s (if reg then 2 else 3)) ∧
    (∃ (s : State), SntReady s 2) ∧
    (∃ (s : State), SntReady s 2 ∧ s.wnt.pc.toNat + 4 ≤ 0x4000) ∧
    (∃ (s : State), SntReady s 2) ∧
    (∃ (s : State), SntReady s 2) :=
  ⟨⟨on, true, by unfold SntReady; decide⟩,
   ⟨on, by unfold SntReady; decide⟩,
   ⟨on, by unfold SntReady; decide⟩,
   ⟨on, by unfold SntReady; decide⟩,
   ⟨on, by unfold SntReady; decide⟩⟩

/-- The hypotheses of SentinelMovesLoadsStoresAndStackTakeEffect are met. -/
theorem wit_SentinelMovesLoadsStoresAndStackTakeEffect :
    (∃ (s : State), SntReady s 4) ∧
    (∃ (s : State) (w : Half), SntReady s 4 ∧ 0xF000 ≤ w.toNat) ∧
    (∃ (s : State) (w : Half), SntReady s 4 ∧ 0x8000 ≤ w.toNat ∧ w.toNat < 0xF000) ∧
    (∃ (s : State) (q : Fin 4), (let b := s.wnt.b; let inData (a : Half) : Prop := 0x4000 ≤ a.toNat ∧
      a.toNat < 0x6000; SntReady s 4 ∧ inData (pairOf b q))) ∧
    (∃ (s : State) (q : Fin 4) (d : Byte), (let b := s.wnt.b; let inData (a : Half) : Prop := 0x4000 ≤ a.toNat ∧
      a.toNat < 0x6000; SntReady s 4 ∧ inData (pairOf b q + d.setWidth 16))) ∧
    (∃ (s : State) (w : Half), (let inData (a : Half) : Prop := 0x4000 ≤ a.toNat ∧ a.toNat < 0x6000; SntReady s 4 ∧ inData w)) ∧
    (∃ (s : State) (w : Half), SntReady s 4 ∧ 0x6000 ≤ w.toNat ∧ w.toNat < 0x8000 ∧ s.wnt.winValid = true) ∧
    (∃ (s : State) (w : Half), SntReady s 4 ∧ (w.toNat < 0x4000 ∨ 0x8000 ≤ w.toNat ∧ w.toNat < 0xF000)) ∧
    (∃ (s : State) (q : Fin 4), (let b := s.wnt.b; SntReady s 2 ∧ 0x4000 ≤ (pairOf b q).toNat ∧ (pairOf b q).toNat < 0x5FFF)) ∧
    (∃ (s : State), (let sp := s.wnt.sp; SntReady s 2 ∧ 0x4001 ≤ sp.toNat ∧ sp.toNat ≤ 0x6000)) ∧
    (∃ (s : State), (let sp := s.wnt.sp; SntReady s 2 ∧ 0x4002 ≤ sp.toNat ∧ sp.toNat ≤ 0x6000)) ∧
    (∃ (s : State), (let sp := s.wnt.sp; SntReady s 2 ∧ 0x4000 ≤ sp.toNat ∧ sp.toNat < 0x6000)) ∧
    (∃ (s : State), (let sp := s.wnt.sp; SntReady s 2 ∧ 0x4000 ≤ sp.toNat ∧ sp.toNat < 0x5FFF)) ∧
    (∃ (s : State), (let sp := s.wnt.sp; SntReady s 2 ∧ (sp.toNat ≤ 0x4000 ∨ 0x6000 < sp.toNat))) ∧
    (∃ (s : State), (let sp := s.wnt.sp; SntReady s 2 ∧ (sp.toNat < 0x4000 ∨ 0x6000 ≤ sp.toNat))) ∧
    (∃ (s : State) (q : Fin 4), (let b := s.wnt.b; SntReady s 4 ∧ s.sntPlain (pairOf b q).toNat = some 0)) ∧
    (∃ (s : State) (q : Fin 4) (d : Byte), (let b := s.wnt.b; SntReady s 4 ∧
      s.sntPlain (pairOf b q + d.setWidth 16).toNat = some 0)) ∧
    (∃ (s : State) (w : Half), SntReady s 4 ∧ s.sntPlain w.toNat = some 0) ∧
    (∃ (s : State) (r : Fin 4), (let b := s.wnt.b; let a := pairOf b r; SntReady s 2 ∧ s.sntPlain a.toNat = some 0 ∧
      s.sntPlain (a + 1).toNat = some 0)) :=
  ⟨⟨on, by unfold SntReady; decide⟩,
   ⟨on, 0xF007, by unfold SntReady; decide⟩,
   ⟨on, 0x8000, by unfold SntReady; decide⟩,
   ⟨{ on with wnt := { on.wnt with b := ((((Vector.replicate 8 0).set 0 0x34).set 1 0x40).set 2 0x77).set 3 0x50 } }, 0,
     by unfold SntReady; decide⟩,
   ⟨{ on with wnt := { on.wnt with b := ((((Vector.replicate 8 0).set 0 0x34).set 1 0x40).set 2 0x77).set 3 0x50 } }, 0, 5,
     by unfold SntReady; decide⟩,
   ⟨on, 0x4010, by unfold SntReady; decide⟩,
   ⟨{ on with wnt := { on.wnt with winValid := true } }, 0x6010, by unfold SntReady; decide⟩,
   ⟨on, 0x3FFF, by unfold SntReady; decide⟩,
   ⟨{ on with wnt := { on.wnt with b := ((((Vector.replicate 8 0).set 0 0x34).set 1 0x40).set 2 0x77).set 3 0x50 } }, 0,
     by unfold SntReady; decide⟩,
   ⟨on, by unfold SntReady; decide⟩,
   ⟨on, by unfold SntReady; decide⟩,
   ⟨on, by unfold SntReady; decide⟩,
   ⟨on, by unfold SntReady; decide⟩,
   ⟨{ on with wnt := { on.wnt with sp := 0x4000 } }, by unfold SntReady; decide⟩,
   ⟨{ on with wnt := { on.wnt with sp := 0x6000 } }, by unfold SntReady; decide⟩,
   ⟨{ on with wnt := { on.wnt with b := ((Vector.replicate 8 0).set 1 0x7F).set 0 0xFF } }, 0,
     by unfold SntReady; decide⟩,
   ⟨on, 0, 1, by unfold SntReady; decide⟩,
   ⟨on, 0x5FFF, by unfold SntReady; decide⟩,
   ⟨on, 0, by unfold SntReady; decide⟩⟩

/-- The hypotheses of SentinelControlTakesEffect are met. -/
theorem wit_SentinelControlTakesEffect :
    (∃ (s : State), SntReady s 3) ∧
    (∃ (s : State), (let sp := s.wnt.sp; SntReady s 3 ∧ 0x4002 ≤ sp.toNat ∧ sp.toNat ≤ 0x6000)) ∧
    (∃ (s : State), (let sp := s.wnt.sp; SntReady s 3 ∧ 0x4000 ≤ sp.toNat ∧ sp.toNat < 0x5FFF)) ∧
    (∃ (s : State), (let sp := s.wnt.sp; SntReady s 3 ∧ 0x4000 ≤ sp.toNat ∧ sp.toNat < 0x5FFE)) ∧
    (∃ (s : State), (let sp := s.wnt.sp; SntReady s 3 ∧ 0x4003 ≤ sp.toNat ∧ sp.toNat ≤ 0x6000)) ∧
    (∃ (s : State), SntReady s 1 ∧ s.sntPending ≠ 0) ∧
    (∃ (s : State), SntReady s 1 ∧ s.sntPending = 0 ∧ s.sntBusy = false) ∧
    (∃ (s : State) (o : Byte), s.sntRuns = true ∧ s.sntDue = false ∧ s.wnt.pc.toNat + 2 ≤ 0x4000 ∧ 64 ≤ o.toNat) ∧
    (∃ (s : State) (o : Byte), s.sntRuns = true ∧ s.sntDue = false ∧ s.wnt.pc.toNat + 2 ≤ 0x4000 ∧ 4 ≤ o.toNat) ∧
    (∃ (s : State), s.sntRuns = true ∧ s.sntDue = false ∧ 0x4000 < s.wnt.pc.toNat + 2) :=
  ⟨⟨on, by unfold SntReady; decide⟩,
   ⟨on, by unfold SntReady; decide⟩,
   ⟨on, by unfold SntReady; decide⟩,
   ⟨on, by unfold SntReady; decide⟩,
   ⟨on, by unfold SntReady; decide⟩,
   ⟨{ on with wnt := { on.wnt with ip := 8, io := [(0xF002, 8)] } }, by unfold SntReady; decide⟩,
   ⟨on, by unfold SntReady; decide⟩,
   ⟨on, 64, by decide⟩,
   ⟨on, 4, by decide⟩,
   ⟨{ on with wnt := { on.wnt with pc := 0x3FFF } }, by decide⟩⟩

set_option maxRecDepth 20000 in
/-- The hypotheses of SentinelAndWinterPowerEventsTakeEffect are met. -/
theorem wit_SentinelAndWinterPowerEventsTakeEffect :
    (∃ (s : State), s.wnt.st = .asleep ∧ s.sntPending ≠ 0) ∧
    (∃ (s : State) (i : Fin 16), s.sntRuns = true ∧ s.wnt.flags.getLsbD 4 = true ∧ s.sntPending.getLsbD i.val = true ∧
      (∀ j < i.val, s.sntPending.getLsbD j = false) ∧ 0x4003 ≤ s.wnt.sp.toNat ∧ s.wnt.sp.toNat ≤ 0x6000) ∧
    (∃ (s : State), s.rcRuns = true ∧ s.time.rcFallback = false) ∧
    (∃ (s : State), s.rcRuns = true ∧ s.time.rcFallback = true) ∧
    (∃ (s : State), s.rcRuns = false) ∧
    (∃ (s : State), s.sntRuns = true ∧ s.wnt.faults.length < 4) ∧
    (∃ (s : State), s.wnt.st ≠ .halted ∧ s.iob 0xF006 ≠ 0 ∧ s.wnt.faults.length < 4) ∧
    (∃ (s : State), s.wnt.boot = true ∧ s.wnt.codeLen ≠ 0 ∧ crc32c (mread 0 s.mem.scode 0 s.wnt.codeLen) = s.wnt.codeCrc) ∧
    (∃ (s : State), s.wnt.boot = true ∧ s.wnt.codeLen = 0) ∧
    (∃ (s : State), s.pwr.winter = false) ∧
    (∃ (s : State), s.pwr.winter = true ∧ s.time.xrtcSeen = false) :=
  ⟨⟨{ on with wnt := { on.wnt with st := .asleep, ip := 8, io := [(0xF002, 8)] } }, by decide⟩,
   ⟨{ on with wnt := { on.wnt with ip := 8, io := [(0xF002, 8)], flags := 0x10 } }, 3, by decide⟩,
   ⟨{ on with time := { on.time with rcFallback := false } }, by decide⟩,
   ⟨{ on with time := { on.time with rcFallback := true } }, by decide⟩,
   ⟨{ on with wnt := { on.wnt with st := .asleep } }, by decide⟩,
   ⟨on, by decide⟩,
   ⟨{ on with wnt := { on.wnt with io := [(0xF006, 1)], pc := 0x2000 } }, by decide⟩,
   ⟨{ on with wnt := { on.wnt with boot := true, codeCrc := crc32c (mread 0 [] 0 16) } }, by decide⟩,
   ⟨{ on with wnt := { on.wnt with boot := true, codeLen := 0 } }, by decide⟩,
   ⟨{ on with pwr := { on.pwr with winter := false } }, by decide⟩,
   ⟨{ on with pwr := { on.pwr with winter := true }, time := { on.time with xrtcSeen := false } }, by decide⟩⟩

/-- The hypotheses of WinterTimeAndInputEventsTakeEffect are met. -/
theorem wit_WinterTimeAndInputEventsTakeEffect :
    (∃ (s : State), s.pwr.winter = true ∧ s.time.rtct.toNat % 32768 = 0) ∧
    (∃ (s : State), s.wnt.alarm ≠ 0 ∧ s.wnt.fired = false ∧ (s.iob 0xF026).getLsbD 1 = false ∧
      (s.wnt.alarm.toNat : Int) ≤ s.wnt.timeofs.toInt + (s.time.rtct.toNat / 32768 : Nat)) ∧
    (∃ (s : State), s.wnt.alarm ≠ 0 ∧ s.wnt.fired = false ∧ (s.iob 0xF026).getLsbD 1 = false ∧
      s.wnt.timeofs.toInt + (s.time.rtct.toNat / 32768 : Nat) < (s.wnt.alarm.toNat : Int)) ∧
    (∃ (s : State), s.sntRuns = true ∧ s.wnt.auth = false) ∧
    (∃ (s : State) (v : Byte), s.sntRuns = true ∧ s.wnt.auth = true ∧ -48 ≤ v.toInt ∧ v.toInt ≤ 56) ∧
    (∃ (s : State) (v : Byte), s.sntRuns = true ∧ s.wnt.auth = true ∧ (v.toInt < -48 ∨ 56 < v.toInt)) ∧
    (∃ (s : State) (v : Byte),
      (let n : BitVec 48 := BitVec.ofNat 48 (s.ioNat 0xF010 5 + 256 ^ 5 * v.toNat); let u := n.toInt + (s.time.rtct.toNat / 32768 : Nat); s.sntRuns = true ∧
      s.wnt.auth = true ∧ 0 ≤ u ∧ u ≤ 6311433599 ∧ s.mapsWf = true)) ∧
    (∃ (s : State), s.sntRuns = true ∧ s.mapsWf = true ∧ (s.iob 0xF026).getLsbD 1 = false) ∧
    (∃ (s : State), s.wnt.wtCnt ≠ 0 ∧ (s.iob 0xF02C).getLsbD 1 = false) ∧
    (∃ (s : State) (n : Fin 4) (v : Bool), s.pwr.winter = true ∧ s.wnt.wake.getLsbD n.val ≠ v ∧
      (s.iob (0xF030 + 4 * n.val)).toNat % 4 = 0) ∧
    (∃ (s : State) (n : Fin 4), s.pwr.winter = true ∧ s.wnt.wake.getLsbD n.val = false ∧ s.iob (0xF030 + 4 * n.val) = 5 ∧
      (∀ i < 8, (s.iob (0xF448 + i)).getLsbD 0 = false) ∧ s.wnt.wakeSaid[n] = []) ∧
    (∃ (s : State) (x : Fin 2), s.pwr.winter = true ∧ (s.iob (0xF040 + 4 * x.val)).getLsbD 0 = false) ∧
    (∃ (s : State), s.sntRuns = true ∧ s.wnt.spwBusy = false) ∧
    (∃ (s : State), s.sntRuns = true ∧ s.wnt.spwBusy = true) ∧
    (∃ (s : State), s.wnt.spwBusy = true ∧ s.wnt.sleep = false) ∧
    (∃ (s : State) (i : Fin 4) (v : Bool), s.pwr.winter = true ∧ s.mode.coreOn = false ∧ (s.iob 0xF050).getLsbD i.val = false ∧
      s.wnt.gin.getLsbD i.val ≠ v) ∧
    (∃ (s : State) (x : Fin 2) (k : BitVec 2), s.pwr.winter = true ∧ (s.iob (0xF040 + 4 * x.val)).getLsbD 0 = true ∧
      (s.iob (0xF040 + 4 * x.val)).getLsbD 3 = false ∧ (s.iob (0xF44A + x.val)).getLsbD 0 = false ∧ k ≠ 0 ∧
      s.wnt.loops[x].broken = false ∧ s.wnt.loops[x].run ≠ 0) :=
  ⟨⟨{ on with pwr := { on.pwr with winter := true } }, by decide⟩,
   ⟨{ on with wnt := { on.wnt with fired := false, alarm := 10 } }, by decide⟩,
   ⟨{ on with wnt := { on.wnt with fired := false, alarm := 11 } }, by decide⟩,
   ⟨{ on with wnt := { on.wnt with auth := false } }, by decide⟩,
   ⟨{ on with wnt := { on.wnt with auth := true } }, 0, by decide⟩,
   ⟨{ on with wnt := { on.wnt with auth := true } }, 57, by decide⟩,
   ⟨{ on with wnt := { on.wnt with auth := true } }, 0, by decide⟩,
   ⟨on, by decide⟩,
   ⟨{ on with wnt := { on.wnt with wtCnt := 5, io := [(0xF02C, 1)] } }, by decide⟩,
   ⟨{ on with pwr := { on.pwr with winter := true } }, 0, true, by decide⟩,
   ⟨{ on with pwr := { on.pwr with winter := true }, wnt := { on.wnt with io := [(0xF034, 5)] } }, 1, by decide⟩,
   ⟨{ on with pwr := { on.pwr with winter := true } }, 0, by decide⟩,
   ⟨{ on with wnt := { on.wnt with spwBusy := false } }, by decide⟩,
   ⟨{ on with wnt := { on.wnt with spwBusy := true } }, by decide⟩,
   ⟨{ on with wnt := { on.wnt with spwBusy := true, sleep := false } }, by decide⟩,
   ⟨{ on with pwr := { on.pwr with winter := true }, mode := { on.mode with coreOn := false } }, 0, true, by decide⟩,
   ⟨{ on with pwr := { on.pwr with winter := true }, wnt := { on.wnt with io := [(0xF044, 1)], loops := Vector.replicate 2 { broken := false, kind := 0, run := 1, since := 0 } } },
     1, 2, by decide⟩⟩

/-- The hypotheses of SentinelUartMailboxAndSealEventsTakeEffect are met. -/
theorem wit_SentinelUartMailboxAndSealEventsTakeEffect :
    (∃ (s : State) (u : Fin 2), (s.wnt.uart[u]).core = false ∧ (s.iob (0xF072 + 8 * u.val)).toNat % 16 = 1) ∧
    (∃ (s : State) (u : Fin 2) (b : Byte) (l : List Byte), (s.wnt.uart[u]).core = false ∧ (s.wnt.uart[u]).tx = b :: l ∧
      s.iob (0xF072 + 8 * u.val) = 1 ∧ s.wnt.sleep = false) ∧
    (∃ (s : State), s.regsOn = true ∧ (s.wnt.uart[0]).core = false ∧ (s.wnt.uart[1]).core = false ∧
      (s.wnt.uart[0]).grant = false ∧ (s.wnt.uart[1]).grant = false) ∧
    (∃ (s : State) (u : Fin 2), s.mode.coreOn = true ∧ (s.wnt.uart[u]).core = false ∧ (s.wnt.uart[u]).tx = [] ∧
      bit (s.reg R.sntUartReq) u.val = true ∧ (s.wnt.uart[u]).grant = true) ∧
    (∃ (s : State), s.regsOn = true ∧ s.wnt.infull = false) ∧
    (∃ (s : State), s.regsOn = true ∧ s.wnt.infull = true) ∧
    (∃ (s : State), s.regsOn = true ∧ s.wnt.out.getLsbD 0 = true) ∧
    (∃ (s : State), s.regsOn = true ∧ s.wnt.out.getLsbD 0 = false) ∧
    (∃ (s : State), s.sntRuns = true ∧ s.mode.coreOn = false) ∧
    (∃ (s : State), s.sntRuns = true ∧ s.mode.coreOn = true ∧ s.wnt.out.getLsbD 0 = true) ∧
    (∃ (s : State), s.sntRuns = true ∧ s.mode.coreOn = true ∧ s.wnt.out.getLsbD 0 = false ∧ s.iob 0xF150 = 1 ∧
      fldN (wordLE (mread 0 s.wnt.io 0xF130 4)) 0 4 ≠ 1) ∧
    (∃ (s : State), s.sntRuns = true ∧ s.mode.coreOn = true ∧ s.wnt.out.getLsbD 0 = false ∧ 8 < (s.iob 0xF150).toNat) ∧
    (∃ (s : State) (r : Fin 64) (n : Nat) (w : Word), s.sntRuns = true ∧ s.mode.coreOn = true ∧ s.wnt.out.getLsbD 0 = false ∧
      (s.iob 0xF151).toNat = r.val ∧ (s.iob 0xF150).toNat = n ∧ 1 ≤ n ∧ n ≤ 8 ∧ w = wordLE (mread 0 s.wnt.io 0xF130 4) ∧
      w.toNat % 16 = n ∧ (s.ringCfg r).role ≠ 0 ∧ (s.sch.ring[r]).opened[(2 : Fin 5)] = none ∧
      (s.sch.ring[r]).torn[(2 : Fin 5)] = none ∧ n ≤ s.ringFree r) ∧
    (∃ (s : State), s.sntRuns = true ∧ s.wnt.sealing = none ∧ (s.iob 0xF202).toNat ≤ 32 ∧ (s.iob 0xF203).toNat ≠ 0 ∧
      (s.iob 0xF203).toNat ≤ 200 ∧ s.wnt.sealLock = false ∧ s.wnt.sealKey.isSome = true ∧ (s.slotKey 12).isSome = true ∧
      s.wnt.seqOut ≠ BitVec.allOnes 64) ∧
    (∃ (s : State), s.sntRuns = true ∧ s.wnt.sealing = none ∧ (s.iob 0xF202).toNat ≤ 32 ∧ (s.iob 0xF203).toNat ≠ 0 ∧
      (s.iob 0xF203).toNat ≤ 200 ∧ s.wnt.sealLock = false ∧ s.wnt.sealKey.isSome = true ∧ (s.slotKey 12).isSome = true ∧
      s.wnt.seqOut = BitVec.allOnes 64) ∧
    (∃ (s : State), s.sntRuns = true ∧ s.wnt.sealing = none ∧ (s.iob 0xF202).toNat ≤ 32 ∧ (s.iob 0xF203).toNat ≠ 0 ∧
      (s.iob 0xF203).toNat ≤ 200 ∧ (s.wnt.sealKey = none ∨ s.slotKey 12 = none)) ∧
    (∃ (s : State) (o : SealOp) (r : BitVec 4), s.wnt.sealing = some o ∧ s.wnt.sleep = false ∧ o.stop = some r) ∧
    (∃ (s : State) (o : SealOp) (key : List Byte), s.wnt.sealing = some o ∧ s.wnt.sleep = false ∧ o.stop = none ∧
      o.isOpen = false ∧ s.wnt.sealKey = some key) ∧
    (∃ (s : State) (o : SealOp) (key : List Byte),
      (let nonce := mread 0 s.wnt.io 0xF300 13; let ctr : DWord := BitVec.ofNat 64 (natLE (nonce.take 8)); s.wnt.sealing = some o ∧
      s.wnt.sleep = false ∧ o.stop = none ∧ o.isOpen = true ∧ s.wnt.sealKey = some key ∧
      natLE (nonce.drop 8) = s.uid.toNat % 2 ^ 39 + 2 ^ 39 ∧ s.wnt.seqIn < ctr)) ∧
    (∃ (s : State) (o : SealOp),
      (let nonce := mread 0 s.wnt.io 0xF300 13; let ctr : DWord := BitVec.ofNat 64 (natLE (nonce.take 8)); s.wnt.sealing = some o ∧
      s.wnt.sleep = false ∧ o.stop = none ∧ o.isOpen = true ∧ natLE (nonce.drop 8) = s.uid.toNat % 2 ^ 39 + 2 ^ 39 ∧
      ctr ≤ s.wnt.seqIn)) ∧
    (∃ (s : State) (v : Byte), (let c : Half := v ++ s.iob 0xF170; s.sntRuns = true ∧ s.mapsWf = true ∧
      (c < 0xE000 ∨ 0xEFFF < c))) ∧
    (∃ (s : State) (v : Byte), (let c : Half := v ++ s.iob 0xF170; s.sntRuns = true ∧ s.mapsWf = true ∧ 0xE000 ≤ c ∧
      c ≤ 0xEFFF)) :=
  ⟨⟨{ on with wnt := { on.wnt with io := [(0xF072, 1)] } }, 0, by decide⟩,
   ⟨{ on with wnt := { on.wnt with sleep := false, io := [(0xF072, 1)], uart := vput on.wnt.uart 0 { on.wnt.uart[0] with tx := [7, 8] } } },
     0, 7, ([8]), by decide⟩,
   ⟨on, by decide⟩,
   ⟨{ (on.setReg R.sntUartReq 1) with mode := { (on.setReg R.sntUartReq 1).mode with coreOn := true }, wnt := { (on.setReg R.sntUartReq 1).wnt with uart := vput on.wnt.uart 0 { on.wnt.uart[0] with grant := true } } },
     0, by decide⟩,
   ⟨{ on with wnt := { on.wnt with infull := false } }, by decide⟩,
   ⟨{ on with wnt := { on.wnt with infull := true } }, by decide⟩,
   ⟨{ on with wnt := { on.wnt with out := 1 } }, by decide⟩,
   ⟨on, by decide⟩,
   ⟨{ on with mode := { on.mode with coreOn := false } }, by decide⟩,
   ⟨{ on with mode := { on.mode with coreOn := true }, wnt := { on.wnt with out := 1 } }, by decide⟩,
   ⟨{ on with mode := { on.mode with coreOn := true }, wnt := { on.wnt with io := [(0xF130, 5), (0xF150, 1)] } },
     by decide⟩,
   ⟨{ on with mode := { on.mode with coreOn := true }, wnt := { on.wnt with io := [(0xF150, 9)] } }, by decide⟩,
   ⟨{ on with mode := { on.mode with coreOn := true }, wnt := { on.wnt with io := [(0xF130, 1), (0xF132, 1), (0xF150, 1), (0xF151, 3)] } },
     3, 1, 0x00010001, by decide⟩,
   ⟨{ on with wnt := { on.wnt with sealing := none, sealLock := false, sealKey := some (List.replicate 32 0), io := [(0xF203, 200)] }, key := { on.key with vault := vput on.key.vault 12 { on.key.vault[12] with state := .active } } },
     by decide⟩,
   ⟨{ on with wnt := { on.wnt with sealing := none, sealLock := false, seqOut := BitVec.allOnes 64, sealKey := some (List.replicate 32 0), io := [(0xF203, 1)] }, key := { on.key with vault := vput on.key.vault 12 { on.key.vault[12] with state := .active } } },
     by decide⟩,
   ⟨{ on with wnt := { on.wnt with sealing := none, sealKey := none, io := [(0xF203, 1)] } }, by decide⟩,
   ⟨{ on with wnt := { on.wnt with sealing := some { isOpen := true, stop := some 8 }, sleep := false } },
     { isOpen := true, stop := some 8 }, 8, by decide⟩,
   ⟨{ on with wnt := { on.wnt with sealing := some { isOpen := false, stop := none }, sleep := false, sealKey := some (List.replicate 32 0), io := [(0xF203, 2), (0xF330, 5)] } },
     { isOpen := false, stop := none }, (List.replicate 32 0), by decide⟩,
   ⟨{ ({ on with uid := 3 }) with wnt := { ({ on with uid := 3 }).wnt with sealing := some { isOpen := true, stop := none }, sleep := false, sealKey := some (List.replicate 16 0), io := mwrite 0 [(0xF203, 1), (0xF330, 5)] 0xF300 [1, 0, 0, 0, 0, 0, 0, 0, 3, 0, 0, 0, 0x80] } },
     { isOpen := true, stop := none }, (List.replicate 16 0), by decide⟩,
   ⟨{ ({ on with uid := 3 }) with wnt := { ({ on with uid := 3 }).wnt with sealing := some { isOpen := true, stop := none }, sleep := false, seqIn := 5, io := mwrite 0 [(0xF203, 2), (0xF330, 5)] 0xF300 [5, 0, 0, 0, 0, 0, 0, 0, 3, 0, 0, 0, 0x80] } },
     { isOpen := true, stop := none }, by decide⟩,
   ⟨on, 0, by decide⟩,
   ⟨on, 0xE1, by decide⟩⟩

/-- The hypotheses of UsageEventsTakeEffect are met. -/
theorem wit_UsageEventsTakeEffect :
    (∃ (s : State) (m : Fin 4), (s.use.meter[m]).sel = 3 ∧ s.mode.mode = .protect) ∧
    (∃ (s : State) (m : Fin 4), (s.use.meter[m]).sel = 3 ∧ s.mode.mode ≠ .protect) ∧
    (∃ (s : State) (m : Fin 4), (s.use.meter[m]).sel = 2 ∧ s.mode.mode = .ready ∧ s.running = true) ∧
    (∃ (s : State), s.regsOn = true ∧ s.mode.mode ≠ .service) ∧
    (∃ (s : State), s.regsOn = true ∧ s.mode.mode = .service) ∧
    (∃ (s : State), s.sntRuns = true ∧ s.wnt.auth = false) ∧
    (∃ (s : State) (v : Word), s.regsOn = true ∧ (fld v 16 16 ≠ 0x4D48 ∨ s.mode.mode ≠ .service)) ∧
    (∃ (s : State) (v : Word), s.regsOn = true ∧ fld v 16 16 = 0x4D48 ∧ s.mode.mode = .service) ∧
    (∃ (s : State) (p : PresetReq) (l : List PresetReq), s.use.presets = p :: l ∧ (s.use.meter[p.meter]).sec < p.value) ∧
    (∃ (s : State) (p : PresetReq) (l : List PresetReq), s.use.presets = p :: l ∧ p.value ≤ (s.use.meter[p.meter]).sec ∧
      p.core = true) ∧
    (∃ (s : State) (v : Byte), s.sntRuns = true ∧ s.wnt.auth = false ∧ s.use.en = true ∧ s.use.hold = false ∧ v = 3) ∧
    (∃ (s : State) (v : Byte), s.sntRuns = true ∧ s.wnt.auth = false ∧ v.getLsbD 7 = true) ∧
    (∃ (s : State) (v : Byte), s.sntRuns = true ∧ s.wnt.auth = true ∧ v = 0x81) ∧
    (∃ (s : State) (v : Word), s.regsOn = true ∧ fld v 16 16 = 0x0FF5 ∧ bit v 0 = true ∧ s.use.hold = false) ∧
    (∃ (s : State) (v : Word), s.regsOn = true ∧ (fld v 16 16 ≠ 0x0FF5 ∨ bit v 0 = false ∨ s.use.hold = true)) ∧
    (∃ (s : State) (v : Byte), s.sntRuns = true ∧ s.wnt.auth = false ∧ s.use.immobCtl = 0 ∧ (v &&& 7) = 1) ∧
    (∃ (s : State) (v : Byte), s.sntRuns = true ∧ s.wnt.auth = false ∧ s.use.immobCtl = 1 ∧ (v &&& 7) = 0) ∧
    (∃ (s : State) (v : Byte), s.sntRuns = true ∧ s.wnt.auth = false ∧ v &&& s.use.thStat ≠ 0) ∧
    (∃ (s : State) (v : Byte), s.sntRuns = true ∧ s.wnt.auth = true ∧ v &&& s.use.thStat ≠ 0) ∧
    (∃ (s : State), s.pwr.winter = true ∧ s.use.cut = false) ∧
    (∃ (s : State), s.pwr.winter = true ∧ s.use.cut = true) ∧
    (∃ (s : State) (v : Byte), s.sntRuns = true ∧ (s.iob 0xF44E).getLsbD 0 = true ∧ (s.iob 0xF44E).getLsbD 1 = false ∧ v = 0x40) ∧
    (∃ (s : State) (v : Byte), s.sntRuns = true ∧ (s.iob 0xF44E).getLsbD 0 = true ∧ (s.iob 0xF44E).getLsbD 1 = false ∧
      v &&& 0xC0 = 0) :=
  ⟨⟨{ on with mode := { on.mode with mode := .protect }, use := { on.use with meter := vput on.use.meter 0 { on.use.meter[0] with sel := 3 } } },
     0, by decide⟩,
   ⟨{ on with use := { on.use with meter := vput on.use.meter 0 { on.use.meter[0] with sel := 3 } } }, 0, by decide⟩,
   ⟨{ on with mode := { on.mode with mode := .ready }, use := { on.use with meter := vput on.use.meter 0 { on.use.meter[0] with sel := 2 } } },
     0, by decide⟩,
   ⟨on, by decide⟩,
   ⟨{ on with mode := { on.mode with mode := .service } }, by decide⟩,
   ⟨{ on with wnt := { on.wnt with auth := false } }, by decide⟩,
   ⟨on, 0, by decide⟩,
   ⟨{ on with mode := { on.mode with mode := .service } }, 0x4D480000, by decide⟩,
   ⟨{ on with use := { on.use with presets := [{ meter := 0, value := 9, core := true }] } },
     { meter := 0, value := 9, core := true }, ([]), by decide⟩,
   ⟨{ on with use := { on.use with presets := [{ meter := 0, value := 9, core := true }], meter := vput on.use.meter 0 { on.use.meter[0] with sec := 9 } } },
     { meter := 0, value := 9, core := true }, ([]), by decide⟩,
   ⟨{ on with wnt := { on.wnt with auth := false }, use := { on.use with en := true, hold := false } }, 3, by decide⟩,
   ⟨{ on with wnt := { on.wnt with auth := false } }, 0x80, by decide⟩,
   ⟨{ on with wnt := { on.wnt with auth := true } }, 0x81, by decide⟩,
   ⟨{ on with use := { on.use with hold := false } }, 0xff50001, by decide⟩,
   ⟨on, 0, by decide⟩,
   ⟨{ on with wnt := { on.wnt with auth := false }, use := { on.use with immobCtl := 0 } }, 1, by decide⟩,
   ⟨{ on with wnt := { on.wnt with auth := false }, use := { on.use with immobCtl := 1 } }, 0, by decide⟩,
   ⟨{ on with wnt := { on.wnt with auth := false }, use := { on.use with thStat := 0x40 } }, 0x41, by decide⟩,
   ⟨{ on with wnt := { on.wnt with auth := true }, use := { on.use with thStat := 0x40 } }, 0x41, by decide⟩,
   ⟨{ on with pwr := { on.pwr with winter := true }, use := { on.use with cut := false } }, by decide⟩,
   ⟨{ on with pwr := { on.pwr with winter := true }, use := { on.use with cut := true } }, by decide⟩,
   ⟨{ on with wnt := { on.wnt with io := [(0xF44E, 1)] } }, 0x40, by decide⟩,
   ⟨{ on with wnt := { on.wnt with io := [(0xF44E, 1)] } }, 0x3F, by decide⟩⟩

/-- The hypotheses of EnergyEventsTakeEffect are met. -/
theorem wit_EnergyEventsTakeEffect :
    (∃ (s : State) (c : UmuCfg) (b : DWord) (p : List Word), s.umuCfg = some c ∧ s.umu.opened = true ∧
      s.umu.held = [.commit b p] ∧ s.umu.bounds = [] ∧ b.toNat + 5000 ≤ s.time.dt.toNat ∧ c.group[(0 : Fin 4)] = 4 ∧
      c.group[(1 : Fin 4)] = 0 ∧ c.group[(2 : Fin 4)] = 0 ∧ c.group[(3 : Fin 4)] = 0) ∧
    (∃ (s : State) (b : DWord) (p : List Word) (l : List UmuIn), s.umu.held = .commit b p :: l ∧
      s.time.dt.toNat < b.toNat + 5000) ∧
    (∃ (s : State) (n : Nat), s.time.syncRtc.toNat + n < 2 ^ 64) ∧
    (∃ (s : State) (c : UmuCfg) (x : UmuBound) (l : List UmuBound), s.umuCfg = some c ∧ s.umu.live = true ∧
      s.umu.opened = true ∧ s.umu.held = [] ∧ s.umu.bounds = x :: l ∧ s.umu.pend = none ∧
      s.time.dt.toNat < (s.toDt x.rtct).toNat + 5000) ∧
    (∃ (s : State) (c : UmuCfg) (x : UmuBound) (l : List UmuBound), s.umuCfg = some c ∧ s.umu.live = true ∧
      s.umu.opened = true ∧ s.umu.held = [] ∧ s.umu.bounds = x :: l ∧ s.umu.pend = none ∧
      (s.toDt x.rtct).toNat + 5000 ≤ s.time.dt.toNat ∧ (max 0 x.sec).toNat / 60 % 60 % c.demandMin ≠ 0 ∧
      tariffAt s.umu.data.sched x.sec = s.umu.tariff) ∧
    (∃ (s : State) (c : UmuCfg) (x : UmuBound) (l : List UmuBound), s.umuCfg = some c ∧ s.umu.live = true ∧
      s.umu.opened = true ∧ s.umu.held = [] ∧ s.umu.bounds = x :: l ∧ s.umu.pend = none ∧
      (s.toDt x.rtct).toNat + 5000 ≤ s.time.dt.toNat ∧ (max 0 x.sec).toNat / 60 % 60 % c.demandMin = 0 ∧ s.umu.ue = false) ∧
    (∃ (s : State) (v : Word), s.regsOn = true ∧ fld v 16 16 ≠ 0x8B1D) ∧
    (∃ (s : State) (v : Word), s.regsOn = true ∧ fld v 16 16 = 0x8B1D ∧ bit v 0 = true ∧ s.mode.mode = .ready ∧
      s.umuCfg.isSome = true ∧ s.umu.held = [] ∧ s.umu.bounds = []) ∧
    (∃ (s : State) (v : Word), s.regsOn = true ∧ fld v 16 16 = 0x8B1D ∧ bit v 0 = true ∧ s.mode.mode = .ready ∧
      s.umuCfg.isSome = true ∧ s.umu.bounds ≠ []) ∧
    (∃ (s : State), s.regsOn = true ∧ s.mode.mode ≠ .service) ∧
    (∃ (s : State), s.regsOn = true ∧ s.mode.mode = .service ∧ s.umuCfg.isSome = true ∧ fldN (s.reg 0x000F0030) 0 7 < 98) ∧
    (∃ (s : State) (v : Word), s.regsOn = true ∧ s.mode.mode = .service ∧ s.umuCfg.isSome = true ∧ v = 0x5C4E0001 ∧
      schedOk s.umu.staged = true) ∧
    (∃ (s : State) (v : Word), s.regsOn = true ∧ s.mode.mode = .service ∧ s.umuCfg.isSome = true ∧ v = 0x5C4E0001 ∧
      schedOk s.umu.staged = false) ∧
    (∃ (s : State) (v : Word), s.regsOn = true ∧ s.mode.mode = .service ∧ s.umuCfg.isSome = true ∧ v = 0x5C4E0002) :=
  ⟨⟨{ on with umu := { on.umu with opened := true, held := [.commit (77) ([0, 0, 5000000])], bounds := [] } },
     { group := #v[4, 0, 0, 0], demandMin := 15, sched := List.replicate 98 0 }, 77, ([0, 0, 5000000]), by decide⟩,
   ⟨{ on with umu := { on.umu with held := .commit (999000) ([]) :: ([]) } }, 999000, ([]), ([]), by decide⟩,
   ⟨on, 0, by decide⟩,
   ⟨{ on with umu := { on.umu with live := true, opened := true, held := [], bounds := ({ rtct := 0, utc := 0, sec := 60 }) :: ([]), pend := none }, time := { on.time with syncDt := 999000 } },
     { group := #v[4, 0, 0, 0], demandMin := 15, sched := List.replicate 98 0 }, { rtct := 0, utc := 0, sec := 60 }, ([]),
     by decide⟩,
   ⟨{ on with umu := { on.umu with live := true, opened := true, held := [], bounds := ({ rtct := 0, utc := 0, sec := 60 }) :: ([]), pend := none } },
     { group := #v[4, 0, 0, 0], demandMin := 15, sched := List.replicate 98 0 }, { rtct := 0, utc := 0, sec := 60 }, ([]),
     by decide⟩,
   ⟨{ on with umu := { on.umu with live := true, opened := true, held := [], bounds := ({ rtct := 0, utc := 0, sec := 900 }) :: ([]), pend := none, ue := false } },
     { group := #v[4, 0, 0, 0], demandMin := 15, sched := List.replicate 98 0 }, { rtct := 0, utc := 0, sec := 900 }, ([]),
     by decide⟩,
   ⟨on, 0, by decide⟩,
   ⟨{ on with mode := { on.mode with mode := .ready }, umu := { on.umu with held := [], bounds := [] } }, 0x8b1d0001,
     by decide⟩,
   ⟨{ on with mode := { on.mode with mode := .ready }, umu := { on.umu with bounds := [{ rtct := 0, utc := 0, sec := 60 }] } },
     0x8B1D0001, by decide⟩,
   ⟨on, by decide⟩,
   ⟨{ on with mode := { on.mode with mode := .service } }, by decide⟩,
   ⟨{ on with mode := { on.mode with mode := .service } }, 0x5C4E0001, by decide⟩,
   ⟨{ on with mode := { on.mode with mode := .service }, umu := { on.umu with staged := [0x87FF] ++ List.replicate 97 0 } },
     0x5C4E0001, by decide⟩,
   ⟨{ on with mode := { on.mode with mode := .service } }, 0x5C4E0002, by decide⟩⟩

set_option maxRecDepth 20000 in
/-- The hypotheses of MoverVaultAndAuthenticationCommandsTakeEffect are met. -/
theorem wit_MoverVaultAndAuthenticationCommandsTakeEffect :
    (∃ (s : State) (c : Fin 8),
      (let src := s.reg (R.movSrc c.val); let dst := s.reg (R.movDst c.val); let len := (s.reg (R.movLen c.val)).toNat % 0x2000000; s.regsOn = true ∧
      3 ≤ c.val ∧ s.movOpen = true ∧ (s.key.mov[c]).busy = false ∧ len ≤ 16777216 ∧ len % 32 = 0 ∧ src.toNat % 32 = 0 ∧
      internalOk dst len false = true)) ∧
    (∃ (s : State) (c : Fin 8),
      (let src := s.reg (R.movSrc c.val); let dst := s.reg (R.movDst c.val); let len := (s.reg (R.movLen c.val)).toNat % 0x2000000; s.regsOn = true ∧
      3 ≤ c.val ∧ s.movOpen = true ∧ (s.key.mov[c]).busy = false ∧ len ≤ 16777216 ∧ len % 32 = 0 ∧ dst.toNat % 32 = 0 ∧
      internalOk src len true = true)) ∧
    (∃ (s : State) (c : Fin 8),
      (let dst := s.reg (R.movDst c.val); let len := (s.reg (R.movLen c.val)).toNat % 0x2000000; s.regsOn = true ∧ 3 ≤ c.val ∧
      s.movOpen = true ∧ (s.key.mov[c]).busy = false ∧ len ≤ 16777216 ∧ len % 32768 = 0 ∧ dst.toNat % 32768 = 0)) ∧
    (∃ (s : State) (c : Fin 8), (let len := (s.reg (R.movLen c.val)).toNat % 0x2000000; s.regsOn = true ∧ 3 ≤ c.val ∧
      s.movOpen = true ∧ ((s.key.mov[c]).busy = true ∨ 16777216 < len ∨ len % 32 ≠ 0))) ∧
    (∃ (s : State) (c : Fin 8), s.regsOn = true ∧ c.val < 3) ∧
    (∃ (s : State) (c : Fin 8), s.mode.coreOn = true ∧ (s.key.mov[c]).busy = true ∧ (s.key.mov[c]).op = 1 ∧
      (s.key.mov[c]).len = 0 ∧ (s.key.mov[c]).push = false ∧ (s.key.mov[c]).erased = false ∧ (s.key.mov[c]).abortLate = false ∧
      s.bscan = false ∧ s.cfg.closing = false) ∧
    (∃ (s : State) (c : Fin 8) (v : Word), s.regsOn = true ∧ fld v 16 16 = 0x3D9A ∧ (s.key.mov[c]).busy = true ∧ 3 ≤ c.val) ∧
    (∃ (s : State) (v : Word), s.regsOn = true ∧ fld v 16 16 ≠ 0x3D9A) ∧
    (∃ (s : State) (slot : Fin 16), s.regsOn = true ∧ s.key.vop = none ∧ s.mode.mode = .service ∧ slot.val < 14 ∧
      s.key.vault[slot].state = .empty ∧ kcv s.vaultKeyIn = s.reg R.vaultKcv) ∧
    (∃ (s : State) (slot : Fin 16), s.regsOn = true ∧ s.key.vop = none ∧ s.mode.mode = .service ∧ slot.val < 14 ∧
      s.key.vault[slot].state ≠ .empty) ∧
    (∃ (s : State) (slot : Fin 16), s.regsOn = true ∧ s.key.vop = none ∧ s.mode.mode = .service ∧
      (s.key.vault[slot].state = .staged ∨ s.key.vault[slot].state = .active)) ∧
    (∃ (s : State) (slot : Fin 16), s.regsOn = true ∧ s.key.vop = none ∧ s.mode.mode = .service ∧
      (s.key.vault[slot].state = .empty ∨ s.key.vault[slot].state = .revoked)) ∧
    (∃ (s : State) (o : VaultOp), s.mode.coreOn = true ∧ s.key.vop = some o) ∧
    (∃ (s : State) (b : List Word) (l : List (List Word)), s.regsOn = true ∧ s.esu.fifo = b :: l ∧ b.length = 8 ∧
      s.drbgWants = false ∧ s.esu.wantDbg = false ∧ l = []) ∧
    (∃ (s : State), s.regsOn = true ∧ s.key.authBusy = false ∧ s.key.authLock = true) ∧
    (∃ (s : State), s.regsOn = true ∧ s.key.authBusy = false ∧ s.key.authLock = false ∧ s.key.fresh = false) ∧
    (∃ (s : State), s.regsOn = true ∧ s.key.authBusy = false ∧ s.key.authLock = false ∧ s.key.fresh = true ∧
      1 ≤ (s.key.token.getD 32 0).toNat ∧ (s.key.token.getD 32 0).toNat ≤ 28800) ∧
    (∃ (s : State), s.key.authBusy = true) ∧
    (∃ (s : State), s.key.authValid = true ∧ s.mode.mode ≠ .service ∧ s.key.authEnd ≤ s.time.dt) ∧
    (∃ (s : State), s.mode.mode = .service ∨ s.time.dt < s.key.authEnd) ∧
    (∃ (s : State), s.key.lockEnd ≤ s.time.dt) ∧
    (∃ (s : State), s.dbg.lockEnd ≤ s.time.dt) ∧
    (∃ (s : State), s.time.dt < s.key.lockEnd) ∧
    (∃ (s : State), s.time.dt < s.dbg.lockEnd) :=
  ⟨⟨(((on.setReg (R.movSrc 3) 0x80000020).setReg (R.movDst 3) 0x2003A000).setReg (R.movLen 3) 0x40000), 3, by decide⟩,
   ⟨(((on.setReg (R.movSrc 3) 0x28000000).setReg (R.movDst 3) 0x80000020).setReg (R.movLen 3) 0x20), 3, by decide⟩,
   ⟨(((on.setReg (R.movSrc 3) 0).setReg (R.movDst 3) 0x80008000).setReg (R.movLen 3) 0x8000), 3, by decide⟩,
   ⟨(((on.setReg (R.movSrc 3) 0x80000020).setReg (R.movDst 3) 0x2003A000).setReg (R.movLen 3) 0x40010), 3, by decide⟩,
   ⟨on, 0, by decide⟩,
   ⟨{ on with mode := { on.mode with coreOn := true }, cfg := { on.cfg with closing := false, img := some { tImage with mem := { tMem with data := vput tMem.data 0 { base := 0x100000, limit := 0x10FFFF, key := 1 } } } }, key := { on.key with mov := vput on.key.mov 3 { MovSt.reset with busy := true, op := 1, src := 0x90100000 }, loaded := vput on.key.loaded 4 (some (List.replicate 16 0)) } },
     3, by decide⟩,
   ⟨{ on with key := { on.key with mov := vput on.key.mov 3 { MovSt.reset with busy := true, op := 1 } } }, 3, 0x3D9A0001,
     by decide⟩,
   ⟨on, 0, by decide⟩,
   ⟨{ (on.setReg R.vaultKcv (kcv (List.replicate 32 0))) with key := { (on.setReg R.vaultKcv (kcv (List.replicate 32 0))).key with vop := none }, mode := { (on.setReg R.vaultKcv (kcv (List.replicate 32 0))).mode with mode := .service } },
     13, by decide⟩,
   ⟨{ on with key := { on.key with vop := none, vault := vput on.key.vault 13 { on.key.vault[13] with state := .staged } }, mode := { on.mode with mode := .service } },
     13, by decide⟩,
   ⟨{ on with key := { on.key with vop := none, vault := vput on.key.vault 15 { on.key.vault[15] with state := .active } }, mode := { on.mode with mode := .service } },
     15, by decide⟩,
   ⟨{ on with key := { on.key with vop := none }, mode := { on.mode with mode := .service } }, 0, by decide⟩,
   ⟨{ on with mode := { on.mode with coreOn := true }, key := { on.key with vop := some { slot := 14, revoke := false, role := 3, key := List.replicate 32 0 } } },
     { slot := 14, revoke := false, role := 3, key := List.replicate 32 0 }, by decide⟩,
   ⟨{ on with esu := { on.esu with fifo := [List.replicate 8 5], wantDbg := false } }, (List.replicate 8 5), ([]),
     by decide⟩,
   ⟨{ on with key := { on.key with authBusy := false, authLock := true } }, by decide⟩,
   ⟨{ on with key := { on.key with authBusy := false, authLock := false, fresh := false } }, by decide⟩,
   ⟨{ on with key := { on.key with authBusy := false, authLock := false, fresh := true, token := List.replicate 32 0 ++ [28800] } },
     by decide⟩,
   ⟨{ on with key := { on.key with authBusy := true } }, by decide⟩,
   ⟨{ on with key := { on.key with authValid := true } }, by decide⟩,
   ⟨{ on with mode := { on.mode with mode := .service } }, by decide⟩,
   ⟨on, by decide⟩,
   ⟨on, by decide⟩,
   ⟨{ on with key := { on.key with lockEnd := 0xFFFFFFFFFF } }, by decide⟩,
   ⟨{ on with dbg := { on.dbg with lockEnd := 0xFFFFFFFFFF } }, by decide⟩⟩

/-- The hypotheses of EntropyEventsTakeEffect are met. -/
theorem wit_EntropyEventsTakeEffect :
    (∃ (s : State), s.esuOn = true ∧ s.time.dt.toNat % 100 = 0 ∧ s.esu.last ≠ some s.time.dt ∧ s.esu.condRun = false ∧
      s.esu.katSha = false ∧ s.esu.bits = [] ∧ s.esu.held = [] ∧ (∀ i : Fin 5, (s.esu.src[i]).st = 1 ∧ (s.esu.src[i]).rep < 40 ∧
      (s.esu.src[i]).same < 794)) ∧
    (∃ (s : State) (bits : BitVec 5), s.esuOn = true ∧ s.time.dt.toNat % 100 = 0 ∧ s.esu.last ≠ some s.time.dt ∧
      s.esu.condRun = false ∧ s.esu.katSha = false ∧ s.esu.bits = [] ∧ s.esu.held = [] ∧ (s.esu.src[(0 : Fin 5)]).st = 1 ∧
      (s.esu.src[(0 : Fin 5)]).rep = 40 ∧ (s.esu.src[(0 : Fin 5)]).last = bits.getLsbD 0) ∧
    (∃ (s : State), s.esuOn = false ∨ s.time.dt.toNat % 100 ≠ 0 ∨ s.esu.last = some s.time.dt) ∧
    (∃ (s : State) (b : EsuBlock) (l : List EsuBlock), s.esu.held = b :: l ∧ b.age < 41) ∧
    (∃ (s : State) (b : EsuBlock) (l : List EsuBlock), s.esu.held = b :: l ∧ 41 ≤ b.age ∧ 4 ≤ s.esu.fifo.length) ∧
    (∃ (s : State) (b : EsuBlock) (l : List EsuBlock), s.esu.held = b :: l ∧ 41 ≤ b.age ∧ s.esu.fifo.length < 4 ∧
      s.drbgWants = false ∧ s.esu.wantSec = false ∧ s.esu.wantDbg = false) ∧
    (∃ (s : State), s.esuOn = true ∧ s.esu.drbgRun = true ∧ s.esu.dfifo.length ≤ 16) ∧
    (∃ (s : State), s.esuOn = true ∧ s.esu.drbgRun = true ∧ 16 < s.esu.dfifo.length) ∧
    (∃ (s : State), s.esuOn = true ∧ s.esu.drbgRun = true ∧ s.esu.due = none ∧ s.esu.fifo = [] ∧
      (65536 ≤ s.esu.gens ∨ 100000000 ≤ (s.time.dt - s.esu.seedDt).toNat)) ∧
    (∃ (s : State), s.esuOn = true ∧ s.esu.drbgRun = true ∧ s.esu.due = none ∧ s.esu.gens < 65536 ∧
      (s.time.dt - s.esu.seedDt).toNat < 100000000) ∧
    (∃ (s : State) (w : Word) (l : List Word), s.running = true ∧ s.mode.pf = false ∧ s.core.priv = true ∧
      s.latched (s.latchKey .core) 0x120010 = none ∧ s.latched (s.latchKey .core) 0x120008 = none ∧ s.esu.dfifo = w :: l) ∧
    (∃ (s : State), s.running = true ∧ s.mode.pf = false ∧ s.core.priv = true ∧ s.latched (s.latchKey .core) 0x120010 = none ∧
      s.latched (s.latchKey .core) 0x120008 = none ∧ s.esu.dfifo = []) ∧
    (∃ (s : State) (w : Word) (r : List Word) (l : List (List Word)), s.running = true ∧ s.mode.pf = false ∧
      s.core.priv = true ∧ s.latched (s.latchKey .core) 0x120010 = none ∧ s.latched (s.latchKey .core) 0x120008 = none ∧
      s.esu.fifo = (w :: r) :: l ∧ r ≠ []) ∧
    (∃ (s : State), s.running = true ∧ s.mode.pf = false ∧ s.core.priv = true ∧ s.latched (s.latchKey .core) 0x120010 = none ∧
      s.latched (s.latchKey .core) 0x120008 = none ∧ s.esu.fifo = []) ∧
    (∃ (s : State) (v : Word), s.regsOn = true ∧ fld v 16 16 ≠ 0xE5A0) ∧
    (∃ (s : State), s.regsOn = true ∧ (∃ i : Fin 5, (s.esu.src[i]).st = 0)) ∧
    (∃ (s : State), s.regsOn = true ∧ (∀ i : Fin 5, (s.esu.src[i]).st ≠ 0)) ∧
    (∃ (s : State), s.regsOn = true ∧ s.esu.drbgRun = true ∧ s.esu.due = none ∧ s.esu.fifo = []) :=
  ⟨⟨{ on with esu := { on.esu with condRun := false, katSha := false, bits := [], held := [], src := Vector.replicate 5 { EsuSrc.reset with st := 1, rep := 39, same := 793, winN := 1000 } } },
     by decide⟩,
   ⟨{ on with esu := { on.esu with condRun := false, katSha := false, bits := [], held := [], src := Vector.replicate 5 { EsuSrc.reset with st := 1, rep := 40, same := 700 } } },
     0, by decide⟩,
   ⟨{ on with time := { on.time with dt := 1000001 } }, by decide⟩,
   ⟨{ on with esu := { on.esu with held := [{ out := List.replicate 32 7, mask := 5, age := 40 }] } },
     { out := List.replicate 32 7, mask := 5, age := 40 }, ([]), by decide⟩,
   ⟨{ on with esu := { on.esu with held := [{ out := List.replicate 32 7, mask := 5, age := 41 }], fifo := List.replicate 4 [1] } },
     { out := List.replicate 32 7, mask := 5, age := 41 }, ([]), by decide⟩,
   ⟨{ on with esu := { on.esu with held := [{ out := List.replicate 32 7, mask := 5, age := 41 }], wantSec := false, wantDbg := false, fifo := List.replicate 3 [1] } },
     { out := List.replicate 32 7, mask := 5, age := 41 }, ([]), by decide⟩,
   ⟨{ on with esu := { on.esu with drbgRun := true } }, by decide⟩,
   ⟨{ on with esu := { on.esu with drbgRun := true, dfifo := List.replicate 17 0 } }, by decide⟩,
   ⟨{ on with esu := { on.esu with drbgRun := true, due := none, fifo := [], gens := 65536 } }, by decide⟩,
   ⟨{ on with esu := { on.esu with drbgRun := true, due := none } }, by decide⟩,
   ⟨{ on with mode := { on.mode with pf := false }, core := { on.core with priv := true }, esu := { on.esu with dfifo := [3, 4] } },
     3, ([4]), by decide⟩,
   ⟨{ on with mode := { on.mode with pf := false }, core := { on.core with priv := true }, esu := { on.esu with dfifo := [] } },
     by decide⟩,
   ⟨{ on with mode := { on.mode with pf := false }, core := { on.core with priv := true }, esu := { on.esu with fifo := [[3, 4], [5]] } },
     3, ([4]), ([[5]]), by decide⟩,
   ⟨{ on with mode := { on.mode with pf := false }, core := { on.core with priv := true }, esu := { on.esu with fifo := [] } },
     by decide⟩,
   ⟨on, 3, by decide⟩,
   ⟨on, by decide⟩,
   ⟨{ on with esu := { on.esu with src := vput (Vector.replicate 5 { EsuSrc.reset with st := 1 }) 2 { EsuSrc.reset with st := 2 } } },
     by decide⟩,
   ⟨{ on with esu := { on.esu with drbgRun := true, due := none, fifo := [] } }, by decide⟩⟩

/-- The hypotheses of SafetyMonitorCommandsTakeEffect are met. -/
theorem wit_SafetyMonitorCommandsTakeEffect :
    (∃ (s : State) (a : Nat) (ch : Nat) (l : List (Nat × Nat)), s.saf.raised = (a, ch) :: l ∧ s.mode.coreOn = true ∧ 4 ≤ a ∧
      a ≤ 8) ∧
    (∃ (s : State) (ch : Nat) (l : List (Nat × Nat)), s.saf.raised = (2, ch) :: l ∧ s.mode.coreOn = true ∧ s.saf.deg = none) ∧
    (∃ (s : State) (d : DWord) (h : Nat), s.saf.deg = some (d, h) ∧ s.mode.coreOn = true ∧
      360000000000 * h ≤ (s.time.dt - d).toNat) ∧
    (∃ (s : State) (v : Word),
      (let key : BitVec 16 := if s.saf.next then 0xA55A else 0x5AA5; let ticks := (s.time.dt - s.saf.kickDt).toNat; s.regsOn = true ∧
      s.wdtHeld = false ∧ fld v 0 16 = key ∧ s.saf.first = false ∧ 10000 * s.saf.cfgClosed.toNat ≤ ticks ∧
      ticks ≤ 10000 * s.saf.cfgOpen.toNat)) ∧
    (∃ (s : State) (v : Word), (let key : BitVec 16 := if s.saf.next then 0xA55A else 0x5AA5; s.regsOn = true ∧
      s.wdtHeld = false ∧ fld v 0 16 ≠ key ∧ s.saf.good.toNat = 16 ∧ s.mode.warmReq = none)) ∧
    (∃ (s : State) (v : Word),
      (let key : BitVec 16 := if s.saf.next then 0xA55A else 0x5AA5; let ticks := (s.time.dt - s.saf.kickDt).toNat; s.regsOn = true ∧
      s.wdtHeld = false ∧ fld v 0 16 = key ∧ s.saf.first = false ∧ ticks < 10000 * s.saf.cfgClosed.toNat ∧
      s.saf.good.toNat = 16 ∧ s.mode.warmReq = none)) ∧
    (∃ (s : State) (v : Word),
      (let key : BitVec 16 := if s.saf.next then 0xA55A else 0x5AA5; let ticks := (s.time.dt - s.saf.kickDt).toNat; s.regsOn = true ∧
      s.wdtHeld = false ∧ fld v 0 16 = key ∧ s.saf.first = false ∧ 10000 * s.saf.cfgClosed.toNat ≤ ticks ∧
      10000 * s.saf.cfgOpen.toNat < ticks ∧ s.saf.good.toNat = 16 ∧ s.mode.warmReq = none)) ∧
    (∃ (s : State) (v : Word), (let key : BitVec 16 := if s.saf.next then 0xA55A else 0x5AA5; s.regsOn = true ∧
      s.wdtHeld = false ∧ fld v 0 16 ≠ key ∧ s.saf.good.toNat < 16)) ∧
    (∃ (s : State), s.regsOn = true ∧ s.wdtHeld = true) ∧
    (∃ (s : State),
      (let open_ := if s.saf.first then 2000 else s.saf.cfgOpen.toNat; let late := 10000 * open_ < (s.time.dt - s.saf.kickDt).toNat; s.mode.coreOn = true ∧
      (s.wdtHeld = true ∨ ¬late))) ∧
    (∃ (s : State),
      (let open_ := if s.saf.first then 2000 else s.saf.cfgOpen.toNat; let late := 10000 * open_ < (s.time.dt - s.saf.kickDt).toNat; s.mode.coreOn = true ∧
      s.wdtHeld = false ∧ late ∧ 16 ≤ s.saf.good.toNat ∧ s.mode.warmReq = none)) ∧
    (∃ (s : State) (v : Word), (let c := v.toNat % 256; let o := v.toNat / 256 % 256; s.regsOn = true ∧ s.saf.held = false ∧
      s.saf.lock = false ∧ c < o ∧ o ≤ 200)) ∧
    (∃ (s : State) (v : Word), (let c := v.toNat % 256; let o := v.toNat / 256 % 256; s.regsOn = true ∧
      (s.saf.held = true ∨ s.saf.lock = true ∨ o ≤ c ∨ 200 < o))) ∧
    (∃ (s : State) (v : Word), s.regsOn = true ∧ s.mode.mode = .service ∧ 1 ≤ v.toNat % 128 ∧ v.toNat % 128 ≤ 72) ∧
    (∃ (s : State) (v : Word), s.regsOn = true ∧ (s.mode.mode ≠ .service ∨ v.toNat % 128 = 0 ∨ 72 < v.toNat % 128)) ∧
    (∃ (s : State) (key : Half), s.regsOn = true ∧ (s.mode.mode ≠ .service ∨ key ≠ 0x1A7E)) ∧
    (∃ (s : State) (key : Half), s.regsOn = true ∧ s.mode.mode = .service ∧ key = 0x1A7E ∧ s.fabOn = false) ∧
    (∃ (s : State) (key : Half), s.regsOn = true ∧ s.mode.mode = .service ∧ key = 0x1A7E ∧ s.fabOn = true) ∧
    (∃ (s : State) (key : Half), s.regsOn = true ∧ s.mode.mode = .service ∧ key = 0x1A7E ∧ s.wdtHeld = false ∧
      16 ≤ s.saf.good.toNat ∧ s.mode.warmReq = none) ∧
    (∃ (s : State) (key : Half), s.regsOn = true ∧ s.mode.mode = .service ∧ key = 0x1A7E ∧ s.wdtHeld = false ∧
      s.saf.good.toNat < 16) ∧
    (∃ (s : State) (key : Half), s.regsOn = true ∧ s.mode.mode = .service ∧ key = 0x1A7E ∧ s.wdtHeld = true) ∧
    (∃ (s : State), s.mode.coreOn = true ∧ bit (s.reg R.safAlarm) 7 = false ∧ (∀ x ∈ s.saf.raised, x.1 ≠ 7)) ∧
    (∃ (s : State) (m : Fin 6), s.mode.coreOn = true ∧ m = 3) ∧
    (∃ (s : State) (m : Fin 6), s.mode.coreOn = true ∧ m = 4) ∧
    (∃ (s : State) (m : Fin 6), s.mode.coreOn = true ∧ m = 1 ∧ s.inScan = false ∧ s.mode.warmReq = none) :=
  ⟨⟨{ on with saf := { on.saf with raised := [(8, 3)] }, mode := { on.mode with coreOn := true } }, 8, 3, ([]),
     by decide⟩,
   ⟨{ on with saf := { on.saf with raised := [(2, 3)], deg := none }, mode := { on.mode with coreOn := true } }, 3, ([]),
     by decide⟩,
   ⟨{ on with saf := { on.saf with deg := some (5, 24) }, mode := { on.mode with coreOn := true }, time := { on.time with dt := 8640000000005 } },
     5, 24, by decide⟩,
   ⟨{ on with saf := { on.saf with first := false, held := false, cfgClosed := 200, cfgOpen := 200, good := 255 }, time := { on.time with dt := 2000000 } },
     0x5AA5, by decide⟩,
   ⟨{ on with saf := { on.saf with held := false, good := 16 } }, 0xA55A, by decide⟩,
   ⟨{ on with saf := { on.saf with first := false, held := false, cfgClosed := 200, good := 16 }, time := { on.time with dt := 1999999 } },
     0x5AA5, by decide⟩,
   ⟨{ on with saf := { on.saf with first := false, held := false, good := 16 }, time := { on.time with dt := 2000001 } },
     0x5AA5, by decide⟩,
   ⟨{ on with saf := { on.saf with held := false, good := 15 } }, 0, by decide⟩,
   ⟨on, by decide⟩,
   ⟨{ on with mode := { on.mode with coreOn := true } }, by decide⟩,
   ⟨{ on with mode := { on.mode with coreOn := true, warmReq := none }, saf := { on.saf with held := false, good := 16 }, time := { on.time with dt := 3000000 } },
     by decide⟩,
   ⟨{ on with saf := { on.saf with held := false, lock := false } }, 0xC8C7, by decide⟩,
   ⟨{ on with saf := { on.saf with held := true } }, 0, by decide⟩,
   ⟨{ on with mode := { on.mode with mode := .service } }, 72, by decide⟩,
   ⟨on, 0, by decide⟩,
   ⟨on, 0, by decide⟩,
   ⟨{ on with mode := { on.mode with mode := .service, past8 := false }, cfg := { on.cfg with img := none } }, 0x1A7E,
     by decide⟩,
   ⟨{ on with mode := { on.mode with mode := .service } }, 0x1A7E, by decide⟩,
   ⟨{ on with mode := { on.mode with mode := .service, warmReq := none }, saf := { on.saf with held := false } }, 0x1A7E,
     by decide⟩,
   ⟨{ on with mode := { on.mode with mode := .service }, saf := { on.saf with held := false, good := 3 } }, 0x1A7E,
     by decide⟩,
   ⟨{ on with mode := { on.mode with mode := .service } }, 0x1A7E, by decide⟩,
   ⟨{ on with mode := { on.mode with coreOn := true } }, by decide⟩,
   ⟨{ on with mode := { on.mode with coreOn := true } }, 3, by decide⟩,
   ⟨{ on with mode := { on.mode with coreOn := true } }, 4, by decide⟩,
   ⟨{ on with mode := { on.mode with coreOn := true } }, 1, by decide⟩⟩

/-- The hypotheses of CanCommandsTakeEffect are met. -/
theorem wit_CanCommandsTakeEffect :
    (∃ (s : State) (k : Fin 2), s.regsOn = true ∧ bit (s.reg (R.can k 0)) 0 = true) ∧
    (∃ (s : State) (k : Fin 2) (v : Word), s.regsOn = true ∧ bit (s.reg (R.can k 0)) 0 = false ∧ nbtOk v = true) ∧
    (∃ (s : State) (k : Fin 2) (v : Word), s.regsOn = true ∧ bit (s.reg (R.can k 0)) 0 = false ∧ dbtOk v = true) ∧
    (∃ (s : State) (k : Fin 2) (id : Word) (ctrl : Word), s.canOn k = true ∧ bit ctrl 4 = false ∧ (∀ b : Fin 64,
      s.mbMatch k id b = false) ∧ (s.ifc.can[k]).st = 0 ∧ (s.ifc.can[k]).recv ≤ 127) ∧
    (∃ (s : State) (k : Fin 2) (id : Word) (ctrl : Word) (b : Fin 64), s.mapsWf = true ∧ s.canOn k = true ∧ bit ctrl 4 = false ∧
      s.mbMatch k id b = true ∧ (s.ifc.can[k]).rxpend.getLsbD b.val = false ∧ (∀ a < b,
      s.mbMatch k id a = true → (s.ifc.can[k]).rxpend.getLsbD a.val = true)) ∧
    (∃ (s : State) (k : Fin 2) (b : Fin 64), s.canOn k = true ∧ s.mbTx k b = true ∧ bit (s.reg (R.can k 0)) 4 = false) ∧
    (∃ (s : State) (k : Fin 2) (m : BitVec 64) (b : Fin 64), s.regsOn = true ∧ s.canOn k = true ∧ s.canPick k = some b ∧
      m = 1#64 <<< b.val) ∧
    (∃ (s : State) (k : Fin 2) (b : Fin 64), s.canOn k = true ∧ s.mbTx k b = true ∧
      (s.ifc.can[k]).txabort.getLsbD b.val = false) ∧
    (∃ (s : State) (k : Fin 2) (b : Fin 64), s.canOn k = true ∧ s.mbTx k b = true ∧ (s.ifc.can[k]).txabort.getLsbD b.val = true) ∧
    (∃ (s : State) (k : Fin 2), s.canOn k = true ∧ (s.ifc.can[k]).st = 0 ∧
      (128 ≤ (s.ifc.can[k]).tec ∨ 128 ≤ (s.ifc.can[k]).recv)) ∧
    (∃ (s : State) (k : Fin 2), s.canOn k = true ∧ 256 ≤ (s.ifc.can[k]).tec) ∧
    (∃ (s : State) (k : Fin 2), s.canOn k = true ∧ (s.ifc.can[k]).tec < 256) ∧
    (∃ (s : State) (k : Fin 2), s.ifcOn (R.can k 0) = true ∧ (s.ifc.can[k]).st = 2 ∧ bit (s.reg (R.can k 0)) 2 = true) ∧
    (∃ (s : State) (k : Fin 2), s.ifcOn (R.can k 0) = true ∧ (s.ifc.can[k]).st = 2 ∧ bit (s.reg (R.can k 0)) 2 = false ∧
      (s.ifc.can[k]).recSw = false) :=
  ⟨⟨(on.setReg (R.can 0 0) 1), 0, by decide⟩,
   ⟨on, 0, 0x00000113, by decide⟩,
   ⟨on, 0, 0x00000002, by decide⟩,
   ⟨{ (on.setReg (R.can 0 0) 1) with ifc := { (on.setReg (R.can 0 0) 1).ifc with can := vput on.ifc.can 0 { CanSt.reset with st := 0, recv := 127 } } },
     0, 0x123, 0, by decide⟩,
   ⟨{ ((((on.setReg (R.can 0 0) 1).setReg (R.mb 0 63 0) 1).setReg (R.mb 0 63 8) 0x1FFFFFFF).setReg (R.mb 0 63 4) 0x123) with ifc := { ((((on.setReg (R.can 0 0) 1).setReg (R.mb 0 63 0) 1).setReg (R.mb 0 63 8) 0x1FFFFFFF).setReg (R.mb 0 63 4) 0x123).ifc with can := vput on.ifc.can 0 { CanSt.reset with st := 0 } } },
     0, 0x123, 2, 63, by decide⟩,
   ⟨{ ((((on.setReg (R.can 0 0) 1).setReg (R.mb 0 63 0) 2).setReg (R.mb 0 63 0xC) 0x123)) with ifc := { ((((on.setReg (R.can 0 0) 1).setReg (R.mb 0 63 0) 2).setReg (R.mb 0 63 0xC) 0x123)).ifc with can := vput on.ifc.can 0 { CanSt.reset with st := 0, txreq := 0x8000000000000000, tec := 9 } } },
     0, 63, by decide⟩,
   ⟨{ ((((on.setReg (R.can 0 0) 1).setReg (R.mb 0 63 0) 2).setReg (R.mb 0 63 0xC) 0x123)) with ifc := { ((((on.setReg (R.can 0 0) 1).setReg (R.mb 0 63 0) 2).setReg (R.mb 0 63 0xC) 0x123)).ifc with can := vput on.ifc.can 0 { CanSt.reset with st := 0, txreq := 0x8000000000000000, tec := 9 } } },
     0, 0x8000000000000000, 63, by decide⟩,
   ⟨{ ((((on.setReg (R.can 0 0) 1).setReg (R.mb 0 63 0) 2).setReg (R.mb 0 63 0xC) 0x123)) with ifc := { ((((on.setReg (R.can 0 0) 1).setReg (R.mb 0 63 0) 2).setReg (R.mb 0 63 0xC) 0x123)).ifc with can := vput on.ifc.can 0 { CanSt.reset with st := 0, txreq := 0x8000000000000000, tec := 9 } } },
     0, 63, by decide⟩,
   ⟨{ ((((on.setReg (R.can 0 0) 1).setReg (R.mb 0 63 0) 2).setReg (R.mb 0 63 0xC) 0x123)) with ifc := { ((((on.setReg (R.can 0 0) 1).setReg (R.mb 0 63 0) 2).setReg (R.mb 0 63 0xC) 0x123)).ifc with can := vput on.ifc.can 0 { CanSt.reset with st := 0, txreq := 0x8000000000000000, txabort := 0x8000000000000000 } } },
     0, 63, by decide⟩,
   ⟨{ (on.setReg (R.can 0 0) 1) with ifc := { (on.setReg (R.can 0 0) 1).ifc with can := vput on.ifc.can 0 { CanSt.reset with st := 0, tec := 128 } } },
     0, by decide⟩,
   ⟨{ (on.setReg (R.can 0 0) 1) with ifc := { (on.setReg (R.can 0 0) 1).ifc with can := vput on.ifc.can 0 { CanSt.reset with st := 1, tec := 256 } } },
     0, by decide⟩,
   ⟨{ (on.setReg (R.can 0 0) 1) with ifc := { (on.setReg (R.can 0 0) 1).ifc with can := vput on.ifc.can 0 { CanSt.reset with st := 0, tec := 255 } } },
     0, by decide⟩,
   ⟨{ (on.setReg (R.can 0 0) 5) with ifc := { (on.setReg (R.can 0 0) 5).ifc with can := vput on.ifc.can 0 { CanSt.reset with st := 2 } } },
     0, by decide⟩,
   ⟨{ (on.setReg (R.can 0 0) 1) with ifc := { (on.setReg (R.can 0 0) 1).ifc with can := vput on.ifc.can 0 { CanSt.reset with st := 2 } } },
     0, by decide⟩⟩

/-- The hypotheses of SerialAndGpioCommandsTakeEffect are met. -/
theorem wit_SerialAndGpioCommandsTakeEffect :
    (∃ (s : State) (u : Fin 4), s.regsOn = true ∧ s.ifc.uart[u].tx.length < 64) ∧
    (∃ (s : State) (u : Fin 4), s.regsOn = true ∧ 64 ≤ s.ifc.uart[u].tx.length) ∧
    (∃ (s : State) (u : Fin 4), s.running = true ∧ s.mode.pf = false ∧ s.core.priv = true ∧
      s.latched (s.latchKey .core) (0x16000C + 0x1000 * u.val) = none ∧ s.ifc.uart[u].rx = []) ∧
    (∃ (s : State) (u : Fin 4) (b : Byte) (f : BitVec 3) (l : List (Byte × BitVec 3)), s.running = true ∧ s.mode.pf = false ∧
      s.core.priv = true ∧ s.latched (s.latchKey .core) (0x16000C + 0x1000 * u.val) = none ∧ s.ifc.uart[u].rx = (b, f) :: l) ∧
    (∃ (s : State) (u : Fin 4), s.uartOn u = true ∧ bit (s.reg (R.uart u 0)) 6 = false ∧ bit (s.reg (R.uart u 0)) 1 = false ∧
      s.ifc.uart[u].rx.length < 63 ∧ s.ifc.uart[u].rx.length + 1 < fldN (s.reg (R.uart u 0x18)) 0 6) ∧
    (∃ (s : State) (u : Fin 4), s.uartOn u = true ∧ bit (s.reg (R.uart u 0)) 6 = false ∧ bit (s.reg (R.uart u 0)) 1 = false ∧
      64 ≤ s.ifc.uart[u].rx.length) ∧
    (∃ (s : State) (u : Fin 4) (b : Byte) (l : List Byte), s.uartOn u = true ∧ s.ifc.uart[u].tx = b :: l ∧ s.ifc.cts3 = false ∧
      bit (s.reg (R.uart u 0)) 6 = false ∧ fldN (s.reg (R.uart u 0x18)) 8 6 < l.length) ∧
    (∃ (s : State) (u : Fin 4) (b : Byte) (l : List Byte), s.uartOn u = true ∧ s.ifc.uart[u].tx = b :: l ∧ s.ifc.cts3 = false ∧
      bit (s.reg (R.uart u 0)) 6 = false ∧ l.length ≤ fldN (s.reg (R.uart u 0x18)) 8 6) ∧
    (∃ (s : State), s.ifc.cts3 = true ∧ bit (s.reg 0x163000) 5 = true) ∧
    (∃ (s : State) (u : Fin 4), s.uartOn u = true ∧ s.ifc.uart[u].rx ≠ []) ∧
    (∃ (s : State) (u : Fin 4), s.uartOn u = true ∧ s.ifc.uart[u].rx = []) ∧
    (∃ (s : State) (k : Fin 2), s.regsOn = true ∧ s.ifc.spi[k].tx.length < 16) ∧
    (∃ (s : State) (k : Fin 2), s.regsOn = true ∧ 16 ≤ s.ifc.spi[k].tx.length) ∧
    (∃ (s : State) (k : Fin 2), s.running = true ∧ s.mode.pf = false ∧ s.core.priv = true ∧
      s.latched (s.latchKey .core) (0x17000C + 0x1000 * k.val) = none ∧
      s.latched (s.latchKey .core) (0x180008 + 0x1000 * k.val) = none ∧ s.ifc.spi[k].rx = []) ∧
    (∃ (s : State) (k : Fin 2) (w : Word) (l : List Word), s.running = true ∧ s.mode.pf = false ∧ s.core.priv = true ∧
      s.latched (s.latchKey .core) (0x17000C + 0x1000 * k.val) = none ∧
      s.latched (s.latchKey .core) (0x180008 + 0x1000 * k.val) = none ∧ s.ifc.spi[k].rx = w :: l) ∧
    (∃ (s : State) (k : Fin 2), s.running = true ∧ s.mode.pf = false ∧ s.core.priv = true ∧
      s.latched (s.latchKey .core) (0x17000C + 0x1000 * k.val) = none ∧
      s.latched (s.latchKey .core) (0x180008 + 0x1000 * k.val) = none ∧ s.ifc.i2c[k].rx = []) ∧
    (∃ (s : State) (k : Fin 2) (b : Byte) (l : List Byte), s.running = true ∧ s.mode.pf = false ∧ s.core.priv = true ∧
      s.latched (s.latchKey .core) (0x17000C + 0x1000 * k.val) = none ∧
      s.latched (s.latchKey .core) (0x180008 + 0x1000 * k.val) = none ∧ s.ifc.i2c[k].rx = b :: l) ∧
    (∃ (s : State) (k : Fin 2) (d : Byte) (l : List (BitVec 3 × Byte)), (let x := s.ifc.i2c[k]; s.ifcOn (R.i2c k 0) = true ∧
      x.cmd = (1, d) :: l)) ∧
    (∃ (s : State) (k : Fin 2) (d : Byte) (l : List (BitVec 3 × Byte)), (let x := s.ifc.i2c[k]; s.ifcOn (R.i2c k 0) = true ∧
      x.cmd = (2, d) :: l)) ∧
    (∃ (s : State) (k : Fin 2) (d : Byte) (l : List (BitVec 3 × Byte)), s.ifcOn (R.i2c k 0) = true ∧
      s.ifc.i2c[k].rx.length < 16 ∧ s.ifc.i2c[k].cmd = (3, d) :: l) ∧
    (∃ (s : State) (k : Fin 2), s.ifcOn (R.i2c k 0) = true ∧ 16 ≤ s.ifc.i2c[k].rx.length) ∧
    (∃ (s : State) (k : Fin 2) (d : Byte) (l : List (BitVec 3 × Byte)), (let x := s.ifc.i2c[k]; s.ifcOn (R.i2c k 0) = true ∧
      x.cmd = (5, d) :: l)) ∧
    (∃ (s : State) (i : Fin 12), i.val < 8 ∧ s.regsOn = true) ∧
    (∃ (s : State), s.regsOn = true) ∧
    (∃ (s : State) (k : Fin 2) (w : Word) (l : List Word), s.ifcOn (R.spi k 0) = true ∧ s.ifc.spi[k].tx = w :: l ∧
      16 ≤ s.ifc.spi[k].rx.length) :=
  ⟨⟨on, 0, by decide⟩,
   ⟨{ on with ifc := { on.ifc with uart := vput on.ifc.uart 0 { on.ifc.uart[0] with tx := List.replicate 64 0 } } }, 0,
     by decide⟩,
   ⟨{ on with mode := { on.mode with pf := false }, core := { on.core with priv := true } }, 0, by decide⟩,
   ⟨{ on with mode := { on.mode with pf := false }, core := { on.core with priv := true }, ifc := { on.ifc with uart := vput on.ifc.uart 0 { on.ifc.uart[0] with rx := [(7, 2), (8, 0)] } } },
     0, 7, 2, ([(8, 0)]), by decide⟩,
   ⟨{ ((on.setReg (R.uart 0 0) 1).setReg (R.uart 0 0x18) 63) with ifc := { ((on.setReg (R.uart 0 0) 1).setReg (R.uart 0 0x18) 63).ifc with uart := vput on.ifc.uart 0 { on.ifc.uart[0] with rx := List.replicate 61 (0, 0) } } },
     0, by decide⟩,
   ⟨{ ((on.setReg (R.uart 0 0) 1).setReg (R.uart 0 0x18) 63) with ifc := { ((on.setReg (R.uart 0 0) 1).setReg (R.uart 0 0x18) 63).ifc with uart := vput on.ifc.uart 0 { on.ifc.uart[0] with rx := List.replicate 64 (0, 0) } } },
     0, by decide⟩,
   ⟨{ ((on.setReg (R.uart 0 0) 1).setReg (R.uart 0 0x18) 0x0100) with ifc := { ((on.setReg (R.uart 0 0) 1).setReg (R.uart 0 0x18) 0x0100).ifc with cts3 := false, uart := vput on.ifc.uart 0 { on.ifc.uart[0] with tx := [1, 2, 3] } } },
     0, 1, ([2, 3]), by decide⟩,
   ⟨{ ((on.setReg (R.uart 0 0) 1).setReg (R.uart 0 0x18) 0x0200) with ifc := { ((on.setReg (R.uart 0 0) 1).setReg (R.uart 0 0x18) 0x0200).ifc with cts3 := false, uart := vput on.ifc.uart 0 { on.ifc.uart[0] with tx := [1, 2, 3] } } },
     0, 1, ([2, 3]), by decide⟩,
   ⟨{ (on.setReg 0x163000 0x20) with ifc := { (on.setReg 0x163000 0x20).ifc with cts3 := true } }, by decide⟩,
   ⟨{ ((on.setReg (R.uart 0 0) 1).setReg (R.uart 0 0x18) 0) with ifc := { ((on.setReg (R.uart 0 0) 1).setReg (R.uart 0 0x18) 0).ifc with uart := vput on.ifc.uart 0 { on.ifc.uart[0] with rx := [(1, 0)] } } },
     0, by decide⟩,
   ⟨((on.setReg (R.uart 0 0) 1).setReg (R.uart 0 0x18) 0), 0, by decide⟩,
   ⟨on, 0, by decide⟩,
   ⟨{ on with ifc := { on.ifc with spi := vput on.ifc.spi 0 { on.ifc.spi[0] with tx := List.replicate 16 0 } } }, 0,
     by decide⟩,
   ⟨{ on with mode := { on.mode with pf := false }, core := { on.core with priv := true } }, 0, by decide⟩,
   ⟨{ on with mode := { on.mode with pf := false }, core := { on.core with priv := true }, ifc := { on.ifc with spi := vput on.ifc.spi 0 { on.ifc.spi[0] with rx := [5, 6] } } },
     0, 5, ([6]), by decide⟩,
   ⟨{ on with mode := { on.mode with pf := false }, core := { on.core with priv := true } }, 0, by decide⟩,
   ⟨{ on with mode := { on.mode with pf := false }, core := { on.core with priv := true }, ifc := { on.ifc with i2c := vput on.ifc.i2c 0 { on.ifc.i2c[0] with rx := [5, 6] } } },
     0, 5, ([6]), by decide⟩,
   ⟨{ (on.setReg (R.i2c 0 0) 1) with ifc := { (on.setReg (R.i2c 0 0) 1).ifc with i2c := vput on.ifc.i2c 0 { on.ifc.i2c[0] with cmd := [(1, 9), (5, 0)] } } },
     0, 9, ([(5, 0)]), by decide⟩,
   ⟨{ (on.setReg (R.i2c 0 0) 1) with ifc := { (on.setReg (R.i2c 0 0) 1).ifc with i2c := vput on.ifc.i2c 0 { on.ifc.i2c[0] with cmd := [(2, 9), (5, 0)] } } },
     0, 9, ([(5, 0)]), by decide⟩,
   ⟨{ (on.setReg (R.i2c 0 0) 1) with ifc := { (on.setReg (R.i2c 0 0) 1).ifc with i2c := vput on.ifc.i2c 0 { on.ifc.i2c[0] with cmd := [(3, 9), (5, 0)], rx := List.replicate 15 0 } } },
     0, 9, ([(5, 0)]), by decide⟩,
   ⟨{ (on.setReg (R.i2c 0 0) 1) with ifc := { (on.setReg (R.i2c 0 0) 1).ifc with i2c := vput on.ifc.i2c 0 { on.ifc.i2c[0] with cmd := [(3, 9), (5, 0)], rx := List.replicate 16 0 } } },
     0, by decide⟩,
   ⟨{ (on.setReg (R.i2c 0 0) 1) with ifc := { (on.setReg (R.i2c 0 0) 1).ifc with i2c := vput on.ifc.i2c 0 { on.ifc.i2c[0] with cmd := [(5, 9), (5, 0)] } } },
     0, 9, ([(5, 0)]), by decide⟩,
   ⟨on, 0, by decide⟩,
   ⟨on, by decide⟩,
   ⟨{ (on.setReg (R.spi 0 0) 0x71) with ifc := { (on.setReg (R.spi 0 0) 0x71).ifc with spi := vput on.ifc.spi 0 { on.ifc.spi[0] with tx := [5], rx := List.replicate 16 0 } } },
     0, 5, ([]), by decide⟩⟩

/-- The hypotheses of TestPortCommandsTakeEffect are met. -/
theorem wit_TestPortCommandsTakeEffect :
    (∃ (s : State), s.mode.coreOn = true ∧ s.mode.mode ≠ .protect ∧ s.mode.pf = false) ∧
    (∃ (s : State), s.mode.coreOn = true ∧ (s.mode.mode = .protect ∨ s.mode.pf = true)) ∧
    (∃ (s : State) (a : Word), s.mode.coreOn = true ∧ s.mode.pf = false ∧ s.dbg.ir = .dbgacc ∧ s.dbg.lock = 0 ∧
      0x10000000 ≤ a.toNat ∧ a.toNat < 0x1003E000 ∧ a.toNat % 4 = 0) ∧
    (∃ (s : State) (a : Word), s.mode.coreOn = true ∧ s.mode.pf = false ∧ s.dbg.ir = .dbgacc ∧ s.dbg.lock = 1 ∧
      s.dbg.unlocked = false ∧ dbgLockedReach a = false) ∧
    (∃ (s : State) (key : Half) (p : Bool), s.regsOn = true ∧ (key ≠ 0x10C5 ∨ s.mode.mode ≠ .service ∨ p = false)) ∧
    (∃ (s : State), s.regsOn = true ∧ s.dbg.lock ≠ 0) ∧
    (∃ (s : State), s.regsOn = true ∧ 2 ≤ s.dbg.lock.toNat) ∧
    (∃ (s : State) (key : Half) (p : Bool), s.regsOn = true ∧ key = 0x10C5 ∧ s.mode.mode = .service ∧ p = true ∧
      s.dbg.lock = 0 ∧ (s.key.vault[(13 : Fin 16)]).state = .active) ∧
    (∃ (s : State) (key : Half) (p : Bool), s.regsOn = true ∧ key = 0x10C5 ∧ s.mode.mode = .service ∧ p = true ∧
      s.dbg.lock.toNat < 2) ∧
    (∃ (s : State) (b : List Word), s.regsOn = true ∧ s.esu.fifo = [b] ∧ b.length = 8 ∧ s.drbgWants = false ∧
      s.esu.wantSec = false) ∧
    (∃ (s : State), s.regsOn = true ∧ s.dbg.authBusy = false ∧ s.dbg.authLock = true) ∧
    (∃ (s : State), s.regsOn = true ∧ s.dbg.authBusy = false ∧ s.dbg.authLock = false ∧ s.dbg.fresh = true ∧
      1 ≤ (s.dbg.token.getD 32 0).toNat ∧ (s.dbg.token.getD 32 0).toNat ≤ 28800) ∧
    (∃ (s : State), s.dbg.authBusy = true) ∧
    (∃ (s : State), s.dbg.unlocked = true ∧ s.dbg.unlockEnd ≤ s.time.dt) ∧
    (∃ (s : State), s.time.dt < s.dbg.unlockEnd) ∧
    (∃ (s : State), s.regsOn = true ∧ s.dbgFull = true ∧ (s.mode.mode = .ready ∨ s.mode.mode = .service ∨ s.mode.mode = .safe)) ∧
    (∃ (s : State), s.regsOn = true ∧ s.dbgFull = true ∧ s.mode.mode = .protect) ∧
    (∃ (s : State), s.regsOn = true ∧ s.dbgFull = true ∧ s.core.halt = true) ∧
    (∃ (s : State), s.regsOn = true ∧ s.dbgFull = true ∧
      (s.mode.mode = .ready ∨ s.mode.mode = .protect ∨ s.mode.mode = .service) ∧ s.mode.warmReq = none) ∧
    (∃ (s : State) (v : Word), (let confirm : BitVec 16 := s.uid.setWidth 16 ^^^ 0xFFFF; s.regsOn = true ∧
      (s.mode.mode ≠ .service ∨ fld v 16 16 ≠ 0x52E7 ∨ fld v 0 16 ≠ confirm))) ∧
    (∃ (s : State) (v : Word) (p : Bool), (let confirm : BitVec 16 := s.uid.setWidth 16 ^^^ 0xFFFF; s.regsOn = true ∧
      s.mode.mode = .service ∧ fld v 16 16 = 0x52E7 ∧ fld v 0 16 = confirm ∧ p = true)) :=
  ⟨⟨{ on with mode := { on.mode with coreOn := true, pf := false } }, by decide⟩,
   ⟨{ on with mode := { on.mode with coreOn := true, mode := .protect } }, by decide⟩,
   ⟨{ on with mode := { on.mode with coreOn := true, pf := false }, dbg := { on.dbg with ir := .dbgacc, lock := 0 } },
     0x10000028, by decide⟩,
   ⟨{ on with mode := { on.mode with coreOn := true, pf := false }, dbg := { on.dbg with ir := .dbgacc, lock := 1, unlocked := false } },
     0x401B0050, by decide⟩,
   ⟨{ on with mode := { on.mode with mode := .ready } }, 0x10C5, true, by decide⟩,
   ⟨{ on with dbg := { on.dbg with lock := 1 } }, by decide⟩,
   ⟨{ on with dbg := { on.dbg with lock := 2 }, mode := { on.mode with mode := .service } }, by decide⟩,
   ⟨{ on with mode := { on.mode with mode := .service }, dbg := { on.dbg with lock := 0 }, key := { on.key with vault := vput on.key.vault 13 { on.key.vault[13] with state := .active } } },
     0x10C5, true, by decide⟩,
   ⟨{ on with mode := { on.mode with mode := .service }, dbg := { on.dbg with lock := 1, ir := .dbgacc } }, 0x10C5, true,
     by decide⟩,
   ⟨{ on with esu := { on.esu with fifo := [List.replicate 8 5], wantSec := false } }, (List.replicate 8 5), by decide⟩,
   ⟨{ on with dbg := { on.dbg with authBusy := false, authLock := true } }, by decide⟩,
   ⟨{ on with dbg := { on.dbg with authBusy := false, authLock := false, fresh := true, token := List.replicate 32 0 ++ [1] } },
     by decide⟩,
   ⟨{ on with dbg := { on.dbg with authBusy := true } }, by decide⟩,
   ⟨{ on with dbg := { on.dbg with unlocked := true, unlockEnd := 1000000 } }, by decide⟩,
   ⟨{ on with dbg := { on.dbg with unlockEnd := 1000001 } }, by decide⟩,
   ⟨{ on with mode := { on.mode with mode := .ready } }, by decide⟩,
   ⟨{ on with mode := { on.mode with mode := .protect } }, by decide⟩,
   ⟨{ on with core := { on.core with halt := true } }, by decide⟩,
   ⟨{ on with mode := { on.mode with mode := .ready, warmReq := none } }, by decide⟩,
   ⟨{ on with mode := { on.mode with mode := .ready } }, 0, by decide⟩,
   ⟨{ ({ on with uid := 3 }) with mode := { ({ on with uid := 3 }).mode with mode := .service } }, 0x52E7FFFC, true,
     by decide⟩⟩

/-! Witnesses of the statements about all commands. -/

/-- A syllable with guard p1, which is 0 in the state on. -/
def offSyl : SylEnc := { pg := 1, stop := true, rd := 0, ra := 0, rb := 0, f := 0, ext := none }

/-- A syllable of registers d, a, b. -/
def sylOf (stop : Bool) (d a b : BitVec 6) : SylEnc := { pg := 0, stop := stop, rd := d, ra := a, rb := b, f := 0, ext := none }

/-- The state that a command leaves. -/
def after (o : Host.Outcome State Fault Refusal) : State :=
  match o with
  | .next t => t
  | _ => on

/-- The core runs unprivileged. -/
def onUser : State := { on with core := { on.core with priv := false } }

/-- The hypotheses of StepRunsTheCommandInFront are met. -/
theorem wit_StepRunsTheCommandInFront :
    (∃ (c : Instr) (l : List Instr) (s : State), s.pending = c :: l) ∧ (∃ s : State, s.pending = []) :=
  ⟨⟨.idcode, [], { on with pending := [.idcode] }, rfl⟩, ⟨on, rfl⟩⟩

/-- The hypotheses of RefusedAccessesChangeOnlyTheAnswer are met, at the ends of the peripheral space. -/
theorem wit_RefusedAccessesChangeOnlyTheAnswer :
    (∃ (s : State) (a : Word), s.running = true ∧ s.mode.pf = false ∧ s.core.priv = false ∧ 0x40000000 ≤ a.toNat ∧
      a.toNat < 0x401C0000) ∧
    (∃ (s : State) (w : Width) (a : Word), s.running = true ∧ s.mode.pf = false ∧ s.core.priv = true ∧ 0x40000000 ≤ a.toNat ∧
      a.toNat < 0x401C0000 ∧ a.toNat % widthBytes w ≠ 0) ∧
    (∃ (s : State) (w : Width) (a : Word), s.running = true ∧ s.mode.pf = false ∧ s.core.priv = true ∧ 0x40000000 ≤ a.toNat ∧
      a.toNat < 0x401C0000 ∧ a.toNat % widthBytes w = 0 ∧ w ≠ .word) ∧
    (∃ (s : State) (w : Width) (a : Word), s.running = true ∧ s.mode.pf = false ∧ s.core.priv = true ∧ 0x40000000 ≤ a.toNat ∧
      a.toNat < 0x401C0000 ∧ a.toNat % widthBytes w = 0 ∧ s.regRow (a.toNat % 0x1000000 / 4 * 4) = none) ∧
    (∃ (s : State) (w : Width) (a : Word), s.running = true ∧ s.mode.pf = false ∧ 0x401C0000 ≤ a.toNat ∧ a.toNat < 0x50000000 ∧
      a.toNat % widthBytes w = 0) ∧
    (∃ (s : State) (m : Master), s.running = false ∧ (m = .core ∨ m = .mover)) :=
  ⟨⟨onUser, 0x40000000, by decide⟩, ⟨on, .word, 0x401BFFFF, by decide⟩, ⟨on, .byte, 0x401BFFFF, by decide⟩,
   ⟨on, .word, 0x401BFFFC, by decide⟩, ⟨on, .word, 0x401C0000, by decide⟩, ⟨State.reset, .core, by decide⟩⟩

/-- The hypotheses of MemoryReadsBackWhatWasWritten are met. -/
theorem wit_MemoryReadsBackWhatWasWritten :
    (∃ (d : Byte) (m : List Host.Cell), mwf d m = true) ∧
    (∃ (d : Byte) (m n : List Host.Cell), mwf d m = true ∧ mwf d n = true ∧ ∀ x, mget d m x = mget d n x) :=
  ⟨⟨0, [(3, 1)], by decide⟩, ⟨0, [(3, 1)], [(3, 1)], by decide, by decide, fun _ => rfl⟩⟩

/-- The hypotheses of EveryStepKeepsTheIdentity and EveryStepKeepsTheMapsCanonical are met. -/
theorem wit_EveryStepKeeps : ∃ s t : State, s.mapsWf = true ∧ step s = .next t :=
  ⟨State.reset, State.reset.tick, by decide, rfl⟩

/-- The hypotheses of SentinelCannotReachTheFabric are met. -/
theorem wit_SentinelCannotReachTheFabric :
    ∃ (s t : State) (i : Instr) (o v : Byte) (w : Half), SntInstr i o v w ∧ exec i s = .next t :=
  ⟨on, after (exec .sntNop on), .sntNop, 0, 0, 0, List.mem_cons_self, rfl⟩

/-- The hypotheses of AFalseGuardDoesNothing are met. -/
theorem wit_AFalseGuardDoesNothing : ∃ (s : State) (o : SylEnc), BundleStart s ∧ o.stop = true ∧ s.core.pred o.pg.toNat = false ∧
    s.core.pc.toNat + 8 ≤ 0x40000 ∧ o.ext = none ∧ o.rd = 0 ∧ o.ra = 0 ∧ o.rb = 0 ∧ o.f = 0 ∧ s.core.df = false :=
  ⟨on, offSyl, by unfold BundleStart; decide⟩

/-- The hypotheses of SyllablesWaitForTheStopBitAndReadFirst are met: the second addition reads the register that the first writes. -/
theorem wit_SyllablesWaitForTheStopBitAndReadFirst :
    (∃ (s : State) (o : SylEnc), s.coreRuns = true ∧ s.schHolds = false ∧ s.core.bundle = [] ∧ o.stop = false) ∧
    (∃ (s : State) (o p : SylEnc), BundleStart s ∧ o.stop = false ∧ p.stop = true ∧ s.core.pred o.pg.toNat = true ∧
      s.core.pred p.pg.toNat = true ∧ s.core.pc.toNat + 8 ≤ 0x40000 ∧ s.core.loads = [] ∧ o.ext = none ∧ p.ext = none ∧ o.f = 0 ∧
      p.f = 0 ∧ (∀ f ∈ [o.rd, o.ra, o.rb, p.rd, p.ra, p.rb], f.toNat < 32) ∧ o.rd ≠ p.rd ∧ o.rd ≠ 0 ∧ p.rd ≠ 0) :=
  ⟨⟨on, sylOf false 1 2 3, by decide⟩,
   ⟨on, sylOf false 1 2 3, sylOf true 31 1 2, by unfold BundleStart; decide⟩⟩

/-- The hypotheses of WritesToK0AndP0HaveNoEffect are met. -/
theorem wit_WritesToK0AndP0HaveNoEffect : ∃ (s : State) (o : SylEnc), BundleReady s o [o.rd, o.ra, o.rb] ∧ o.ext = none ∧ o.rd = 0 ∧
    o.f = 0 ∧ o.ra.toNat < 8 ∧ o.rb.toNat < 8 :=
  ⟨on, sylOf true 0 2 3, by unfold BundleReady BundleStart; decide⟩

/-- The hypotheses of EveryWellFormedCommandCompletes are met, by the last channel of each part. -/
theorem wit_EveryWellFormedCommandCompletes :
    (∃ (i : Instr) (s : State), i.wf s.part.channels s.part.comparators = true ∧ s.part = .tsj5140) ∧
    (∃ (i : Instr) (s : State), i.wf s.part.channels s.part.comparators = true ∧ s.part = .tsj5120) :=
  ⟨⟨.modReset 15, on, by decide⟩, ⟨.modReset 7, { on with part := .tsj5120 }, by decide⟩⟩

/-- The hypotheses of IdcodeNamesThePart are met. -/
theorem wit_IdcodeNamesThePart : (∃ s : State, s.part = .tsj5140) ∧ (∃ s : State, s.part = .tsj5120) :=
  ⟨⟨on, rfl⟩, ⟨{ on with part := .tsj5120 }, rfl⟩⟩

/-- The hypotheses of DrbgReadTakesTheNextWord are met, with words in the FIFO and without, in both modes of the core. -/
theorem wit_DrbgReadTakesTheNextWord :
    (∃ (s : State) (w : Word) (l : List Word), s.running = true ∧ s.mode.pf = false ∧ s.latched (s.latchKey .core) 0x120010 = none ∧
      s.esu.dfifo = w :: l ∧ s.core.priv = false) ∧
    (∃ s : State, s.running = true ∧ s.mode.pf = false ∧ s.latched (s.latchKey .core) 0x120010 = none ∧ s.esu.dfifo = []) :=
  ⟨⟨{ onUser with esu := { onUser.esu with dfifo := [5] } }, 5, [], by decide⟩, ⟨on, by decide⟩⟩

/-- The hypotheses of VaultSlotsNeverReturn and VaultProgramsOnlyEmptySlots are met while a slot is programmed. -/
theorem wit_VaultOpSound : ∃ s t : State, VaultOpSound s ∧ s.key.vop.isSome = true ∧ step s = .next t :=
  ⟨{ on with key := { on.key with vop := some { slot := 3, revoke := false, role := 0xF, key := [] } } }, _,
   by intro op h _; cases h; decide, rfl, rfl⟩

/-! Tests of single commands. Expected values are the spec's worked examples or worked out by hand from its rules. -/

/-- The core with k2, k3 and k5 at these values. -/
def withK (a b c : Word) : State :=
  { on with core := { on.core with r := (((Vector.replicate 164 0).set 2 a).set 3 b).set 5 c } }

/-- An immediate syllable: rd, ra, nine bits. -/
def sylI (d a : BitVec 6) (i : BitVec 9) : SylEnc :=
  { pg := 0, stop := true, rd := d, ra := a, rb := i.extractLsb' 3 6, f := i.extractLsb' 0 3, ext := none }

set_option maxRecDepth 20000 in
/-- 12 Table ISA-13 bundle 4: k2 := 0x0223_2800 << 8. -/
theorem test_shli : (after (exec (.shli (sylI 2 2 8)) (withK 0x02232800 0 0))).core.get 2 = 0x23280000 := by decide

set_option maxRecDepth 20000 in
/-- 12 Table ISA-13 bundle 5: k2 := 0x2328_0000 >> 15 = 18,000. -/
theorem test_sari : (after (exec (.sari (sylI 2 2 15)) (withK 0x23280000 0 0))).core.get 2 = 18000 := by decide

set_option maxRecDepth 20000 in
/-- 12 Table ISA-13 bundle 8: 18,000 × 96,875 = 0x67EF_8370. -/
theorem test_mul : (after (exec (.mul (sylOf true 4 2 3)) (withK 18000 96875 0))).core.get 4 = 0x67EF8370 := by decide

set_option maxRecDepth 20000 in
/-- 12 Table ISA-13 bundle 9: 1,743,750,000 / 15,625 = 111,600, in 18 cycles. -/
theorem test_div :
    (after (exec (.div (sylOf true 4 2 5)) (withK 1743750000 0 15625))).core.get 4 = 111600 ∧
    (after (exec (.div (sylOf true 4 2 5)) (withK 1743750000 0 15625))).core.cyc = 18 := by decide

set_option maxRecDepth 20000 in
/-- 12 Table ISA-13 bundle 0: the long immediate 0x1003_E000, syllable 0x0020_8000 with extension 0xE008_01F0. -/
theorem test_addi_long : (after (exec (.addi { pg := 0, stop := true, rd := 1, ra := 0, rb := 0, f := 0, ext := some 0x000801F0 })
    on)).core.get 1 = 0x1003E000 := by decide

set_option maxRecDepth 20000 in
/-- 12 R335: division by zero writes all ones, the most negative number by -1 itself. -/
theorem test_div_corners :
    (after (exec (.divu (sylOf true 4 2 3)) (withK 7 0 0))).core.get 4 = 0xFFFFFFFF ∧
    (after (exec (.div (sylOf true 4 2 3)) (withK 0x80000000 0xFFFFFFFF 0))).core.get 4 = 0x80000000 := by decide

/-- 16 R454: 0x7F + 1 = 0x80 sets N and V, clears C and Z. -/
theorem test_snt_add : (after (exec (.sntAddImm 0 1) { on with wnt := { on.wnt with b := (Vector.replicate 8 0).set 0 0x7F } })).wnt.flags =
    0b01100 := by decide

/-- 16 R454: 0 - 1 borrows: C and N set. -/
theorem test_snt_sub : (after (exec (.sntSubImm 0 1) on)).wnt.flags = 0b00101 := by decide

/-- 22 R599: IDCODE of both parts. -/
theorem test_idcode : on.tapId = 0x35140A5F ∧ ({ on with part := .tsj5120 } : State).tapId = 0x35120A5F := by decide

set_option maxRecDepth 20000 in
/-- CRC-32C of the digits 1 to 9 (its published check value). -/
theorem test_crc32c : crc32c [0x31, 0x32, 0x33, 0x34, 0x35, 0x36, 0x37, 0x38, 0x39] = 0xE3069283 := by decide

/-- No word spells a command, since no row of the table has bits. -/
theorem test_decode_none (n w : Nat) : decodeTableWord n w = none := rfl

/-- withFetchWord changes nothing, since no word spells a command. -/
theorem test_withFetchWord : (on.withFetchWord 32 0).pending = [] := by decide

/-- A step with a command waiting runs it and takes it off the queue. -/
theorem test_step : (after (step { on with pending := [.idcode, .tapReset] })).pending = [.tapReset] := by decide

/-! Smoke tests: one ill-formed command for each check of Instr.wf, on the part with 8 channels and 4 comparators. -/

theorem smoke_afeChCtlWrite : (Instr.afeChCtlWrite 8 0).wf 8 4 = false ∧ (Instr.afeChCtlWrite 7 0).wf 8 4 = true := by decide
theorem smoke_channelSettingApply : (Instr.channelSettingApply 8).wf 8 4 = false := by decide
theorem smoke_modReset : (Instr.modReset 8).wf 8 4 = false := by decide
theorem smoke_owSet : (Instr.owSet 8 1).wf 8 4 = false := by decide
theorem smoke_owClear : (Instr.owClear 8 1).wf 8 4 = false := by decide
theorem smoke_comparatorCrossing : (Instr.comparatorCrossing 4 0 0 0).wf 8 4 = false := by decide
theorem smoke_afeCmpCtlWrite : (Instr.afeCmpCtlWrite 4 0).wf 8 4 = false := by decide
theorem smoke_chainOutput : (Instr.chainOutput 8 { pre := [], bits := [], parity := none, cal := false }).wf 8 4 = false := by decide
theorem smoke_thresholdEvaluation : (Instr.thresholdEvaluation 8).wf 8 4 = false := by decide

end Sys2Proof.Tests
end

section
/-! The register space of the map (00 Tables SCOPE-3, SCOPE-4, SCOPE-9; 12 Table ISA-3): what an access to it answers, and what a
register access that the map allows does. -/

namespace Sys2Proof.Machine

/-! Regions. -/

theorem regionOf_periph {n : Nat} (h1 : 0x40000000 ≤ n) (h2 : n < 0x401C0000) : regionOf n = .periph := by
  unfold regionOf
  repeat rw [if_neg (by omega)]
  exact if_pos ⟨h1, h2⟩

theorem regionOf_unmapped {n : Nat} (h1 : 0x401C0000 ≤ n) (h2 : n < 0x50000000) : regionOf n = .none := by
  unfold regionOf
  repeat rw [if_neg (by omega)]

/-! Who may access, and what the map answers. -/

/-- The scan core and the mover reach the registers exactly while the core die runs and no power-fail sequence does. -/
theorem canAccess_of_ne_debug (s : State) {m : Master} (hm : m ≠ .debug) (a : Word) :
    s.canAccess m a = if s.running && !s.mode.pf then .ok else .busError := by
  cases m with
  | debug => exact absurd rfl hm
  | core => rfl
  | mover => rfl

theorem canAccess_core (s : State) (a : Word) (hrun : s.running = true) (hpf : s.mode.pf = false) : s.canAccess .core a = .ok := by
  simp [canAccess_of_ne_debug, hrun, hpf]

/-- In the privileged register region privilege is judged first, then alignment, then width and location. -/
theorem status_periph (s : State) (x : Access) (store : Bool) (size : Nat) {a : Word} (hr : regionOf a.toNat = .periph) :
    s.status x store size a =
      if x.priv = false then .privilege
      else if a.toNat % size ≠ 0 then .misaligned
      else if size ≠ 4 ∨ s.regRow (a.toNat % 0x1000000 / 4 * 4) = none then .busError
      else .ok := by
  unfold State.status
  cases hp : x.priv
  · simp [hr]
  · cases hrow : s.regRow (a.toNat % 0x1000000 / 4 * 4) <;> simp [hr, hrow]

theorem status_unmapped (s : State) (x : Access) (store : Bool) {size : Nat} {a : Word} (hr : regionOf a.toNat = .none)
    (ha : a.toNat % size = 0) : s.status x store size a = .busError := by
  simp [State.status, hr, ha]

/-- What the map refuses to the core while the core die runs, each register command of the core answers so, and changes nothing
else. -/
theorem coreAccess_refused (s : State) (w : Width) (a v : Word) (st : BusStatus) (hrun : s.running = true) (hpf : s.mode.pf = false)
    (hn : st ≠ .ok) (h : ∀ store, s.status (s.accessOf .core) store (widthBytes w) a = st) :
    exec (.registerWrite .core w a v) s = .next (s.answer st 0) ∧ exec (.rcFieldRead .core w a) s = .next (s.answer st 0) ∧
      exec (.pairLowRead .core w a) s = .next (s.answer st 0) ∧ exec (.pairLowWrite .core w a v) s = .next (s.answer st 0) ∧
      exec (.pairHighWrite .core w a v) s = .next (s.answer st 0) := by
  have hc := canAccess_core s a hrun hpf
  have hw : s.busWrite .core w a v = s.answer st 0 := busWrite_refused s .core w a v st hn (.inr ⟨hc, h true⟩)
  have hr : s.busRead .core w a = s.answer st 0 := busRead_refused s .core w a st hn (.inr ⟨hc, h false⟩)
  exact ⟨congrArg _ hw, congrArg _ hr, congrArg _ hr, congrArg _ hw, congrArg _ hw⟩

/-! Register accesses of the privileged core that the map allows. -/

theorem toNat_periphAddr {o : Nat} (ho : o < 0x1C0000) : (BitVec.ofNat 32 (0x40000000 + o)).toNat = 0x40000000 + o := by
  rw [BitVec.toNat_ofNat]
  omega

theorem regionOf_offset {o : Nat} (ho : o < 0x1C0000) : regionOf (0x40000000 + o) = .periph :=
  regionOf_periph (by omega) (by omega)

/-- A word access to a register that exists is allowed in the privileged view. -/
theorem status_register (s : State) (x : Access) (store : Bool) {o : Nat} (hp : x.priv = true) (ho : o < 0x1C0000) (ha : o % 4 = 0)
    (hrow : s.regRow o ≠ none) : s.status x store 4 (BitVec.ofNat 32 (0x40000000 + o)) = .ok := by
  have hword : (0x40000000 + o) % 0x1000000 / 4 * 4 = o := by omega
  have halign : (0x40000000 + o) % 4 = 0 := by omega
  rw [status_periph s x store 4 (by rw [toNat_periphAddr ho, regionOf_offset ho]), toNat_periphAddr ho, hword]
  simp [hp, halign, hrow]

theorem load_register (s : State) (x : Access) (n : Nat) {o : Nat} (ho : o < 0x1C0000) :
    s.load x n (BitVec.ofNat 32 (0x40000000 + o)) = s.regRead (s.latchKey x.m) true o := by
  unfold State.load
  simp only [toNat_periphAddr ho, regionOf_offset ho, Nat.add_sub_cancel_left]

theorem storeNow_register (s : State) (m : Master) (denied : Bool) (n : Nat) {o : Nat} {r : RegRow} (v : Word) (ho : o < 0x1C0000)
    (hrow : s.regRow o = some r) :
    s.storeNow m denied n (BitVec.ofNat 32 (0x40000000 + o)) v = s.regWrite r m denied o v := by
  have hoff : (0x40000000 + o) % 0x1000000 = o := by omega
  unfold State.storeNow
  simp only [toNat_periphAddr ho, regionOf_offset ho, hoff, hrow]

section
variable (s : State) {o : Nat} (hrun : s.running = true) (hpf : s.mode.pf = false) (hpriv : s.core.priv = true) (ho : o < 0x1C0000)
  (ha : o % 4 = 0)
include hrun hpf hpriv ho ha

theorem busRead_register (hrow : s.regRow o ≠ none) :
    s.busRead .core .word (BitVec.ofNat 32 (0x40000000 + o)) =
      (s.regRead (s.latchKey .core) true o).2.answer .ok (s.regRead (s.latchKey .core) true o).1 := by
  have hst : s.status (s.accessOf .core) false (widthBytes .word) (BitVec.ofNat 32 (0x40000000 + o)) = .ok :=
    status_register s (s.accessOf .core) false hpriv ho ha hrow
  have hc := canAccess_core s (BitVec.ofNat 32 (0x40000000 + o)) hrun hpf
  simp only [State.busRead, hc, hst, if_true, load_register s _ _ ho]
  rfl

/-- Outside scan context and with no commit in progress a store reaches its register. -/
theorem busWrite_register {r : RegRow} (v : Word) (hscan : s.core.scan = false) (hcom : s.scan.commit = none)
    (hrow : s.regRow o = some r) :
    s.busWrite .core .word (BitVec.ofNat 32 (0x40000000 + o)) v = (s.regWrite r .core (s.core.efp != 0) o v).answer .ok 0 := by
  have hst : s.status (s.accessOf .core) true (widthBytes .word) (BitVec.ofNat 32 (0x40000000 + o)) = .ok :=
    status_register s (s.accessOf .core) true hpriv ho ha (by simp [hrow])
  have hc := canAccess_core s (BitVec.ofNat 32 (0x40000000 + o)) hrun hpf
  simp only [State.busWrite, hc, hst, if_true]
  simp [State.store, State.accessOf, hscan, hcom, storeNow_register s _ _ _ v ho hrow]

end

/-! What a register write does. -/

/-- The bits of a register after a write: RW bits take the written value, W1C bits written 1 clear, the others stay (Table
SCOPE-4). -/
theorem regWrite_stored (s : State) {r : RegRow} (m : Master) (denied : Bool) {o : Nat} (v : Word) (hbits : r.rw ||| r.w1c ≠ 0)
    (hlow : isPairRw o = false) (hhigh : isPairRw (o - 4) = false) (hact : s.regAct m denied o v = none) :
    s.regWrite r m denied o v =
      s.setReg o ((s.reg o &&& ~~~(r.rw ||| r.w1c)) ||| (v &&& r.rw) ||| (s.reg o &&& r.w1c &&& ~~~v)) := by
  have hheld : ¬(r.rw = 0 ∧ r.w1c = 0) := fun ⟨h1, h2⟩ => hbits (by rw [h1, h2]; rfl)
  simp only [State.regWrite, hlow, hhigh, hact, State.regKeep, if_neg hheld, Bool.false_eq_true, if_false]

theorem regWrite_pairLow (s : State) (r : RegRow) (m : Master) (denied : Bool) {o : Nat} (v : Word) (h : isPairRw o = true) :
    s.regWrite r m denied o v = { s with lows := mset 0 s.lows o v } := by
  simp only [State.regWrite, h, if_true]

theorem regWrite_pairHigh (s : State) (r : RegRow) (m : Master) (denied : Bool) {o : Nat} (v : Word) (hlow : isPairRw o = false)
    (h : isPairRw (o - 4) = true) :
    s.regWrite r m denied o v = s.pairWrite (o - 4) (pair v (mget 0 s.lows (o - 4))) := by
  simp only [State.regWrite, hlow, h, Bool.false_eq_true, if_false, if_true]

theorem pair_eq_append (hi lo : Word) : pair hi lo = hi ++ lo := by
  rw [pair, ← BitVec.setWidth_append_eq_shiftLeft_setWidth_or, BitVec.setWidth_eq]

/-! Register reads that act. -/

theorem regRead_latched (s : State) (key : Nat) (act : Bool) {o : Nat} {w : Word} (ho : o ≠ 0x10018)
    (h : s.latched key o = some w) : s.regRead key act o = (w, s) := by
  simp only [State.regRead, if_neg ho, h]

theorem regRead_pairLow (s : State) (key : Nat) (act : Bool) {o : Nat} (ho : o ≠ 0x10018) (hlow : isPairLow o = true)
    (h : s.latched key o = none) : s.regRead key act o = (s.word o, s.latch key [o + 4]) := by
  simp only [State.regRead, if_neg ho, h, hlow, if_true]

/-- The privileged read of FLT_SYNC_STAT's DENIED answers it and clears it. -/
theorem regRead_fltSyncStat (s : State) (key : Nat) (h : s.latched key 0x50144 = none) :
    s.regRead key true 0x50144 = (s.reg 0x50144, s.setReg 0x50144 0) := by
  have hlow : isPairLow 0x50144 = false := by decide
  simp [State.regRead, h, hlow]
  rfl

theorem latch_one (s : State) (key o : Nat) : s.latch key [o] =
    { s with latches := { master := key, offset := o, value := s.word o } ::
      s.latches.filter (fun l => !(l.master == key && l.offset == o)) } := by
  simp [State.latch, beq_eq_decide]

/-- Blocks outside ZVE have their registers whatever islands have power. -/
theorem regRow_of_ne_zve (s : State) {o : Nat} (h : o / 0x10000 ≠ 0x0D) :
    s.regRow o = (blockRows (o / 0x10000)).find? (fun r => r.has s.part (o % 0x10000)) :=
  if_neg fun hz => h hz.1

/-- A register that both parts have outside ZVE exists. -/
theorem regRow_ne_none (s : State) {o : Nat} (hz : o / 0x10000 ≠ 0x0D)
    (h : ∀ p ∈ [Part.tsj5140, .tsj5120], (blockRows (o / 0x10000)).find? (fun r => r.has p (o % 0x10000)) ≠ none) :
    s.regRow o ≠ none := by
  rw [regRow_of_ne_zve s hz]
  exact h s.part (by cases s.part <;> decide)

end Sys2Proof.Machine
end

section
/-! The statements of the scope: refused accesses, register accesses by their codes, and that every command completes (00). -/

namespace Sys2Proof.Machine

/-- Settles O46: by what the map answers in the register region and in the gap after it. -/
theorem refusedAccessesChangeOnlyTheAnswer : Obligations.RefusedAccessesChangeOnlyTheAnswer := by
  refine ⟨fun s w a v hrun hpf => ?_, fun s m w a v hrun hm => ?_⟩
  · have refused (st : BusStatus) (hn : st ≠ .ok) := coreAccess_refused s w a v st hrun hpf hn
    refine ⟨fun hp h1 h2 => refused _ (by decide) fun store => ?_, fun hp h1 h2 ha => refused _ (by decide) fun store => ?_,
      fun hp h1 h2 ha hw => refused _ (by decide) fun store => ?_, fun hp h1 h2 ha hrow => refused _ (by decide) fun store => ?_,
      fun h1 h2 ha => refused _ (by decide) fun store => ?_⟩
    · simp [status_periph s _ _ _ (regionOf_periph h1 h2), State.accessOf, hp]
    · simp [status_periph s _ _ _ (regionOf_periph h1 h2), State.accessOf, hp, ha]
    · have hsize : widthBytes w ≠ 4 := by cases w <;> simp_all [widthBytes]
      simp [status_periph s _ _ _ (regionOf_periph h1 h2), State.accessOf, hp, ha, hsize]
    · simp [status_periph s _ _ _ (regionOf_periph h1 h2), State.accessOf, hp, ha, hrow]
    · exact status_unmapped s _ store (regionOf_unmapped h1 h2) ha
  · have hdbg : m ≠ .debug := by rcases hm with rfl | rfl <;> decide
    have hc : s.canAccess m a = .busError := by simp [canAccess_of_ne_debug s hdbg, hrun]
    exact ⟨congrArg _ (busWrite_refused s m w a v _ (by decide) (.inl hc)),
      congrArg _ (busRead_refused s m w a _ (by decide) (.inl hc))⟩

/-- Both words of CAN_RXPEND of controller 0 exist (21 Table IFC-6). -/
theorem regRow_canRxpend (s : State) {o : Nat} (h : o = 0x140030 ∨ o = 0x140034) : s.regRow o = some (liveRow 0x30 8 .p) := by
  rcases h with rfl | rfl <;> rw [regRow_of_ne_zve s (by decide)] <;> cases s.part <;> rfl

/-- CAN_RXPEND written as a pair: the bits written 1 clear. -/
theorem pairWrite_canRxpend (s : State) (v : DWord) :
    s.pairWrite 0x140030 v = s.putCan 0 { s.ifc.can[0] with rxpend := s.ifc.can[0].rxpend &&& ~~~v } := rfl

/-- Settles O7: each access reaches its register, and the register's own read or write does the rest. -/
theorem registerAccessesFollowTheirCodes : Obligations.RegisterAccessesFollowTheirCodes := by
  refine ⟨fun s r o v hrun hpf hpriv hscan hcom ho ha hrow hbits hlow hhigh hact => congrArg Host.Outcome.next ?stored,
    fun s hrun hpf hpriv hl => congrArg Host.Outcome.next ?rc,
    fun s hrun hpf hpriv => ⟨fun hl => congrArg Host.Outcome.next ?low, fun w hl => congrArg Host.Outcome.next ?high⟩,
    fun s v hrun hpf hpriv hscan hcom => ⟨congrArg Host.Outcome.next ?lowWrite, congrArg Host.Outcome.next ?highWrite⟩⟩
  case stored =>
    rw [busWrite_register s hrun hpf hpriv ho ha v hscan hcom hrow, regWrite_stored s _ _ v hbits hlow hhigh hact]
  case rc =>
    have h := busRead_register s hrun hpf hpriv (o := 0x50144) (by decide) (by decide) (regRow_ne_none s (by decide) (by decide))
    rwa [regRead_fltSyncStat s _ hl] at h
  case low =>
    have h := busRead_register s hrun hpf hpriv (o := 0x10010) (by decide) (by decide) (regRow_ne_none s (by decide) (by decide))
    rwa [regRead_pairLow s _ _ (by decide) (by decide) hl, latch_one] at h
  case high =>
    have h := busRead_register s hrun hpf hpriv (o := 0x10014) (by decide) (by decide) (regRow_ne_none s (by decide) (by decide))
    rwa [regRead_latched s _ _ (by decide) hl] at h
  case lowWrite =>
    have h := busWrite_register s hrun hpf hpriv (o := 0x140030) (by decide) (by decide) v hscan hcom
      (regRow_canRxpend s (.inl rfl))
    rwa [regWrite_pairLow s _ _ _ v (by decide)] at h
  case highWrite =>
    have h := busWrite_register s hrun hpf hpriv (o := 0x140034) (by decide) (by decide) v hscan hcom
      (regRow_canRxpend s (.inr rfl))
    rwa [regWrite_pairHigh s _ _ _ v (by decide) (by decide), pair_eq_append, pairWrite_canRxpend] at h

/-- An event of a unit that the part has completes. -/
theorem within_completes {b : Bool} (t : State) (h : b = true) : ∃ u, within b t = .next u := ⟨t, if_pos h⟩

/-- Settles O56 by the command: seven events name a unit that the part may lack, which well-formedness rules out; every other
command answers a next state on every path. -/
theorem everyWellFormedCommandCompletes : Obligations.EveryWellFormedCommandCompletes := by
  intro i s h
  cases i with
  | channelSettingApply | modReset | owSet | owClear | comparatorCrossing | chainOutput | thresholdEvaluation =>
    exact within_completes _ h
  | _ => exact ⟨_, rfl⟩

end Sys2Proof.Machine
end

section
/-! Safe causes, clock monitors and the RTC (02 R59 to R66, Table TIME-6): what each shared operation does on the paths that the
events of the clocks and of the die bridge take. -/

namespace Sys2Proof.Machine

/-! Safe causes. -/

theorem latchSafe_eq (s : State) (cause : Nat) (param : Word) : s.latchSafe cause param = s.withSafeCause cause param := rfl

theorem latchOpen_eq (s : State) (cause : Nat) : s.latchOpen cause = s.withSafeCauseFree cause := rfl

/-- The first clock fault leaves its entry and its cause (R61). -/
theorem clkFault_first (s : State) (n : Fin 8) (count : Word) (h : s.safeDue 5 = false) :
    s.clkFault n count =
      (s.say .clkmon 0x8002 (BitVec.ofNat 32 n.val) count 0 0).withSafeCause 5 (BitVec.ofNat 32 n.val) := by
  simp only [State.clkFault, h, Bool.false_eq_true, if_false, latchSafe_eq]

/-! Limits of the monitor windows. -/

/-- A count is outside when it deviates to either side by more than its part of the expected count. -/
theorem outside_iff (count expect n : Nat) :
    outside count expect n = true ↔ expect * n < 10000 * (count - expect) ∨ expect * n < 10000 * (expect - count) := by
  unfold outside
  rw [decide_eq_true_iff]
  split <;> omega

theorem outside_eq_false_iff (count expect n : Nat) :
    outside count expect n = false ↔ 10000 * (count - expect) ≤ expect * n ∧ 10000 * (expect - count) ≤ expect * n := by
  rw [← Bool.not_eq_true, outside_iff, not_or, Nat.not_lt, Nat.not_lt]

theorem clkLimits_core_within (s : State) {count : Nat} (h1 : 29700 ≤ count) (h2 : count ≤ 30300) :
    s.clkLimits 0 count = (false, false) :=
  Prod.ext ((outside_eq_false_iff count 30000 100).2 (by omega)) ((outside_eq_false_iff count 30000 200).2 (by omega))

theorem clkLimits_core_slow (s : State) {count : Nat} (h : count < 29400) : s.clkLimits 0 count = (true, true) :=
  Prod.ext ((outside_iff count 30000 100).2 (by omega)) ((outside_iff count 30000 200).2 (by omega))

theorem clkLimits_winter_within (s : State) {count : Nat} (h1 : 390625 ≤ 4 * count + 195) (h2 : 4 * count ≤ 390820) :
    s.clkLimits 7 count = (false, false) :=
  Prod.ext ((outside_eq_false_iff (4 * count) 390625 5).2 (by omega)) ((outside_eq_false_iff (4 * count) 390625 10).2 (by omega))

/-! Windows. -/

/-- A window that gives no new warning shows its count and its status and writes no entry (R60). -/
theorem clkJudge_silent (s : State) (island : Fin 8) {count : Nat} {warn fault : Bool} (hlim : s.clkLimits island count = (warn, fault))
    (hcount : count < 2 ^ 24) (hwarn : warn = false ∨ bit (s.reg R.cmonWarn) island.val = true) :
    s.clkJudge island count = { s.setReg (R.cmonCnt island.val) (BitVec.ofNat 32 count) with
      time := { s.time with clkOk := setBit s.time.clkOk island.val (!warn), clkOver := setBit s.time.clkOver island.val fault } } := by
  have hquiet : (warn && !bit (s.reg R.cmonWarn) island.val) = false := by
    rcases hwarn with h | h <;> simp [h]
  simp only [State.clkJudge, hlim, hquiet, Nat.mod_eq_of_lt hcount, Bool.false_eq_true, if_false, State.setReg_time]

/-- The window of a powered CORE with no fault injected into it: its count is judged, and the second one in a row outside the fault
limit is a clock fault (R59, R61). -/
theorem clkWindow_core (s : State) (count : Nat) (hon : s.mode.coreOn = true) (hp : s.time.pwr.getLsbD 0 = true)
    (hinj : s.saf.inj.getLsbD 6 = false) :
    s.clkWindow 0 count =
      if (s.clkLimits 0 count).2 && s.time.clkOver.getLsbD 0 then (s.clkJudge 0 count).clkFault 0 (BitVec.ofNat 32 count)
      else s.clkJudge 0 count := by
  simp [State.clkWindow, hon, hp, hinj, -BitVec.getLsbD_eq_getElem]

/-! The RTC. -/

/-- The RTC becomes coarse in its present tick (R65, R66). -/
def State.withCoarse (s : State) (fallback : Bool) : State :=
  { s with time := { s.time with coarse := true, coarseAt := s.time.rtct, rcFallback := fallback } }

/-- An RTC that was neither coarse nor on the fallback writes its entry and becomes coarse. -/
theorem rtcCoarse_first (s : State) (kind : Word) (fallback : Bool) (hc : s.time.coarse = false) (hf : s.time.rcFallback = false) :
    s.rtcCoarse kind fallback = (s.sayWnt 0x7104 kind 0 0 0).withCoarse fallback := by
  simp [State.rtcCoarse, State.withCoarse, hc, hf]

/-- A sync pair kept: RTCT and the DT of its edge (R48). -/
def State.withSyncPair (s : State) (d : DWord) : State :=
  { s with time := { s.time with syncRtc := s.time.rtct, syncDt := d, synced := true } }

section
variable (s : State) {d : DWord} (hrun : s.time.run = true) (hedge : s.time.edgeDt = some d) (hmul : s.time.rtct.toNat % 32 = 0)
include hrun hedge hmul

/-- A new pair is kept; one that follows the pair before it by 32 ticks is judged as WINTER's window, and makes the RTC coarse
outside the fault limit (R66). -/
theorem syncPair_new (hnew : s.time.synced = false ∨ s.time.rtct ≠ s.time.syncRtc) :
    s.syncPair =
      if s.time.synced && s.time.rtct == s.time.syncRtc + 32 then
        let n := (d - s.time.syncDt).toNat
        let u := (s.withSyncPair d).clkJudge 7 n
        if ((s.withSyncPair d).clkLimits 7 n).2 then u.rtcCoarse 1 false else u
      else s.withSyncPair d := by
  have hcond : (s.time.run && s.time.rtct.toNat % 32 == 0 && (!s.time.synced || s.time.rtct != s.time.syncRtc)) = true := by
    rcases hnew with h | h <;> simp [hrun, hmul, h]
  unfold State.syncPair
  split
  case h_1 h => cases hedge.symm.trans h
  case h_2 e h =>
    cases hedge.symm.trans h
    exact if_pos hcond

/-- A pair that does not follow the pair before it by 32 ticks ends no window of WINTER. -/
theorem syncPair_apart (h : s.time.synced = false ∨ s.time.rtct ≠ s.time.syncRtc ∧ s.time.rtct ≠ s.time.syncRtc + 32) :
    s.syncPair = s.withSyncPair d := by
  rw [syncPair_new s hrun hedge hmul (h.imp_right And.left)]
  refine if_neg ?_
  rcases h with h | ⟨-, h⟩
  · simp [h]
  · rw [beq_eq_false_iff_ne.2 h, Bool.and_false]
    exact Bool.false_ne_true

/-- A pair 32 ticks after the one before it ends a window of WINTER. -/
theorem syncPair_next (hs : s.time.synced = true) (h : s.time.rtct = s.time.syncRtc + 32) :
    s.syncPair =
      let n := (d - s.time.syncDt).toNat
      let u := (s.withSyncPair d).clkJudge 7 n
      if ((s.withSyncPair d).clkLimits 7 n).2 then u.rtcCoarse 1 false else u := by
  have hnew : s.time.rtct ≠ s.time.syncRtc := by rw [h]; bv_omega
  rw [syncPair_new s hrun hedge hmul (.inr hnew)]
  exact if_pos (by simp [hs, h])

end

end Sys2Proof.Machine
end

section
/-! The statements of the architecture: events of the die bridge and of the clocks (01, 02). -/

namespace Sys2Proof.Machine

/-- Settles O1: each event takes the one path that its hypotheses leave open. -/
theorem clockAndBridgeEventsTakeEffect : Obligations.ClockAndBridgeEventsTakeEffect := by
  refine ⟨fun s ch hon hch => congrArg Host.Outcome.next ?bridge, fun s hon => congrArg Host.Outcome.next ?lost,
    fun s d hrun hedge hmul => ⟨fun h => congrArg Host.Outcome.next ?apart,
      fun n hs h hn h1 h2 => congrArg Host.Outcome.next ?spacing⟩,
    fun s n hon hp hn hd => congrArg Host.Outcome.next ?gray, fun s r hon hd => congrArg Host.Outcome.next ?crossing,
    fun s n hon hp hn hd => congrArg Host.Outcome.next ?unlock, fun s hx hf hc => congrArg Host.Outcome.next ?stop,
    fun s hw hx hf hc => congrArg Host.Outcome.next ?noStart,
    fun s count hon hp hinj => ⟨fun h1 h2 => congrArg Host.Outcome.next ?within,
      fun h hover hwarn hd => congrArg Host.Outcome.next ?slow⟩⟩
  case bridge =>
    have hshake : bridgeHandshake ch = true := by rcases hch with rfl | rfl | rfl | rfl <;> rfl
    simp [State.bridgeTimeout, hon, hshake, latchOpen_eq]
  case lost => simp [State.coreLost, hon, latchOpen_eq]
  case apart => exact syncPair_apart s hrun hedge hmul h
  case spacing =>
    subst hn
    have hlim := clkLimits_winter_within (s.withSyncPair d) h1 h2
    rw [syncPair_next s hrun hedge hmul hs h]
    simp only [hlim, Bool.false_eq_true, if_false]
    exact clkJudge_silent (s.withSyncPair d) 7 hlim (by omega) (.inl rfl)
  case gray => simp [State.dtFault, hon, hp, hn, hd, latchSafe_eq]
  case crossing => simp [State.xing, hon, hd, latchSafe_eq]
  case unlock =>
    have h : s.pllUnlock n = s.clkFault n 0xFFFFFFFF := by simp [State.pllUnlock, hon, hp, hn]
    exact h.trans (clkFault_first s n _ hd)
  case stop =>
    have h : s.crystalStop = s.rtcCoarse 0 true := by simp [State.crystalStop, hx, hf]
    exact h.trans (rtcCoarse_first s 0 true hc hf)
  case noStart =>
    have h : s.when s.pwr.winter s.xrtcTimeout = s.rtcCoarse 0 true := by simp [State.when, State.xrtcTimeout, hw, hx, hf]
    exact h.trans (rtcCoarse_first s 0 true hc hf)
  case within =>
    have hlim := clkLimits_core_within s h1 h2
    rw [clkWindow_core s count hon hp hinj, clkJudge_silent s 0 hlim (by omega) (.inl rfl), hlim]
    rfl
  case slow =>
    have hlim := clkLimits_core_slow s h
    rw [clkWindow_core s count hon hp hinj, clkJudge_silent s 0 hlim (by omega) (.inr hwarn), hlim, hover]
    exact clkFault_first _ 0 _ hd

end Sys2Proof.Machine
end

section
/-! Image staging: what the staging operations do, case by case (03 R89, R92, R93, Table IMG-16). -/

namespace Sys2Proof.Machine

/-- A register command has its effect and answers OK while the registers have power. -/
theorem next_regCmd {s t u : State} (hon : s.regsOn = true) (h : t = u) :
    (.next (s.regCmd t) : Out) = .next (u.answer .ok 0) := by
  simp [State.regCmd, State.regAt, hon, h]

/-! Who may command the stage (R89, 22 R609). -/

theorem stageOpenTo_service {s : State} (h : s.mode.mode = .service) (m : Master) : s.stageOpenTo m = true := by
  simp [State.stageOpenTo, h]

theorem stageOpenTo_core {s : State} (h : s.mode.mode ≠ .service) : s.stageOpenTo .core = false := by
  simp [State.stageOpenTo, h]

/-! The commands. -/

/-- Any command of a master to whom the stage is not open only sets DENIED. -/
theorem stageCmd_denied {s : State} {m : Master} (hon : s.regsOn = true) (hm : s.stageOpenTo m = false) (cmd : Nat) :
    s.stageCmd m cmd = s.stageDeny := by
  simp [State.stageCmd, hon, hm]

section
variable {s : State} {m : Master} (hon : s.regsOn = true) (hm : s.stageOpenTo m = true)
include hon hm

theorem stageCmd_open (hc : s.cfg.stage ≠ .checking) :
    s.stageCmd m 1 = { s with cfg := { s.cfg with stage := .opened, closing := false } } := by
  simp [State.stageCmd, hon, hm, hc]

theorem stageCmd_check (hc : s.cfg.stage ≠ .checking) :
    s.stageCmd m 2 = { s with cfg := { s.cfg with stage := .checking } } := by
  simp [State.stageCmd, hon, hm, hc]

/-- CLOSE with no job on the slot closes the stage at once. -/
theorem stageCmd_close_idle (hj : s.slotJob = false) : s.stageCmd m 3 = s.stageShut := by
  simp [State.stageCmd, hon, hm, hj]

/-- CLOSE with a job on the slot waits for the job, but abandons a check at once. -/
theorem stageCmd_close_busy (hj : s.slotJob = true) :
    s.stageCmd m 3 = { s with cfg := { s.cfg with
      closing := true
      stage := if s.cfg.stage = .checking then .opened else s.cfg.stage
      result := if s.cfg.stage = .checking then 0xFF else s.cfg.result } } := by
  simp [State.stageCmd, hon, hm, hj]

end

/-! The end of a check. -/

/-- STATE CHECKED with a refusal code in RESULT, 0 for none (R92). -/
def State.withCheckResult (t : State) (code : Nat) : State :=
  { t with cfg := { t.cfg with stage := .checked, result := BitVec.ofNat 8 code } }

section
variable {s : State} (hon : s.regsOn = true) (hc : s.cfg.stage = .checking)
include hon hc

/-- A check that ends gives its verdict: NOKEY without both keys, LINE while the boundary register has the pins, otherwise the
first refusal of the slot's own check, or none. -/
theorem checkDone_of_checking :
    s.checkDone =
      match s.slotKey 0, s.slotKey 11 with
      | some k0, some _ =>
        if s.bscan then (s.sayRefusal s.inactive 4 0 0).withCheckResult 4
        else match s.checkSlot s.inactive k0 s.key.flash.size0 s.key.flash.found1 with
          | .ok _ => s.withCheckResult 0
          | .error (c, o) => (s.sayRefusal s.inactive c o (s.slotSeq s.inactive k0)).withCheckResult c
      | _, _ => (s.sayRefusal s.inactive 6 0 0).withCheckResult 6 := by
  have hrun : ¬(s.cfg.stage ≠ .checking ∨ (!s.regsOn) = true) := by simp [hon, hc]
  exact if_neg hrun

/-- Without K0 the check ends with NOKEY, before any header is read (R86). -/
theorem checkDone_noKey (hk : s.slotKey 0 = none) : s.checkDone = (s.sayRefusal s.inactive 6 0 0).withCheckResult 6 := by
  rw [checkDone_of_checking hon hc, hk]

/-- Whatever its verdict, a check that ends leaves STATE CHECKED and a code in RESULT. -/
theorem checkDone_exists_result : ∃ (t : State) (code : Nat), s.checkDone = t.withCheckResult code := by
  rw [checkDone_of_checking hon hc]
  split
  case h_1 =>
    split
    case isTrue => exact ⟨_, _, rfl⟩
    case isFalse => split <;> exact ⟨_, _, rfl⟩
  case h_2 => exact ⟨_, _, rfl⟩

end

end Sys2Proof.Machine
end

section
/-! The statement of the architecture: image staging (03). -/

namespace Sys2Proof.Machine

/-- Settles O6: each command by what it does to the stage that it meets, a check's end by its verdict. -/
theorem stagingCommandsMoveTheStage : Obligations.StagingCommandsMoveTheStage := by
  refine ⟨fun s m hon hsvc hc => ?move, fun s m hon hsvc => ?close, fun s hon hc => ?checked, fun s hon hsvc => ?denied⟩
  case move =>
    have hm := stageOpenTo_service hsvc m
    exact ⟨next_regCmd hon (stageCmd_open hon hm hc), next_regCmd hon (stageCmd_check hon hm hc)⟩
  case close =>
    have hm := stageOpenTo_service hsvc m
    exact ⟨fun hj => next_regCmd hon (stageCmd_close_idle hon hm hj),
      fun hj => next_regCmd hon (stageCmd_close_busy hon hm hj)⟩
  case checked =>
    obtain ⟨u, code, hu⟩ := checkDone_exists_result hon hc
    exact ⟨⟨_, congrArg Host.Outcome.next hu, rfl⟩,
      fun hk => ⟨_, congrArg Host.Outcome.next (checkDone_noKey hon hc hk), rfl, rfl⟩⟩
  case denied =>
    have hdeny := stageCmd_denied hon (stageOpenTo_core hsvc)
    exact ⟨next_regCmd hon (hdeny 1), next_regCmd hon (hdeny 2), next_regCmd hon (hdeny 3)⟩

end Sys2Proof.Machine
end

section
/-! What the sequences of 04 keep on their way down: the mode, the key vault and the lock state. One lemma for each operation of other
chapters that such a sequence runs: none of them changes these, but that a job may latch a Safe cause. -/

namespace Sys2Proof.Machine

/-- What lasts through the steps of a sequence: the mode but for the Safe causes that wait, the key vault, the lock state. -/
def State.lasting (s : State) : ModeSt × Vector VaultSlot 16 × BitVec 2 :=
  ({ s.mode with safePend := [] }, s.key.vault, s.dbg.lock)

theorem mode_of_lasting {s t : State} (h : t.lasting = s.lasting) : t.mode.mode = s.mode.mode :=
  congrArg (fun x => x.1.mode) h

theorem prev_of_lasting {s t : State} (h : t.lasting = s.lasting) : t.mode.prev = s.mode.prev := congrArg (fun x => x.1.prev) h

theorem pf_of_lasting {s t : State} (h : t.lasting = s.lasting) : t.mode.pf = s.mode.pf := congrArg (fun x => x.1.pf) h

theorem vault_of_lasting {s t : State} (h : t.lasting = s.lasting) : t.key.vault = s.key.vault := congrArg (fun x => x.2.1) h

theorem lock_of_lasting {s t : State} (h : t.lasting = s.lasting) : t.dbg.lock = s.dbg.lock := congrArg (fun x => x.2.2) h

/-- Of two states that keep the same, one is picked. -/
theorem lasting_ite {c : Prop} [Decidable c] {a b : State} (h : a.lasting = b.lasting) : (if c then a else b).lasting = b.lasting := by
  split
  · exact h
  · rfl

theorem lasting_ite_of {c : Prop} [Decidable c] {a b s : State} (ha : a.lasting = s.lasting) (hb : b.lasting = s.lasting) :
    (if c then a else b).lasting = s.lasting := by
  split
  · exact ha
  · exact hb

theorem withMem_lasting (s : State) (m : MemSt) : ({ s with mem := m } : State).lasting = s.lasting := rfl
theorem withLog_lasting (s : State) (l : LogSt) : ({ s with log := l } : State).lasting = s.lasting := rfl
theorem withUmu_lasting (s : State) (u : UmuSt) : ({ s with umu := u } : State).lasting = s.lasting := rfl

/-! Shared operations. -/

@[simp] theorem setReg_lasting (s : State) (o : Nat) (v : Word) : (s.setReg o v).lasting = s.lasting := rfl
@[simp] theorem evt_lasting (s : State) (o i : Nat) : (s.evt o i).lasting = s.lasting := rfl
@[simp] theorem offer_lasting (s : State) (e : Entry) : (s.offer e).lasting = s.lasting := rfl
@[simp] theorem say_lasting (s : State) (src : Src) (c : Half) (p0 p1 p2 p3 : Word) : (s.say src c p0 p1 p2 p3).lasting = s.lasting := rfl
@[simp] theorem sayWnt_lasting (s : State) (c : Half) (p0 p1 p2 p3 : Word) : (s.sayWnt c p0 p1 p2 p3).lasting = s.lasting := rfl
@[simp] theorem latchOpen_lasting (s : State) (cause : Nat) : (s.latchOpen cause).lasting = s.lasting := rfl

@[simp] theorem sayKey_lasting (s : State) (gap k : Nat) (src : Src) (c : Half) (p0 p1 p2 p3 : Word) :
    (s.sayKey gap k src c p0 p1 p2 p3).lasting = s.lasting := by
  rcases sayKey_cases s gap k src c p0 p1 p2 p3 with h | h
  · rw [h]
  · rw [h]
    rfl

@[simp] theorem sayRate_lasting (s : State) (gap idx : Nat) (src : Src) (c : Half) (p0 p1 p2 p3 : Word) :
    (s.sayRate gap idx src c p0 p1 p2 p3).lasting = s.lasting := sayKey_lasting ..

/-! Channels, staging, Service. -/

@[simp] theorem clearChannel_lasting (s : State) (n : Fin 16) (keep : Bool) : (s.clearChannel n keep).lasting = s.lasting := by
  simp only [State.clearChannel, State.clearChain]
  split <;> rfl

theorem forChans_lasting (s : State) (mask : BitVec 16) (f : State → Fin 16 → State) (h : ∀ t n, (f t n).lasting = t.lasting) :
    (s.forChans mask f).lasting = s.lasting := by
  refine foldl_proj State.lasting _ (fun t n => ?_) _ _
  split
  · exact h t n
  · rfl

@[simp] theorem abandonBurst_lasting (s : State) : s.abandonBurst.lasting = s.lasting := by
  unfold State.abandonBurst
  split
  · rfl
  · simp only [say_lasting, evt_lasting]
    exact forChans_lasting _ _ _ fun t n => clearChannel_lasting t n false

@[simp] theorem stageShut_lasting (s : State) : s.stageShut.lasting = s.lasting := rfl

@[simp] theorem leaveService_lasting (s : State) : s.leaveService.lasting = s.lasting := by
  unfold State.leaveService
  split <;> rfl

/-! The recorder. -/

@[simp] theorem recLost_lasting (s : State) (n : Fin 8) (recNo reason : Word) : (s.recLost n recNo reason).lasting = s.lasting := by
  unfold State.recLost
  split <;> rfl

@[simp] theorem recDiscard_lasting (s : State) (reason : Word) : (s.recDiscard reason).lasting = s.lasting := by
  unfold State.recDiscard
  split
  · rfl
  · split
    · exact recLost_lasting ..
    · rfl

@[simp] theorem dropCaptures_lasting (s : State) : s.dropCaptures.lasting = s.lasting := by
  refine (foldl_proj State.lasting _ (fun t n => ?_) _ _).trans (recDiscard_lasting s 2)
  dsimp only
  split
  · exact recLost_lasting ..
  · rfl

@[simp] theorem recWindowEnd_lasting (s : State) : s.recWindowEnd.lasting = s.lasting := by
  refine foldl_proj State.lasting _ (fun t n => ?_) _ _
  dsimp only
  split
  · exact recLost_lasting ..
  · split
    · exact recLost_lasting ..
    · rfl

@[simp] theorem recPowerLost_lasting (s : State) : s.recPowerLost.lasting = s.lasting := by
  unfold State.recPowerLost
  split
  · exact recWindowEnd_lasting s
  · refine foldl_proj State.lasting _ (fun t n => ?_) _ _
    dsimp only
    split
    · rfl
    · exact recLost_lasting ..

/-! Rings. -/

@[simp] theorem putRing_lasting (s : State) (r : Fin 64) (x : RingSt) : (s.putRing r x).lasting = s.lasting := rfl
@[simp] theorem ringStat_lasting (s : State) (r : Fin 64) (i : Nat) : (s.ringStat r i).lasting = s.lasting := rfl
@[simp] theorem sayRing_lasting (s : State) (code : Half) (r : Fin 64) (p1 p2 p3 : Word) :
    (s.sayRing code r p1 p2 p3).lasting = s.lasting := sayKey_lasting ..

@[simp] theorem reselect_lasting (s old : State) : (s.reselect old).lasting = s.lasting := by
  unfold State.reselect
  extract_lets cands keep _ _ _ _ s1
  have hsel : s1.lasting = s.lasting := lasting_ite_of rfl (by clear_value cands; split <;> rfl)
  exact (lasting_ite (evt_lasting ..)).trans hsel

@[simp] theorem setFlags_lasting (s : State) (t : Fin 64) (v : Word) : (s.setFlags t v).lasting = s.lasting := by
  simp only [State.setFlags, reselect_lasting]
  rfl

@[simp] theorem ringTake_lasting (s : State) (r : Fin 64) : (s.ringTake r).2.lasting = s.lasting := by
  unfold State.ringTake
  dsimp only
  split
  · rfl
  · split <;> rfl

@[simp] theorem ringTakes_lasting (s : State) (r : Fin 64) (n : Nat) : (s.ringTakes r n).2.lasting = s.lasting := by
  induction n generalizing s with
  | zero => rfl
  | succ n ih => exact (ih _).trans (ringTake_lasting s r)

theorem ringItem_lasting {s t : State} {r : Fin 64} {ws : List Word} (h : s.ringItem r = some (ws, t)) : t.lasting = s.lasting := by
  unfold State.ringItem at h
  split at h
  · cases h
  · cases h
    exact ringTakes_lasting ..

@[simp] theorem feedItem_lasting (s : State) (r : Fin 64) : (s.feedItem r).lasting = s.lasting := by
  unfold State.feedItem
  split
  · rfl
  · next h =>
    dsimp only
    split
    · simpa using ringItem_lasting h
    · simpa using ringItem_lasting h
  · next h => simpa using ringItem_lasting h

@[simp] theorem ringPut_lasting (s : State) (r : Fin 64) (w : Word) : (s.ringPut r w).lasting = s.lasting := by
  unfold State.ringPut
  dsimp only
  split <;> rfl

@[simp] theorem ringExists_lasting (s : State) (r : Fin 64) (ws : List Word) : (s.ringExists r ws).lasting = s.lasting := by
  unfold State.ringExists
  extract_lets c was s1 x s2 s3 _ s4
  have hput : s2.lasting = s.lasting := foldl_proj State.lasting _ (fun t w => ringPut_lasting t r w) _ _
  have hflag : s3.lasting = s2.lasting := lasting_ite (setFlags_lasting ..)
  have hevt : s4.lasting = s3.lasting := lasting_ite rfl
  exact (lasting_ite (feedItem_lasting ..)).trans (hevt.trans (hflag.trans hput))

@[simp] theorem tornReport_lasting (s : State) (r : Fin 64) (port : Fin 5) : (s.tornReport r port).lasting = s.lasting := by
  unfold State.tornReport
  dsimp only
  split
  · rfl
  · exact sayRing_lasting ..

@[simp] theorem tearOpen_lasting (s : State) (r : Fin 64) (port : Fin 5) : (s.tearOpen r port).lasting = s.lasting := by
  unfold State.tearOpen
  dsimp only
  split
  · rfl
  · exact sayRing_lasting ..

@[simp] theorem ringHdr_lasting (s : State) (r : Fin 64) (port : Fin 5) (v : Word) : (s.ringHdr r port v).lasting = s.lasting := by
  unfold State.ringHdr
  extract_lets s1 n x h
  have htorn : s1.lasting = s.lasting := (tearOpen_lasting ..).trans (tornReport_lasting ..)
  refine lasting_ite_of (ringStat_lasting ..) (lasting_ite_of htorn (lasting_ite_of ?_ (lasting_ite_of ?_ ?_)))
  · exact (sayRing_lasting ..).trans ((evt_lasting ..).trans ((ringStat_lasting ..).trans ((putRing_lasting ..).trans htorn)))
  · exact (ringExists_lasting ..).trans htorn
  · exact (putRing_lasting ..).trans htorn

@[simp] theorem ringData_lasting (s : State) (r : Fin 64) (port : Fin 5) (v : Word) : (s.ringData r port v).lasting = s.lasting := by
  unfold State.ringData
  refine lasting_ite_of rfl ?_
  dsimp only
  split
  · exact lasting_ite_of (ringExists_lasting ..) rfl
  · rfl
  · exact sayRing_lasting ..

@[simp] theorem ringItemPush_lasting (s : State) (r : Fin 64) (port : Fin 5) (ws : List Word) :
    (s.ringItemPush r port ws).2.lasting = s.lasting := by
  unfold State.ringItemPush
  split
  · rfl
  · split
    · rfl
    · split
      · exact (foldl_proj State.lasting _ (fun t w => ringData_lasting t r port w) _ _).trans (ringHdr_lasting ..)
      · exact ringHdr_lasting ..

/-! The external flash. -/

@[simp] theorem putLine_snd_lasting (s : State) (a : Area) (key : List Byte) (x : Nat) (pt : List Byte) :
    (s.putLine a key x pt).2.lasting = s.lasting := by
  unfold State.putLine
  extract_lets
  split <;> rfl

theorem putLine_lasting {s t : State} {a : Area} {key : List Byte} {x : Nat} {pt : List Byte} {r : LineWrite}
    (h : s.putLine a key x pt = (r, t)) : t.lasting = s.lasting :=
  (congrArg (fun y => y.2.lasting) h).symm.trans (putLine_snd_lasting ..)

@[simp] theorem alarm_lasting (s : State) (addr : Word) (chan : Nat) (code : Half) (p0 p1 p2 p3 : Word) :
    (s.alarm addr chan code p0 p1 p2 p3).lasting = s.lasting := sayRate_lasting ..

@[simp] theorem lineFail_lasting (s : State) (a : Area) (x chan : Nat) (halt : Bool) : (s.lineFail a x chan halt).lasting = s.lasting :=
  alarm_lasting ..

/-! Jobs of the mover. -/

@[simp] theorem putMov_lasting (s : State) (c : Fin 8) (m : MovSt) : (s.putMov c m).lasting = s.lasting := rfl

@[simp] theorem refuseAccess_lasting (s : State) (ext : Word) (reason chan : Nat) : (s.refuseAccess ext reason chan).lasting = s.lasting :=
  alarm_lasting ..

theorem readLine_lasting (j : JobRun) (c : Nat) (a : Area) (key : List Byte) (x dst : Nat) :
    (j.readLine c a key x dst).s.lasting = j.s.lasting := by
  unfold JobRun.readLine
  split
  · exact withMem_lasting ..
  · exact withMem_lasting ..
  · split
    · exact (latchOpen_lasting ..).trans (lineFail_lasting ..)
    · exact lineFail_lasting ..

theorem reads_lasting (c : Nat) (a : Area) (key : List Byte) (n x dst : Nat) (j : JobRun) :
    (JobRun.reads c a key n x dst j).s.lasting = j.s.lasting := by
  induction n generalizing x dst j with
  | zero => rfl
  | succ n ih =>
    have hline := readLine_lasting j c a key x dst
    unfold JobRun.reads
    dsimp only
    split
    · exact (ih ..).trans hline
    · exact hline

theorem writes_lasting (c : Nat) (a : Area) (key : List Byte) (ext : Word) (n x : Nat) (src : Word) (j : JobRun) :
    (JobRun.writes c a key ext n x src j).s.lasting = j.s.lasting := by
  induction n generalizing x src j with
  | zero => rfl
  | succ n ih =>
    unfold JobRun.writes
    split
    next h => exact (ih ..).trans (putLine_lasting h)
    next h => exact putLine_lasting h
    next h => exact (refuseAccess_lasting ..).trans (putLine_lasting h)

@[simp] theorem jobRun_lasting (s : State) (c : Fin 8) (m : MovSt) (n : Nat) : (s.jobRun c m n).s.lasting = s.lasting := by
  unfold State.jobRun
  dsimp only
  split
  · exact refuseAccess_lasting ..
  · split
    · exact reads_lasting ..
    · split
      · exact writes_lasting ..
      · rfl

@[simp] theorem jobEnd_lasting (s : State) (c : Fin 8) (m : MovSt) : (s.jobEnd c m).lasting = s.lasting := by
  unfold State.jobEnd
  extract_lets s0 s1 s2 s3
  have hstage : s1.lasting = s0.lasting := lasting_ite rfl
  have hsay : s2.lasting = s1.lasting := lasting_ite rfl
  exact (lasting_ite (ringItemPush_lasting ..)).trans (hsay.trans hstage)

@[simp] theorem moverJobEnd_whole_lasting (s : State) (c : Fin 8) : (s.moverJobEnd c .whole).lasting = s.lasting := by
  unfold State.moverJobEnd
  refine lasting_ite_of rfl (lasting_ite_of rfl ?_)
  simp

@[simp] theorem finishJobs_lasting (s : State) : s.finishJobs.lasting = s.lasting :=
  foldl_proj State.lasting _ (fun t c => lasting_ite (moverJobEnd_whole_lasting t c)) _ _

/-! The log. -/

@[simp] theorem flushTrigger_lasting (s : State) : s.flushTrigger.lasting = s.lasting := by
  rcases flushTrigger_cases s with h | h | h <;> rw [h] <;> rfl

@[simp] theorem stageOne_lasting (s : State) : s.stageOne.lasting = s.lasting := by
  unfold State.stageOne
  extract_lets i _ s0
  split
  next => rfl
  next e =>
    refine lasting_ite_of rfl (lasting_ite_of ?_ ?_)
    · exact (lasting_ite (flushTrigger_lasting _)).trans rfl
    · exact (lasting_ite (evt_lasting ..)).trans rfl

@[simp] theorem stageAll_lasting (s : State) : s.stageAll.lasting = s.lasting := by
  unfold State.stageAll
  generalize s.log.offered.length = n
  induction n with
  | zero => rfl
  | succ n ih => exact (stageOne_lasting _).trans ih

theorem flushLines_lasting (s : State) (a : Area) (key : List Byte) (n : Nat) : (s.flushLines a key n).1.lasting = s.lasting := by
  induction n generalizing s with
  | zero => rfl
  | succ n ih =>
    unfold State.flushLines
    split
    · rfl
    · split
      · rfl
      · split
        · split
          next h => exact (ih _).trans ((withLog_lasting ..).trans (putLine_lasting h))
          next h => exact putLine_lasting h
        · split
          · extract_lets
            split
            next h => exact (evt_lasting ..).trans ((withLog_lasting ..).trans (putLine_lasting h))
            next h => exact putLine_lasting h
          · rfl

@[simp] theorem flushN_lasting (s : State) (n : Nat) : (s.flushN n).1.lasting = s.lasting := by
  unfold State.flushN
  split
  · rfl
  · exact flushLines_lasting ..

@[simp] theorem extendReserve_lasting (s : State) (n : Nat) : (s.extendReserve n).lasting = s.lasting := by
  unfold State.extendReserve
  refine lasting_ite_of ?_ rfl
  split <;> rfl

@[simp] theorem doClear_lasting (s : State) : s.doClear.lasting = s.lasting := by
  unfold State.doClear
  split
  · rfl
  · extract_lets f e _ _ s1
    have hkeep : s1.lasting = s.lasting := rfl
    exact (putLine_snd_lasting ..).trans hkeep

@[simp] theorem sayFlushFail_lasting (s : State) (attempt : Word) : (s.sayFlushFail attempt).lasting = s.lasting := rfl
@[simp] theorem flushStop_lasting (s : State) : s.flushStop.lasting = s.lasting := rfl

@[simp] theorem flushAll_lasting (s : State) : s.flushAll.lasting = s.lasting := by
  unfold State.flushAll
  extract_lets s0 s1 s2 r stop q
  have hstage : s0.lasting = s.lasting := stageAll_lasting s
  have hclear : s1.lasting = s0.lasting := lasting_ite (doClear_lasting s0)
  have hreserve : s2.lasting = s1.lasting := extendReserve_lasting ..
  have hfirst : r.1.lasting = s2.lasting := flushN_lasting ..
  have hsecond : q.1.lasting = r.1.lasting := (flushN_lasting ..).trans (sayFlushFail_lasting ..)
  have hstop (t : State) : (stop t).lasting = t.lasting := (evt_lasting ..).trans (withLog_lasting ..)
  have hdone : r.1.lasting = s.lasting := hfirst.trans (hreserve.trans (hclear.trans hstage))
  have hretry : q.1.lasting = s.lasting := hsecond.trans hdone
  refine lasting_ite_of hstage (lasting_ite_of ((hstop _).trans hdone) (lasting_ite_of ((hstop _).trans hretry) ?_))
  exact (flushStop_lasting _).trans ((sayFlushFail_lasting ..).trans hretry)

/-! The UMU. -/

@[simp] theorem sayUmu_lasting (s : State) (code : Half) (stamp : DWord) (p0 p1 p2 p3 : Word) :
    (s.sayUmu code stamp p0 p1 p2 p3).lasting = s.lasting := rfl

@[simp] theorem umuEnergy_lasting (s : State) (power : List Word) : (s.umuEnergy power).lasting = s.lasting := by
  unfold State.umuEnergy
  split
  · rfl
  · refine foldl_proj State.lasting _ (fun t g => ?_) _ _
    exact lasting_ite_of rfl (withUmu_lasting ..)

@[simp] theorem umuCheckpoint_lasting (s : State) (clean : Bool) : (s.umuCheckpoint clean).lasting = s.lasting := by
  unfold State.umuCheckpoint
  exact lasting_ite_of rfl rfl

@[simp] theorem umuClose_lasting (s : State) (stamp : DWord) (lost : Bool) (day : Nat) :
    (s.umuClose stamp lost day).lasting = s.lasting := by
  unfold State.umuClose
  split
  · rfl
  · exact umuCheckpoint_lasting ..

@[simp] theorem umuBill_lasting (s : State) (stamp : DWord) : (s.umuBill stamp).lasting = s.lasting := rfl

@[simp] theorem umuInput_lasting (s : State) (x : UmuIn) : (s.umuInput x).lasting = s.lasting := by
  cases x with
  | commit c p => exact lasting_ite (umuEnergy_lasting ..)
  | bill b r => rfl

theorem umuInputs_lasting (l : List UmuIn) (s : State) : (l.foldl State.umuInput s).lasting = s.lasting :=
  foldl_proj State.lasting _ umuInput_lasting l s

@[simp] theorem umuBoundaryAt_lasting (s : State) (b : DWord) (x : UmuBound) : (s.umuBoundaryAt b x).lasting = s.lasting := by
  unfold State.umuBoundaryAt
  split
  · rfl
  · refine lasting_ite_of rfl ?_
    extract_lets pre post _ s1 sec close t _ _ s2 _ _ s3 new _ s4 _
    have hinputs : s1.lasting = s.lasting := umuInputs_lasting ..
    have hclose : s2.lasting = s1.lasting := lasting_ite ((withUmu_lasting ..).trans (umuClose_lasting ..))
    have hsched : s3.lasting = s2.lasting := by
      unfold s3
      split
      · rfl
      · exact lasting_ite rfl
    have htariff : s4.lasting = s3.lasting := lasting_ite_of rfl rfl
    exact (withUmu_lasting ..).trans (htariff.trans (hsched.trans (hclose.trans hinputs)))

@[simp] theorem umuBounds_lasting (s : State) (ok : DWord → Bool) : (s.umuBounds ok).lasting = s.lasting :=
  foldl_proj State.lasting _ (fun _ _ => umuBoundaryAt_lasting ..) _ _

@[simp] theorem umuSettle_lasting (s : State) : s.umuSettle.lasting = s.lasting :=
  (umuInputs_lasting _ _).trans (umuBounds_lasting ..)

end Sys2Proof.Machine
end

section
/-! Modes: transitions, and what each request does (04 R103 to R107). -/

namespace Sys2Proof.Machine

theorem abandonBurst_mode (s : State) : s.abandonBurst.mode = s.mode := by
  unfold State.abandonBurst
  split
  · rfl
  · exact forChans_mode _ _ _ fun t n => clearChannel_mode t n false

theorem leaveService_of_ne {s : State} (h : s.mode.mode ≠ .service) : s.leaveService = s := if_neg h

theorem leaveService_mode (s : State) : s.leaveService.mode = s.mode := by
  unfold State.leaveService
  split <;> rfl

/-- A transition to a running mode: the mode it leaves is PREV, and its result is 1. -/
theorem modeGo_mode (s : State) (id : Nat) (m : Mode) :
    (s.modeGo id m).mode = { s.mode with prev := s.mode.mode, mode := m, result := 1, failed := 0 } := by
  have hburst : (if m = .protect then s.leaveService.abandonBurst else s.leaveService).mode = s.mode := by
    split <;> simp [abandonBurst_mode, leaveService_mode]
  unfold State.modeGo
  extract_lets s1 s2
  change { s2.mode with prev := s2.mode.mode, mode := m, result := 1, failed := 0 } = _
  rw [hburst]

theorem modeRps_iff (s : State) : s.modeRps = true ↔ s.mode.mode = .ready ∨ s.mode.mode = .protect ∨ s.mode.mode = .service := by
  simp [State.modeRps, or_assoc]

/-- A transition to another running mode than Protect leaves Service if it comes from there, and writes MODE_CHANGE. -/
theorem modeGo_of_ne_protect (s : State) (id : Nat) {m : Mode} (hm : m ≠ .protect) :
    s.modeGo id m =
      let t := s.leaveService
      State.say { t with mode := { t.mode with mode := m, prev := t.mode.mode, result := 1, failed := 0 } } .mode 0x0001
        (BitVec.ofNat 32 id) (BitVec.ofNat 32 t.mode.mode.code) (BitVec.ofNat 32 m.code) (t.mode.seq.setWidth 32) := by
  simp only [State.modeGo, if_neg hm]
  rfl

/-! Requests. -/

/-- A request counted in SEQ. -/
def State.counted (s : State) : State := { s with mode := { s.mode with seq := s.mode.seq + 1 } }

@[simp] theorem counted_mode_mode (s : State) : s.counted.mode.mode = s.mode.mode := rfl

theorem modeRefuse_counted (s : State) (req r : Nat) :
    s.counted.modeRefuse req r 0 =
      (s.requested (BitVec.ofNat 3 r)).say .mode 0x0002 (BitVec.ofNat 32 req) (BitVec.ofNat 32 r) 0 ((s.mode.seq + 1).setWidth 32) := rfl

section
variable {s : State} (hon : s.regsOn = true)
include hon

/-- 6 and 7 name no mode, and no running mode has their code. -/
theorem modeReq_beyond (req : BitVec 1) : s.modeReq (6 + req.toNat) = s.counted.modeRefuse (6 + req.toNat) 3 0 := by
  have hcode : 6 + req.toNat ≠ s.mode.mode.code := by cases s.mode.mode <;> simp [Mode.code] <;> omega
  have hreq : 5 < 6 + req.toNat := by omega
  simp [State.modeReq, State.counted, hon, hcode, hreq]

variable (hst : s.mode.starting = false)
include hst

theorem modeReq_safe (hm : s.modeRps = true) : s.modeReq 5 = (s.requested 5).withSafeCauseFree 19 := by
  rw [← latchOpen_eq, show s.requested 5 = s.counted.modeRes 5 0 from rfl]
  rcases (modeRps_iff s).1 hm with h | h | h <;> simp [State.modeReq, State.counted, State.modeRps, hon, hst, h, Mode.code]

variable (hm9 : s.mode.m9 = none)
include hm9

theorem modeReq_service (hm : s.mode.mode = .ready) :
    s.modeReq 4 =
      if s.key.authValid && !s.key.authBusy then s.counted.modeGo 7 .service else s.counted.modeRefuse 4 4 0 := by
  simp [State.modeReq, State.counted, State.modeRps, hon, hst, hm, hm9, Mode.code]

theorem modeReq_ready_of_service (hm : s.mode.mode = .service) : s.modeReq 2 = s.counted.modeGo 8 .ready := by
  simp [State.modeReq, State.counted, State.modeRps, hon, hst, hm, hm9, Mode.code]

theorem modeReq_ready_of_protect (hm : s.mode.mode = .protect) : s.modeReq 2 = s.counted.gateClose.modeGo 6 .ready := by
  simp [State.modeReq, State.counted, State.modeRps, hon, hst, hm, hm9, Mode.code]

theorem modeReq_protect (hm : s.mode.mode = .ready) :
    s.modeReq 3 = { s.requested 5 with mode := { (s.requested 5).mode with m5 := true } } := by
  simp [State.modeReq, State.modeRes, State.requested, State.modeRps, hon, hst, hm, hm9, Mode.code]

/-- A request for Dormant or Sentry ends scanning and begins M9. -/
theorem modeReq_down {req : Nat} (hreq : req < 2) (hm : s.mode.mode = .ready ∨ s.mode.mode = .service) :
    s.modeReq req =
      let u := (s.requested 5).abandonBurst
      { u with mode := { u.mode with m9 := some (req == 1), m5 := false }, scan := { u.scan with run := false } } := by
  have h2 : req ≠ 2 := by omega
  have h3 : req ≠ 3 := by omega
  have h4 : req ≠ 4 := by omega
  have h5 : req ≠ 5 := by omega
  have hle : ¬5 < req := by omega
  rcases hm with hm | hm <;>
    simp [State.modeReq, State.modeRes, State.requested, State.modeRps, hon, hst, hm, hm9, hreq, h2, h3, h4, h5, hle, Mode.code]

end

end Sys2Proof.Machine
end

section
/-! The guard sample, the sequences of M9 and of the reset pin, the start-up limit (04 R104, R106, R108, R113, R130). -/

namespace Sys2Proof.Machine

/-! The guard sample of M5. -/

section
variable {s : State} (hon : s.regsOn = true) (hm5 : s.mode.m5 = true) (hm : s.mode.mode = .ready)
include hon hm5 hm

/-- With all four guards true Protect begins, and what it does not allow ends; else the request is refused and names the false guards
(R104). -/
theorem guardSample_of_request :
    s.guardSample =
      let t := { s with mode := { s.mode with m5 := false } }
      if s.guards = 15 then (t.modeGo 5 .protect).tapProtect.endHalt else t.modeRefuse 3 2 (~~~s.guards) := by
  simp [State.guardSample, hon, hm5, hm]

end

/-! The core die goes down. -/

@[simp] theorem putSu_lasting (s : State) (u : Fin 2) (x : SntUart) : (s.putSu u x).lasting = s.lasting := rfl
@[simp] theorem setIp_lasting (s : State) (i : Nat) : (s.setIp i).lasting = s.lasting := rfl

@[simp] theorem suOwner_lasting (s : State) (u : Fin 2) (core : Bool) : (s.suOwner u core).lasting = s.lasting := by
  simp [State.suOwner, State.sntEv]

@[simp] theorem wntCoreDown_lasting (s : State) : s.wntCoreDown.lasting = s.lasting := by
  unfold State.wntCoreDown
  extract_lets _ s1 s2
  have huart : s2.lasting = s1.lasting :=
    foldl_proj State.lasting _ (fun t u => (lasting_ite (suOwner_lasting ..)).trans (putSu_lasting ..)) _ _
  exact (setIp_lasting ..).trans huart

/-- The power-down of the core die leaves the mode, the vault and the lock state. -/
theorem coreDown_keeps (s : State) :
    s.coreDown.mode.mode = s.mode.mode ∧ s.coreDown.mode.pf = s.mode.pf ∧ s.coreDown.key.vault = s.key.vault ∧
      s.coreDown.dbg.lock = s.dbg.lock := by
  have h : s.umuDown.wntCoreDown.lasting = s.lasting := wntCoreDown_lasting _
  have hmode := mode_of_lasting h
  have hvault := vault_of_lasting h
  have hlock := lock_of_lasting h
  have hpf := pf_of_lasting h
  exact ⟨hmode, hpf, hvault, hlock⟩

theorem downTo_of_ne_safe {s : State} (sentry : Bool) (h : s.mode.mode ≠ .safe) :
    s.downTo sentry = s.coreDown.toMode (if sentry then .sentry else .dormant) := by
  obtain ⟨hmode, -⟩ := coreDown_keeps s
  exact if_neg (by rwa [hmode])

/-! M9. -/

theorem recLost_order (s : State) (n : Fin 8) (recNo reason : Word) : (s.recLost n recNo reason).recd.order = s.recd.order := by
  unfold State.recLost
  split <;> rfl

theorem recDiscard_order (s : State) (reason : Word) : (s.recDiscard reason).recd.order = s.recd.order := by
  unfold State.recDiscard
  split
  · rfl
  · split
    · exact recLost_order ..
    · rfl

/-- No slot seals as those that still capture are discarded. -/
theorem dropCaptures_order {s : State} (h : s.recd.order = []) : s.dropCaptures.recd.order = [] := by
  unfold State.dropCaptures
  refine foldl_keeps (fun t : State => t.recd.order = []) _ (fun t n ht => ?_) _ _ ((recDiscard_order ..).trans h)
  dsimp only
  split
  · exact (recLost_order ..).trans ht
  · exact ht

/-- With no scan in progress and no sealed record left to drain, the sequence of M9 runs to its power-down (R108). -/
theorem dormantEntry_to_powerDown {s : State} {sentry : Bool} (hm9 : s.mode.m9 = some sentry) (hon : s.regsOn = true)
    (hrps : s.modeRps = true) (hscan : s.core.scan = false) (hcom : s.scan.commit = none) (hredo : s.scan.redo = false)
    (hphase : s.scan.phase = .idle) (horder : s.recd.order = []) :
    ∃ u : State, u.lasting = s.lasting ∧ s.dormantEntry = u.downTo sentry := by
  have hdrained : s.dropCaptures.recd.order = [] := dropCaptures_order horder
  let said := s.dropCaptures.leaveService.abandonBurst.finishJobs.say .mode 0x0001 9 (BitVec.ofNat 32 s.mode.mode.code)
    (if sentry then 1 else 0) (s.mode.seq.setWidth 32)
  refine ⟨said.flushAll.umuSettle.umuCheckpoint true, by simp [said], ?_⟩
  simp [State.dormantEntry, hm9, hon, hrps, hscan, hcom, hredo, hphase, hdrained, said]

/-! The reset pin. -/

/-- RST_N takes the core die down in whatever mode it finds, a power-fail sequence being cut (R106). -/
theorem rstN_to_powerDown {s : State} (hon : s.mode.coreOn = true) :
    ∃ u : State, u.mode.mode = s.mode.mode ∧ u.mode.pf = false ∧
      s.rstN = { u.coreDown with mode := { u.coreDown.mode with rstStart := true } } := by
  let s0 : State := { s with mode := { s.mode with pf := false },
                             pwr := if s.mode.pf then { s.pwr with lastFlush := 3 } else s.pwr }
  let u : State := (s0.abandonBurst.recPowerLost).umuSettle.umuCheckpoint true
  have hu : u.lasting = s0.lasting := by simp [u]
  have hmode : u.mode.mode = s0.mode.mode := mode_of_lasting hu
  have hpf : u.mode.pf = s0.mode.pf := pf_of_lasting hu
  refine ⟨u, hmode, hpf, ?_⟩
  simp [State.rstN, hon, u, s0]

/-! The start-up limit and the reset request. -/

/-- A cold start that has not reached step 13 after 500 ms latches START_TO, once (R130). -/
theorem startTo_late {s : State} (hst : s.mode.starting = true) (h13 : s.mode.past13 = false) (hm : s.mode.mode = .ready)
    (hkind : s.mode.kindWarm = false) (hlate : 500000 ≤ s.startUsNow) (hdue : s.safeDue 24 = false) :
    s.startTo = State.latchOpen { s with mode := { s.mode with run := none } } 24 :=
  if_pos (by simp [hst, h13, hm, hkind, hlate, hdue])

/-- SYS_RESET_REQ latches cause 1 with its key and its bit, and does nothing without one of them (R113). -/
theorem resetReq_of_running {s : State} (v : Word) (hon : s.regsOn = true) (hrps : s.modeRps = true) :
    s.resetReq v = if fld v 16 16 = (0x5A3C : Half) ∧ bit v 0 = true then s.latchWarm 1 else s := by
  simp [State.resetReq, hon, hrps]

end Sys2Proof.Machine
end

section
/-! Safe entered while a commit completes (04 R122, 02 R56, 09 R242, R250). -/

namespace Sys2Proof.Machine

/-! The end of a commit. -/

theorem freeWords_mode (n : Nat) (s : State) : (State.freeWords n s).2.mode = s.mode := by
  induction n generalizing s with
  | zero => rfl
  | succ n ih => exact ih _

theorem frameDesc_mode (s : State) (f : Word) (d : Nat) : (s.frameDesc f d).mode = s.mode := by
  unfold State.frameDesc
  split <;> rfl

theorem toHandler_mode (s : State) (d : Nat) (x : Desc) (f k28 : Word) (level : BitVec 4) (cwp : BitVec 3) :
    (s.toHandler d x f k28 level cwp).mode = s.mode := rfl

theorem cycles_mode (s : State) (n : Nat) : (s.cycles n).mode = s.mode := rfl

theorem returnTo_mode (s : State) (f k28 : Word) (scan : Bool) : (s.returnTo f k28 scan).mode = s.mode := by
  have hframe : (s.frameAt f).2.mode = s.mode := by
    unfold State.frameAt
    split
    · rfl
    · exact freeWords_mode 8 s
  unfold State.returnTo
  generalize s.frameAt f = r at hframe ⊢
  extract_lets ws t w c cwp old act _ c1 next chained c2
  clear_value chained c2 c1
  split
  · exact (cycles_mode ..).trans ((toHandler_mode ..).trans ((frameDesc_mode ..).trans hframe))
  · exact (cycles_mode ..).trans hframe

theorem resumeScan_mode (s : State) : s.resumeScan.mode = s.mode := returnTo_mode ..

/-- The stores that a scan has deferred are all that can change the mode as its commit completes. -/
theorem commitFinish_mode {s : State} {c : CommitSt} (hcom : s.scan.commit = some c) (happ : c.applied = true) (hrun : s.running = true) :
    ∃ f, s.commitFinish.mode = (s.withCore f).releaseStores.mode := by
  unfold State.commitFinish
  split
  next h => cases hcom.symm.trans h
  next _ h =>
    cases hcom.symm.trans h
    rw [if_neg (by simp [happ, hrun])]
    extract_lets lim s1 s2 s3
    have hstores : s3.mode = s1.releaseStores.mode := by simp [s3, s2]
    exact ⟨_, (resumeScan_mode _).trans hstores⟩

/-- A deferred write of SYS_MODE_REQ is a mode request when it is released. -/
theorem releaseStores_modeReq {s : State} {v : Word} (h : s.scan.deferred = [{ size := 4, addr := 0x40000014, value := v }]) :
    s.releaseStores = State.modeReq { s with scan := { s.scan with deferred := [] } } (fldN v 0 3) := by
  have hstore (t : State) : t.storeNow .core true 4 0x40000014 v = t.modeReq (fldN v 0 3) := by
    obtain ⟨r, hrow⟩ := Option.ne_none_iff_exists'.1 (regRow_ne_none t (o := 0x14) (by decide) (by decide))
    exact (storeNow_register t .core true 4 v (o := 0x14) (by decide) hrow).trans rfl
  simp only [State.releaseStores, h, List.foldl_cons, List.foldl_nil]
  exact hstore _

/-! The entry to Safe keeps as PREV the mode that it finds once an applied commit has completed. -/

@[simp] theorem recSeal_lasting (s : State) (c : RecCfg) (n : Fin 8) : (s.recSeal c n).lasting = s.lasting := rfl

@[simp] theorem recTrigger_lasting (s : State) (c : RecCfg) (n : Fin 8) (fired : BitVec 4) (cause : Word) (safe : Bool) :
    (s.recTrigger c n fired cause safe).lasting = s.lasting := by
  unfold State.recTrigger
  extract_lets x before pre no flags y _ s1 s2 s3
  have hlost : s2.lasting = s1.lasting := lasting_ite_of rfl rfl
  have hseal : s3.lasting = s2.lasting := lasting_ite (recSeal_lasting ..)
  exact (say_lasting ..).trans (hseal.trans hlost)

@[simp] theorem recSafe_lasting (s : State) : s.recSafe.lasting = s.lasting := by
  unfold State.recSafe
  split
  · exact lasting_ite (recTrigger_lasting ..)
  · rfl

@[simp] theorem canInit_lasting (s : State) (k : Fin 2) : (s.canInit k).lasting = s.lasting := by
  unfold State.canInit State.canCtl
  extract_lets c s1
  exact lasting_ite_of rfl (lasting_ite_of rfl (lasting_ite_of rfl rfl))

@[simp] theorem ifcSafe_lasting (s : State) : s.ifcSafe.lasting = s.lasting := by
  have hcan : ((s.canInit 0).canInit 1).lasting = s.lasting := by simp
  exact hcan

/-- An applied commit completes before Safe takes the mode. -/
theorem safeEnter_prev {s : State} {k : CommitSt} (hcom : s.scan.commit = some k) (happ : k.applied = true) (c : Nat) (mask : Word) :
    (s.safeEnter c mask).mode.prev = s.commitFinish.mode.mode := by
  unfold State.safeEnter
  extract_lets t s0 s1 _ _ _ _ _ _ _ s2
  have ht : t = s.commitFinish := by simp only [t, hcom, happ, if_true]
  have hrest : (s2.recSafe.ifcSafe.finishJobs.stageAll.flushTrigger).lasting = s2.lasting := by simp
  have hmode : s0.mode = t.mode := by simp [s0, gateClose_mode, abandonBurst_mode, leaveService_mode]
  have hprev : s2.mode.prev = s0.mode.mode := rfl
  rw [prev_of_lasting hrest, hprev, hmode, ht]

theorem coreDown_prev (s : State) : s.coreDown.mode.prev = s.mode.prev := by
  have h : s.umuDown.wntCoreDown.lasting = s.lasting := wntCoreDown_lasting _
  have hprev := prev_of_lasting h
  exact hprev

theorem safeDown_prev (s : State) : s.safeDown.mode.prev = s.mode.prev := by
  unfold State.safeDown
  split
  · rfl
  · exact (coreDown_prev _).trans (prev_of_lasting (by simp))

theorem safeAdd_prev (s : State) : s.safeAdd.mode.prev = s.mode.prev := by
  unfold State.safeAdd
  extract_lets s1 last s2
  have hmask : s1.mode.prev = s.mode.prev := by
    refine foldl_keeps (fun t : State => t.mode.prev = s.mode.prev) _ (fun t x ht => ?_) _ _ rfl
    split
    · exact ht
    · exact ht
  split
  · exact (safeDown_prev _).trans hmask
  · exact hmask

/-- With one cause pending, PREV is the mode in which an applied commit leaves the part. -/
theorem safeEntry_prev {s : State} {x : Nat × Word × DWord} {k : CommitSt} (hpend : s.mode.safePend = [x]) (hm : s.mode.mode ≠ .safe)
    (hm5 : s.mode.m5 = false) (hcom : s.scan.commit = some k) (happ : k.applied = true) :
    ∃ e, s.safeEntry.mode.prev = (s.offer e).commitFinish.mode.mode := by
  unfold State.safeEntry
  split
  next h => cases hpend.symm.trans h
  next y rest h =>
    cases hpend.symm.trans h
    rw [if_neg hm]
    extract_lets same pri mask later s1 _ s2 s3
    clear_value pri mask
    have hsay : s.safeSay pri.1 mask pri.2.1 = s.offer (s.entry .mode 0x0004 (BitVec.ofNat 32 pri.1) mask pri.2.1 0) := by
      simp only [State.safeSay, hm5]
      rfl
    have hcom' : (s.safeSay pri.1 mask pri.2.1).scan.commit = some k := by rwa [hsay]
    have hentry := safeEnter_prev hcom' happ pri.1 mask
    have hs1 : s1 = (s.safeSay pri.1 mask pri.2.1).safeEnter pri.1 mask := rfl
    rw [← hs1, hsay] at hentry
    clear_value s1
    have hadd : s3.mode.prev = s1.mode.prev := safeAdd_prev s2
    refine ⟨_, Eq.trans ?_ (hadd.trans hentry)⟩
    split
    · exact safeDown_prev s3
    · rfl

/-- Where a scan in Protect has deferred a request for Ready, an applied commit takes the part to Ready (M6) before Safe takes it: PREV is
Ready, not Protect. -/
theorem safeEntry_prev_of_deferredReady {s : State} {x : Nat × Word × DWord} {k : CommitSt} (hpend : s.mode.safePend = [x])
    (hm : s.mode.mode = .protect) (hon : s.regsOn = true) (hst : s.mode.starting = false) (hm9 : s.mode.m9 = none)
    (hm5 : s.mode.m5 = false) (hcom : s.scan.commit = some k) (happ : k.applied = true)
    (hdef : s.scan.deferred = [{ size := 4, addr := 0x40000014, value := 2 }]) : s.safeEntry.mode.prev = .ready := by
  obtain ⟨e, hprev⟩ := safeEntry_prev hpend (by simp [hm]) hm5 hcom happ
  have hrun : (s.offer e).running = true := by
    have hcore : s.mode.coreOn = true := by simp_all [State.regsOn]
    simp [State.running, hm, hcore]
  obtain ⟨f, hfinish⟩ := commitFinish_mode (s := s.offer e) hcom happ hrun
  let t : State := { (s.offer e).withCore f with scan := { s.scan with deferred := [] } }
  have hword : fldN (2 : Word) 0 3 = 2 := by decide
  have hreq : ((s.offer e).withCore f).releaseStores = t.modeReq 2 := by
    rw [releaseStores_modeReq (s := (s.offer e).withCore f) hdef, hword]
    rfl
  have hmode : (t.modeReq 2).mode.mode = .ready := by
    rw [modeReq_ready_of_protect (s := t) hon hst hm9 hm, modeGo_mode]
  rw [hprev, hfinish, hreq, hmode]

end Sys2Proof.Machine
end

section
/-! The statements of the modes, starts and Safe (04). -/

namespace Sys2Proof.Machine

/-- Settles O2: each request by the one transition, sequence or refusal that its mode leaves open. -/
theorem modeRequestsTakeEffect : Obligations.ModeRequestsTakeEffect := by
  refine ⟨fun s req hon => next_regCmd hon ?beyond, fun s hon hst hm => next_regCmd hon ?safe,
    fun s hon hst hm hm9 hv hb => next_regCmd hon ?granted, fun s hon hst hm hm9 h => next_regCmd hon ?refused,
    fun s hon hst hm hm9 => next_regCmd hon ?ready, fun s hon hst hm hm9 => next_regCmd hon ?opens,
    fun s hon hst hm hm9 => next_regCmd hon (modeReq_protect hon hst hm9 hm),
    fun s hon hst hm hm9 => next_regCmd hon (modeReq_down hon hst hm9 (by decide) hm),
    fun s hon hst hm hm9 => next_regCmd hon (modeReq_down hon hst hm9 (by decide) hm)⟩
  case beyond =>
    have hreq : BitVec.ofNat 32 (6 + req.toNat) = 6 + req.setWidth 32 := by bv_omega
    rw [modeReq_beyond hon req, modeRefuse_counted, hreq]
    rfl
  case safe => exact modeReq_safe hon hst hm
  case granted =>
    rw [modeReq_service hon hst hm9 hm, if_pos (by simp [hv, hb]), modeGo_of_ne_protect _ _ (by decide),
      leaveService_of_ne (by simp [hm])]
    simp [State.counted, State.requested, hm, Mode.code]
  case refused =>
    rw [modeReq_service hon hst hm9 hm, if_neg (by rcases h with h | h <;> simp [h]), modeRefuse_counted]
    rfl
  case ready =>
    have hleave : s.counted.leaveService = { s.counted.stageShut with key := { s.key with authValid := false } } := if_pos hm
    rw [modeReq_ready_of_service hon hst hm9 hm, modeGo_of_ne_protect _ _ (by decide), hleave]
    simp [State.counted, State.stageShut, State.requested, hm, Mode.code]
  case opens =>
    have hmode : s.counted.gateClose.mode = s.counted.mode := gateClose_mode _
    rw [modeReq_ready_of_protect hon hst hm9 hm, modeGo_of_ne_protect _ _ (by decide),
      leaveService_of_ne (by simp [hmode, hm])]
    rfl

/-- Settles O3: the guard sample by its guards, M9 and the reset pin by the power-down that they come to, the rest by their one path. -/
theorem guardSampleAndModeSequencesTakeEffect : Obligations.GuardSampleAndModeSequencesTakeEffect := by
  refine ⟨fun s hon hm5 hm hg => ?granted, fun s hon hm5 hm hg => congrArg Host.Outcome.next ?refused,
    fun s sentry hm9 hon hrps hsafe hscan hcom hredo hphase horder => ?m9, fun s hon => ?pin,
    fun s hst h13 hm hkind hlate hdue => congrArg Host.Outcome.next (startTo_late hst h13 hm hkind hlate hdue),
    fun s v hon hrps hreq => ⟨fun hk hv => next_regCmd hon ?key, fun hk => next_regCmd hon ?noKey⟩⟩
  case granted =>
    refine ⟨_, congrArg Host.Outcome.next ((guardSample_of_request hon hm5 hm).trans (if_pos hg)), ?_⟩
    simp [endHalt_mode, tapProtect_mode, modeGo_mode, hm]
  case refused => exact (guardSample_of_request hon hm5 hm).trans (if_neg hg)
  case m9 =>
    obtain ⟨u, hu, hrun⟩ := dormantEntry_to_powerDown hm9 hon hrps hscan hcom hredo hphase horder
    have hne : u.mode.mode ≠ .safe := by rwa [mode_of_lasting hu]
    obtain ⟨-, -, hvault, hlock⟩ := coreDown_keeps u
    refine ⟨_, congrArg Host.Outcome.next (hrun.trans (downTo_of_ne_safe sentry hne)), rfl, rfl, rfl, rfl, rfl, rfl, ?_, ?_⟩
    · exact hvault.trans (vault_of_lasting hu)
    · exact hlock.trans (lock_of_lasting hu)
  case pin =>
    obtain ⟨u, humode, hupf, hrun⟩ := rstN_to_powerDown hon
    obtain ⟨hmode, hpf, -⟩ := coreDown_keeps u
    exact ⟨_, congrArg Host.Outcome.next hrun, hmode.trans humode, hpf.trans hupf, rfl, rfl, rfl, rfl⟩
  case key =>
    rw [resetReq_of_running v hon hrps, if_pos ⟨hk, hv⟩, State.latchWarm, hreq]
  case noKey =>
    have hneither : ¬(fld v 16 16 = (0x5A3C : Half) ∧ bit v 0 = true) :=
      fun h => hk.elim (fun hn => hn h.1) (fun hn => by simp [hn] at h)
    rw [resetReq_of_running v hon hrps, if_neg hneither]

/-- Protect between the apply tick of a commit and its completion: the scan has deferred a store of 2 (Ready) to SYS_MODE_REQ, and a Safe
cause has just been latched. -/
def safeWithDeferredReady : State :=
  { State.reset with
    mode := { ModeSt.reset with mode := .protect, coreOn := true, past13 := true, safePend := [(3, 0, 0)] }
    scan := { ScanSt.reset with
      run := true, phase := .commit, commit := some { dt := 0, issue := 0, applied := true }
      deferred := [{ size := 4, addr := 0x40000014, value := 2 }] } }

/-- Refutes O4: SAFE_ENTRY lets an applied commit complete first, and a mode request among that commit's deferred stores changes the mode,
so PREV is not the mode that the command met. -/
theorem not_startsAndSafeTakeEffect : ¬ Obligations.StartsAndSafeTakeEffect := by
  rintro ⟨-, -, hsafe, -⟩
  obtain ⟨t, hrun, -, hprev, -⟩ := hsafe safeWithDeferredReady 3 0 0 rfl (by decide) (by decide) (by decide) (by decide) (by decide)
    (by decide)
  have hready : safeWithDeferredReady.safeEntry.mode.prev = .ready :=
    safeEntry_prev_of_deferredReady rfl rfl rfl rfl rfl rfl rfl rfl rfl
  have ht : t = safeWithDeferredReady.safeEntry := (Host.Outcome.next.inj hrun).symm
  rw [ht, hready] at hprev
  exact absurd hprev (by decide)

end Sys2Proof.Machine
end

section
/-! Die temperature (05 R147 to R149, R153): what a frame counts, and what each qualified crossing does. -/

namespace Sys2Proof.Machine

/-- Bit i of a word set to the value that it has. -/
theorem setBit_of_getLsbD {w : Nat} {x : BitVec w} {i : Nat} {b : Bool} (hi : i < w) (h : x.getLsbD i = b) : setBit x i b = x := by
  ext j hj
  cases b <;> by_cases hij : j = i <;> simp_all [setBit]

/-- A frame counts each of the qualifications of a sensor on, or starts it anew (R147). -/
theorem temps_counts (p : PwrSt) (a b c : Byte) (n : Fin 3) :
    let q := p.temps a b c
    let x := (if n.val = 0 then a else if n.val = 1 then b else c).toNat
    q.tHigh[n] = runOf p.tHigh[n] (decide (199 < x)) ∧ q.tLow[n] = runOf p.tLow[n] (decide (x ≤ 194)) ∧
      q.tShut[n] = runOf p.tShut[n] (decide (214 < x)) := by
  match n with
  | 0 | 1 | 2 => simp [PwrSt.temps]

section
variable {s : State} {n : Fin 3} (hon : s.mode.coreOn = true)
include hon

theorem tempWarn_first (hhigh : 8 ≤ s.pwr.tHigh[n]) (hwarn : s.pwr.twarn.getLsbD n.val = false) :
    s.tempWarn n = (State.evt { s with pwr := { s.pwr with twarn := setBit s.pwr.twarn n.val true } } R.pwrEvt 0).say .therm 0x1010
      (BitVec.ofNat 32 n.val) (degC (s.pwr.reading n)) 0 0 :=
  if_pos (by simp only [hon, hwarn, hhigh, decide_true, Bool.not_false, Bool.and_self])

theorem tempClear_first (hlow : 8 ≤ s.pwr.tLow[n]) (hwarn : s.pwr.twarn.getLsbD n.val = true) :
    s.tempClear n = (State.evt { s with pwr := { s.pwr with twarn := setBit s.pwr.twarn n.val false } } R.pwrEvt 1).say .therm 0x1011
      (BitVec.ofNat 32 n.val) (degC (s.pwr.reading n)) 0 0 :=
  if_pos (by simp only [hon, hwarn, hlow, decide_true, Bool.and_self])

/-- The warning of a sensor is set whenever it is qualified, whether it was set before or not. -/
theorem tempWarn_pwr : (s.tempWarn n).pwr =
    if 8 ≤ s.pwr.tHigh[n] then { s.pwr with twarn := setBit s.pwr.twarn n.val true } else s.pwr := by
  by_cases hhigh : 8 ≤ s.pwr.tHigh[n]
  · cases hwarn : s.pwr.twarn.getLsbD n.val
    case false => rw [if_pos hhigh, tempWarn_first hon hhigh hwarn]; rfl
    case true =>
      have hset : s.tempWarn n = s := if_neg (by simp [hwarn, -BitVec.getLsbD_eq_getElem])
      rw [if_pos hhigh, hset, setBit_of_getLsbD n.isLt hwarn]
  · have hnone : s.tempWarn n = s := if_neg (by simp only [hhigh, decide_false, Bool.and_false, Bool.false_eq_true, not_false_eq_true])
    rw [if_neg hhigh, hnone]

variable (hdue : s.safeDue 12 = false)
include hdue

/-- A shutdown crossing warns where that is due, then reports and latches THERMAL (R149, Table PWR-9). -/
theorem tempShutdown_crossing (hshut : 8 ≤ s.pwr.tShut[n]) :
    s.tempShutdown n = ((s.tempWarn n).say .therm 0x1012 (BitVec.ofNat 32 n.val) (degC (s.pwr.reading n)) 0 0).latchSafe 12
      (BitVec.ofNat 32 n.val) := by
  simp only [State.tempShutdown, hon, hdue, if_pos hshut, Bool.not_true, Bool.or_self, Bool.false_eq_true, if_false]

/-- A sensor that reads outside its range latches THERMAL alone (R153). -/
theorem tempShutdown_outOfRange (hshut : s.pwr.tShut[n] < 8) (hout : 8 ≤ s.pwr.tOut[n]) :
    s.tempShutdown n = s.latchSafe 12 (BitVec.ofNat 32 n.val) := by
  simp only [State.tempShutdown, hon, hdue, if_neg (Nat.not_le.2 hshut), if_pos hout, Bool.not_true, Bool.or_self,
    Bool.false_eq_true, if_false]

end

/-- A warning touches neither the mode nor the time, the core or the memories. -/
theorem tempWarn_keeps (s : State) (n : Fin 3) :
    (s.tempWarn n).mode = s.mode ∧ (s.tempWarn n).time = s.time ∧ (s.tempWarn n).core = s.core ∧ (s.tempWarn n).mem = s.mem := by
  unfold State.tempWarn
  split <;> simp

/-- Settles O15 by the crossing of each kind; a shutdown crossing keeps what its warning keeps. -/
theorem temperatureCrossingsTakeEffect : Obligations.TemperatureCrossingsTakeEffect := by
  intro s n hon deg
  refine ⟨fun hhigh hwarn => congrArg Host.Outcome.next (tempWarn_first hon hhigh hwarn),
    fun hlow hwarn => congrArg Host.Outcome.next (tempClear_first hon hlow hwarn), fun hshut hdue => ?shutdown,
    fun hshut hout hdue => congrArg Host.Outcome.next (tempShutdown_outOfRange hon hdue hshut hout),
    fun a b c => by simpa only [runOf, decide_eq_true_eq] using temps_counts s.pwr a b c n⟩
  case shutdown =>
    obtain ⟨hmode, htime, hcore, hmem⟩ := tempWarn_keeps s n
    refine ⟨_, congrArg Host.Outcome.next (tempShutdown_crossing hon hdue hshut), ?_, tempWarn_pwr hon, hcore, hmem,
      (s.tempWarn n).entry .therm 0x1012 (BitVec.ofNat 32 n.val) (degC (s.pwr.reading n)) 0 0, List.getLast?_concat, rfl, rfl, rfl, rfl⟩
    simp [hmode, htime]

end Sys2Proof.Machine
end

section
/-! What the operations of the UMU and of the staging change: the records that the part keeps of itself, and nothing else (11 R296, R297,
17 R491 to R498). -/

namespace Sys2Proof.Machine

/-- The part without its records: the UMU, the log, the stored registers with their event bits. -/
def State.withoutRecords (s : State) : State := { s with umu := UmuSt.reset, log := LogSt.reset, regs := [] }

theorem withoutRecords_ite {c : Prop} [Decidable c] {a b s : State} (ha : a.withoutRecords = s.withoutRecords)
    (hb : b.withoutRecords = s.withoutRecords) : (if c then a else b).withoutRecords = s.withoutRecords := by
  split
  · exact ha
  · exact hb

/-- A change of the records alone keeps the rest. -/
theorem keeps_of_withoutRecords {s t : State} (h : t.withoutRecords = s.withoutRecords) :
    t.mode = s.mode ∧ t.pwr = s.pwr ∧ t.fab = s.fab ∧ t.scan = s.scan :=
  ⟨congrArg (fun x => x.mode) h, congrArg (fun x => x.pwr) h, congrArg (fun x => x.fab) h, congrArg (fun x => x.scan) h⟩

theorem withUmu_withoutRecords (s : State) (u : UmuSt) : ({ s with umu := u } : State).withoutRecords = s.withoutRecords := rfl

theorem evt_withoutRecords (s : State) (o i : Nat) : (s.evt o i).withoutRecords = s.withoutRecords := rfl

theorem sayUmu_withoutRecords (s : State) (code : Half) (stamp : DWord) (p0 p1 p2 p3 : Word) :
    (s.sayUmu code stamp p0 p1 p2 p3).withoutRecords = s.withoutRecords := rfl

/-! The UMU. -/

@[simp] theorem umuEnergy_withoutRecords (s : State) (power : List Word) :
    (s.umuEnergy power).withoutRecords = s.withoutRecords := by
  unfold State.umuEnergy
  split
  · rfl
  · refine foldl_proj State.withoutRecords _ (fun t g => ?_) _ _
    exact withoutRecords_ite rfl (withUmu_withoutRecords ..)

@[simp] theorem umuCheckpoint_withoutRecords (s : State) (clean : Bool) :
    (s.umuCheckpoint clean).withoutRecords = s.withoutRecords := by
  unfold State.umuCheckpoint
  exact withoutRecords_ite rfl rfl

@[simp] theorem umuClose_withoutRecords (s : State) (stamp : DWord) (lost : Bool) (day : Nat) :
    (s.umuClose stamp lost day).withoutRecords = s.withoutRecords := by
  unfold State.umuClose
  split
  · rfl
  · exact umuCheckpoint_withoutRecords ..

@[simp] theorem umuInput_withoutRecords (s : State) (x : UmuIn) : (s.umuInput x).withoutRecords = s.withoutRecords := by
  cases x with
  | commit c p => exact withoutRecords_ite (umuEnergy_withoutRecords ..) rfl
  | bill b r => rfl

theorem umuInputs_withoutRecords (l : List UmuIn) (s : State) : (l.foldl State.umuInput s).withoutRecords = s.withoutRecords :=
  foldl_proj State.withoutRecords _ umuInput_withoutRecords l s

@[simp] theorem umuBoundaryAt_withoutRecords (s : State) (b : DWord) (x : UmuBound) :
    (s.umuBoundaryAt b x).withoutRecords = s.withoutRecords := by
  unfold State.umuBoundaryAt
  split
  · rfl
  · refine withoutRecords_ite rfl ?_
    extract_lets pre post _ s1 sec close t _ _ s2 _ _ s3 new _ s4 _
    have hinputs : s1.withoutRecords = s.withoutRecords := umuInputs_withoutRecords ..
    have hclose : s2.withoutRecords = s1.withoutRecords :=
      withoutRecords_ite ((withUmu_withoutRecords ..).trans (umuClose_withoutRecords ..)) rfl
    have hsched : s3.withoutRecords = s2.withoutRecords := by
      unfold s3
      split
      · rfl
      · exact withoutRecords_ite rfl rfl
    have htariff : s4.withoutRecords = s3.withoutRecords :=
      withoutRecords_ite rfl ((evt_withoutRecords ..).trans ((sayUmu_withoutRecords ..).trans (withUmu_withoutRecords ..)))
    exact (withUmu_withoutRecords ..).trans (htariff.trans (hsched.trans (hclose.trans hinputs)))

theorem umuBounds_withoutRecords (s : State) (ok : DWord → Bool) : (s.umuBounds ok).withoutRecords = s.withoutRecords :=
  foldl_proj State.withoutRecords _ (fun _ _ => umuBoundaryAt_withoutRecords ..) _ _

theorem umuDrain_withoutRecords (s : State) : s.umuDrain.withoutRecords = s.withoutRecords :=
  (umuInputs_withoutRecords ..).trans (withUmu_withoutRecords ..)

@[simp] theorem umuPowerFail_withoutRecords (s : State) (p : DWord) : (s.umuPowerFail p).withoutRecords = s.withoutRecords := by
  unfold State.umuPowerFail
  refine withoutRecords_ite rfl ?_
  extract_lets s1 s2
  have hinputs : s1.withoutRecords = s.withoutRecords := (umuDrain_withoutRecords _).trans (umuBounds_withoutRecords ..)
  have hclose : s2.withoutRecords = s1.withoutRecords := withoutRecords_ite (umuClose_withoutRecords ..) rfl
  exact (withUmu_withoutRecords ..).trans (hclose.trans hinputs)

/-! Staging. -/

@[simp] theorem flushTrigger_withoutRecords (s : State) : s.flushTrigger.withoutRecords = s.withoutRecords := by
  rcases flushTrigger_cases s with h | h | h <;> rw [h] <;> rfl

@[simp] theorem stageOne_withoutRecords (s : State) : s.stageOne.withoutRecords = s.withoutRecords := by
  unfold State.stageOne
  extract_lets i _ s0
  split
  next => rfl
  next e =>
    refine withoutRecords_ite rfl (withoutRecords_ite ?_ ?_)
    · exact withoutRecords_ite (flushTrigger_withoutRecords _) rfl
    · exact withoutRecords_ite rfl rfl

@[simp] theorem stageAll_withoutRecords (s : State) : s.stageAll.withoutRecords = s.withoutRecords := by
  unfold State.stageAll
  generalize s.log.offered.length = n
  induction n with
  | zero => rfl
  | succ n ih => exact (stageOne_withoutRecords _).trans ih

end Sys2Proof.Machine
end

section
/-! The power-fail sequence (05 R139 to R143, Table PWR-4): its latch, and its end with the core die down. -/

namespace Sys2Proof.Machine

/-! What the latch passes on from the state that it meets. -/

/-- The mode, the supply without the marks of a surge and of VBAK_LOW, and what stops a flush. -/
structure Supply where
  mode : ModeSt
  pwr : PwrSt
  flushErr : Bool
  clearing : Bool

def State.supply (s : State) : Supply :=
  { mode := s.mode, pwr := { s.pwr with surge := false, vbakLowSaid := false }, flushErr := s.log.flushErr, clearing := s.log.clearing }

theorem sayRate_supply (s : State) (gap idx : Nat) (src : Src) (c : Half) (p0 p1 p2 p3 : Word) :
    (s.sayRate gap idx src c p0 p1 p2 p3).supply = s.supply := by
  rcases sayRate_cases s gap idx src c p0 p1 p2 p3 with h | h
  · rw [h]
  · rw [h]
    rfl

@[simp] theorem surgeEnd_supply (s : State) : s.surgeEnd.supply = s.supply := by
  unfold State.surgeEnd
  split <;> rfl

@[simp] theorem sayVbakLow_supply (s : State) (mv : Half) : (s.sayVbakLow mv).supply = s.supply := by
  unfold State.sayVbakLow
  split <;> rfl

@[simp] theorem leaveService_supply (s : State) : s.leaveService.supply = s.supply := by
  unfold State.leaveService
  split <;> rfl

theorem clearChannel_supply (s : State) (n : Fin 16) (keep : Bool) : (s.clearChannel n keep).supply = s.supply := by
  simp only [State.clearChannel, State.clearChain]
  split <;> rfl

@[simp] theorem abandonBurst_supply (s : State) : s.abandonBurst.supply = s.supply := by
  unfold State.abandonBurst
  split
  · rfl
  · refine foldl_proj State.supply _ (fun t n => ?_) _ _
    split
    · exact clearChannel_supply t n false
    · rfl

@[simp] theorem gateClose_supply (s : State) : s.gateClose.supply = s.supply := by
  refine foldl_proj State.supply _ (fun t n => ?_) _ _
  dsimp only
  split
  · exact sayRate_supply ..
  · rfl

/-! The latch. -/

/-- With no job of the mover running, the latch finds none to cut. -/
theorem cutJobs_idle {s : State} (hidle : ∀ k : Fin 8, (s.key.mov[k]).busy = false) :
    (List.finRange 8).foldl State.cutJob s = s :=
  foldl_keeps (fun t => t = s) _ (fun t c ht => by subst ht; exact if_pos (by rw [hidle c]; rfl)) _ _ rfl

theorem commitEnd_none {s : State} (h : s.scan.commit = none) : s.commitEnd = s := by
  unfold State.commitEnd
  split
  · rfl
  · next h' => cases h.symm.trans h'

theorem surgeEnd_keeps (s : State) : s.surgeEnd.key = s.key ∧ s.surgeEnd.scan = s.scan := by
  unfold State.surgeEnd
  split <;> exact ⟨rfl, rfl⟩

/-- What the latch makes of the supply: VIN is on VBAK, the charger stops, the core die is to start again, no sequence of 04 goes on. -/
def Supply.latched (x : Supply) (vbakOk : Bool) : Supply :=
  { x with
    mode := { x.mode with pf := true, wake := true, m5 := false, m9 := none, warmReq := none, run := none }
    pwr := { x.pwr with bakSrc := true, chgActive := false, vbatValid := false, vbakOk := vbakOk, pfCount := satInc x.pwr.pfCount } }

/-- Steps 1 to 3 with no job and no commit in progress. -/
theorem pfLatch_supply {s : State} (vbakOk : Bool) (hcom : s.scan.commit = none)
    (hidle : ∀ k : Fin 8, (s.key.mov[k]).busy = false) : (s.pfLatch vbakOk).supply = s.supply.latched vbakOk := by
  obtain ⟨hkey, hscan⟩ := surgeEnd_keeps s
  have hcut : (List.finRange 8).foldl State.cutJob s.surgeEnd = s.surgeEnd := cutJobs_idle (by rwa [hkey])
  have hcommit : s.surgeEnd.commitEnd = s.surgeEnd := commitEnd_none (by rw [hscan, hcom])
  unfold State.pfLatch
  extract_lets sa sb t staged dbg pwr mode scan
  have hsb : sb.supply = s.supply := by simp [sb, sa, hcut, hcommit]
  have ht : t.supply = s.supply := by
    unfold t
    split
    · exact (sayVbakLow_supply ..).trans hsb
    · exact hsb
  exact congrArg (fun x => x.latched vbakOk) ht

/-! The end of the sequence. -/

theorem putSu_pwr (s : State) (u : Fin 2) (x : SntUart) : (s.putSu u x).pwr = s.pwr := rfl

theorem suOwner_pwr (s : State) (u : Fin 2) (core : Bool) : (s.suOwner u core).pwr = s.pwr := by
  simp [State.suOwner, State.sntEv, putSu_pwr]

theorem wntCoreDown_pwr (s : State) : s.wntCoreDown.pwr = s.pwr := by
  unfold State.wntCoreDown
  extract_lets _ s1 s2
  have huart : s2.pwr = s1.pwr := by
    refine foldl_proj State.pwr _ (fun t u => ?_) _ _
    dsimp only
    split
    · exact suOwner_pwr ..
    · rfl
  exact huart

/-- The figures of PWR_VMON and PWR_PF_INFO last through the power-down of the core die. -/
theorem coreDown_figures (s : State) :
    s.coreDown.pwr.vbatMv = s.pwr.vbatMv ∧ s.coreDown.pwr.vbakMv = s.pwr.vbakMv ∧
      s.coreDown.pwr.lastFlush = s.pwr.lastFlush ∧ s.coreDown.pwr.pfCount = s.pwr.pfCount := by
  have h : s.umuDown.wntCoreDown.pwr = s.pwr := wntCoreDown_pwr _
  have hvbat := congrArg PwrSt.vbatMv h
  have hvbak := congrArg PwrSt.vbakMv h
  have hflush := congrArg PwrSt.lastFlush h
  have hcount := congrArg PwrSt.pfCount h
  exact ⟨hvbat, hvbak, hflush, hcount⟩

/-- Step 7 outside Safe: the outcome of the flush is recorded and the core die goes down, into Dormant. -/
theorem pfEnd_to_powerDown {s : State} (hm : s.mode.mode ≠ .safe) (flush : BitVec 2) :
    ∃ u : State, u.mode = { s.mode with pf := false } ∧ u.pwr = { s.pwr with lastFlush := flush } ∧
      s.pfEnd flush = u.coreDown.toMode .dormant := by
  obtain ⟨hmode, hpwr, -⟩ := keeps_of_withoutRecords (stageAll_withoutRecords s)
  let u : State := { s.stageAll with pwr := { s.stageAll.pwr with lastFlush := flush }, mode := { s.stageAll.mode with pf := false } }
  have hne : u.mode.mode ≠ .safe := by simpa [u, hmode] using hm
  exact ⟨u, congrArg (fun m : ModeSt => { m with pf := false }) hmode, congrArg (fun p : PwrSt => { p with lastFlush := flush }) hpwr,
    downTo_of_ne_safe false hne⟩

/-! The whole sequence, with no job and no commit in progress. -/

section
variable {s : State} (hon : s.mode.coreOn = true) (hpf : s.mode.pf = false) (hcom : s.scan.commit = none)
  (hidle : ∀ k : Fin 8, (s.key.mov[k]).busy = false)
include hon hpf hcom hidle

/-- With VBAK below 2.5 V the flush is skipped (R143). -/
theorem powerFail_skipped : ∃ u : State, u.supply = s.supply.latched false ∧ s.powerFail false = u.pfEnd 2 := by
  have hsupply := pfLatch_supply false hcom hidle
  have hvbak : (s.pfLatch false).pwr.vbakOk = false := congrArg (fun x => x.pwr.vbakOk) hsupply
  refine ⟨(s.pfLatch false).say .pwr 0x1001 ((s.pfLatch false).pwr.vbatMv.setWidth 32) ((s.pfLatch false).pwr.vbakMv.setWidth 32) 2
    (BitVec.ofNat 32 s.sealedLost), hsupply, ?_⟩
  simp [State.powerFail, hon, hpf, hvbak]

/-- With VBAK good, step 11 done and the log free the checkpoint is taken and the flush begins (R139, R141). -/
theorem powerFail_flushes (h11 : s.mode.past11 = true) (herr : s.log.flushErr = false) (hclr : s.log.clearing = false) :
    ∃ u : State, u.withoutRecords = (s.pfLatch true).withoutRecords ∧
      s.powerFail true =
        { u with log := { u.log with flush := some u.log.staged.length, retried := false, again := false },
                 time := { u.time with pwr := 0xF0 } } := by
  have hsupply := pfLatch_supply true hcom hidle
  have hvbak : (s.pfLatch true).pwr.vbakOk = true := congrArg (fun x => x.pwr.vbakOk) hsupply
  have hlatch11 : (s.pfLatch true).mode.past11 = true := (congrArg (fun x => x.mode.past11) hsupply).trans h11
  have hlatchErr : (s.pfLatch true).log.flushErr = false := (congrArg (fun x => x.flushErr) hsupply).trans herr
  have hlatchClr : (s.pfLatch true).log.clearing = false := (congrArg (fun x => x.clearing) hsupply).trans hclr
  let saved := ((s.pfLatch true).umuPowerFail (s.pfLatch true).time.dt).umuCheckpoint true
  let said := saved.say .pwr 0x1001 (saved.pwr.vbatMv.setWidth 32) (saved.pwr.vbakMv.setWidth 32) 1 (BitVec.ofNat 32 s.sealedLost)
  have hsaid : said.withoutRecords = saved.withoutRecords := rfl
  refine ⟨said.stageAll, ?_, ?_⟩
  · simp [hsaid, saved]
  · simp [State.powerFail, hon, hpf, hvbak, hlatch11, hlatchErr, hlatchClr, said, saved]

end

end Sys2Proof.Machine
end

section
/-! Surge, charger, VBAK, rails and the held wake request: each event where its condition holds (05 R137, R144, R145, R150, R151, R153). -/

namespace Sys2Proof.Machine

section
variable {s : State} (hon : s.mode.coreOn = true)
include hon

theorem surgeBegin_first (hsurge : s.pwr.surge = false) :
    s.surgeBegin = (State.evt { s with pwr := { s.pwr with surge := true, surgeDt := s.time.dt, surgePeak := s.pwr.vbatMv } }
      R.pwrEvt 2).say .pwr 0x1003 (s.pwr.vbatMv.setWidth 32) 0 0 0 :=
  if_neg (by simp [hon, hsurge])

theorem surgeEnd_of_surge (hsurge : s.pwr.surge = true) :
    s.surgeEnd = State.say { s with pwr := { s.pwr with surge := false } } .pwr 0x1004
      (BitVec.ofNat 32 (s.since s.pwr.surgeDt / 100)) (s.pwr.surgePeak.setWidth 32) 0 0 :=
  if_neg (by simp [hon, hsurge])

theorem vbakFall_of_ok (hok : s.pwr.vbakOk = true) :
    s.vbakFall =
      let u : State := { s with pwr := { s.pwr with vbakOk := false } }
      if bit (s.reg R.pwrBakCtl) 0 then u.sayVbakLow s.pwr.vbakMv else u :=
  if_neg (by simp [hon, hok])

theorem railFault_first (rail : Fin 4) (mv : Half) (hpf : s.mode.pf = false) (hdue : s.safeDue 21 = false) :
    s.railFault rail mv = (State.say { s with pwr := { s.pwr with rails := setBit s.pwr.rails rail.val false } }
      .pwr 0x1006 (BitVec.ofNat 32 (rail.val + 1)) (mv.setWidth 32) 0 0).withSafeCauseFree 21 :=
  if_neg (by simp [hon, hpf, hdue])

/-- The charger may run on VBAT with CHG_EN 1 (R144). -/
theorem chgEn_of_vbat (hsrc : s.pwr.bakSrc = false) (hen : bit (s.reg R.pwrBakCtl) 0 = true) : s.chgEn = true := by
  simp [State.chgEn, hon, hsrc, hen]

end

theorem chgTarget_of_active {s : State} (hen : s.chgEn = true) (hact : s.pwr.chgActive = true) :
    s.chgTarget = State.evt { s with pwr := { s.pwr with chgActive := false, chgDone := true, vbakOk := true } } R.pwrEvt 4 :=
  if_pos (by simp [hen, hact])

theorem chgRestart_of_done {s : State} (hen : s.chgEn = true) (hdone : s.pwr.chgDone = true) :
    s.chgRestart = { s with pwr := { s.pwr with chgActive := true, chgDone := false } } :=
  if_pos (by simp [hen, hdone])

/-- Without its key a write of PWR_BAK_CTL has no effect (R145). -/
theorem bakCtl_wrongKey (s : State) {v : Word} (hkey : fld v 16 16 ≠ 0xB4C2) : s.bakCtl v = s :=
  if_neg (by rw [beq_eq_false_iff_ne.2 hkey, Bool.and_false]; exact Bool.false_ne_true)

/-- With its key, on VBAT and below the target, the fields are stored and CHG_EN starts or stops the charger (R144, R145). -/
theorem bakCtl_key {s : State} {v : Word} (hon : s.regsOn = true) (hkey : fld v 16 16 = 0xB4C2) (hsrc : s.pwr.bakSrc = false)
    (hdone : s.pwr.chgDone = false) :
    s.bakCtl v = { s.setReg R.pwrBakCtl (v &&& 0xF7) with pwr := { s.pwr with chgActive := bit v 0, chgDone := false } } := by
  simp [State.bakCtl, hon, hkey, hsrc, hdone]

theorem sayVbakLow_first {s : State} (mv : Half) (h : s.pwr.vbakLowSaid = false) :
    s.sayVbakLow mv =
      let u := (s.say .pwr 0x1005 (mv.setWidth 32) 0 0 0).evt R.pwrEvt 3
      { u with pwr := { u.pwr with vbakLowSaid := true } } :=
  if_neg (by simp [h])

section
variable {s : State} (hm : s.mode.mode = .safe) (hpri : s.mode.safePri = 12)
include hm hpri

/-- In Safe by THERMAL a reading is counted, and the eighth in a row at or below 130 °C ends the hold (R150). -/
theorem tjfReading_thermal (deg : Byte) :
    s.tjfReading deg =
      let n := if deg.toNat ≤ 194 then min 8 (s.pwr.tjfOk + 1) else 0
      { s with pwr := { s.pwr with tjf := deg, tjfOk := n, thermHold := s.pwr.thermHold && decide (n < 8) } } :=
  if_pos ⟨hm, hpri⟩

theorem tjfReading_hot {deg : Byte} (h : 194 < deg.toNat) : s.tjfReading deg = { s with pwr := { s.pwr with tjf := deg, tjfOk := 0 } } := by
  simp [tjfReading_thermal hm hpri, Nat.not_le.2 h]

theorem tjfReading_eighth {deg : Byte} (h : deg.toNat ≤ 194) (h7 : s.pwr.tjfOk = 7) :
    s.tjfReading deg = { s with pwr := { s.pwr with tjf := deg, tjfOk := 8, thermHold := false } } := by
  simp [tjfReading_thermal hm hpri, h, h7]

end

/-- Settles O5: the power-fail by its latch and by the power-down or the flush that follows, every other event by its one path. -/
theorem supplyEventsTakeEffect : Obligations.SupplyEventsTakeEffect := by
  refine ⟨fun s hon hpf hm hcom hidle => ⟨?skipped, fun h11 herr hclr => ?flushes⟩,
    fun s hwinter => congrArg Host.Outcome.next (if_pos hwinter),
    fun s hon hsurge => congrArg Host.Outcome.next (surgeBegin_first hon hsurge),
    fun s hon hsurge => congrArg Host.Outcome.next (surgeEnd_of_surge hon hsurge),
    fun s hon hsrc hen => ⟨fun hact => congrArg Host.Outcome.next (chgTarget_of_active (chgEn_of_vbat hon hsrc hen) hact),
      fun hdone => congrArg Host.Outcome.next (chgRestart_of_done (chgEn_of_vbat hon hsrc hen) hdone)⟩,
    fun s v hon => ⟨fun hkey => next_regCmd hon (bakCtl_wrongKey s hkey),
      fun hkey hsrc hdone => next_regCmd hon (bakCtl_key hon hkey hsrc hdone)⟩,
    fun s hon hok => ⟨fun hen => congrArg Host.Outcome.next ?quiet, fun hen hsaid => congrArg Host.Outcome.next ?low⟩,
    fun s rail mv hon hpf hdue => congrArg Host.Outcome.next (railFault_first hon rail mv hpf hdue),
    fun s deg hm hpri _ => ⟨fun h => congrArg Host.Outcome.next (tjfReading_hot hm hpri h),
      fun h h7 => congrArg Host.Outcome.next (tjfReading_eighth hm hpri h h7)⟩⟩
  case skipped =>
    obtain ⟨l, hsupply, hrun⟩ := powerFail_skipped hon hpf hcom hidle
    have hlm : l.mode.mode = s.mode.mode := congrArg (fun x => x.mode.mode) hsupply
    obtain ⟨u, humode, hupwr, hend⟩ := pfEnd_to_powerDown (s := l) (by rwa [hlm]) 2
    obtain ⟨-, hdpf, -⟩ := coreDown_keeps u
    obtain ⟨hvbat, hvbak, hflush, hcount⟩ := coreDown_figures u
    rw [hupwr] at hvbat hvbak hflush hcount
    refine ⟨_, congrArg Host.Outcome.next (hrun.trans hend), rfl, rfl, ?_, hflush, ?_, ?_, ?_, rfl, rfl⟩
    · exact hdpf.trans (congrArg ModeSt.pf humode)
    · exact hcount.trans (congrArg (fun x => x.pwr.pfCount) hsupply)
    · exact hvbat.trans (congrArg (fun x => x.pwr.vbatMv) hsupply)
    · exact hvbak.trans (congrArg (fun x => x.pwr.vbakMv) hsupply)
  case flushes =>
    obtain ⟨u, hu, hrun⟩ := powerFail_flushes hon hpf hcom hidle h11 herr hclr
    have hsupply := pfLatch_supply true hcom hidle
    obtain ⟨hmode, hpwr, hfab, hscan⟩ := keeps_of_withoutRecords hu
    refine ⟨_, congrArg Host.Outcome.next hrun, ?_, ?_, rfl, rfl, ?_, ?_, ?_, ?_, ?_⟩
    · exact (congrArg ModeSt.pf hmode).trans (congrArg (fun x => x.mode.pf) hsupply)
    · exact (congrArg ModeSt.coreOn hmode).trans ((congrArg (fun x => x.mode.coreOn) hsupply).trans hon)
    · exact (congrArg PwrSt.bakSrc hpwr).trans (congrArg (fun x => x.pwr.bakSrc) hsupply)
    · exact (congrArg PwrSt.pfCount hpwr).trans (congrArg (fun x => x.pwr.pfCount) hsupply)
    · exact congrArg FabSt.close hfab
    · exact congrArg FabSt.kdrv hfab
    · exact congrArg ScanSt.run hscan
  case quiet =>
    rw [vbakFall_of_ok hon hok]
    exact if_neg (by simp [hen])
  case low =>
    rw [vbakFall_of_ok hon hok]
    exact (if_pos hen).trans (sayVbakLow_first _ hsaid)

end Sys2Proof.Machine
end

section
/-! Elements of a vector and bits of a value after a change of one of them. -/

namespace Sys2Proof.Machine

theorem vput_getElem_same {α : Type} {n : Nat} (v : Vector α n) (i : Fin n) (x : α) : (vput v i x)[i] = x :=
  Vector.getElem_set_self i.isLt

theorem vmod_getElem_same {α : Type} {n : Nat} (v : Vector α n) (i : Fin n) (f : α → α) : (vmod v i f)[i] = f v[i] :=
  Vector.getElem_set_self i.isLt

theorem vmod_vmod_same {α : Type} {n : Nat} (v : Vector α n) (i : Fin n) (f g : α → α) :
    vmod (vmod v i f) i g = vmod v i (fun x => g (f x)) := by
  simp [vmod]

theorem setBit_getLsbD {w : Nat} (x : BitVec w) {i : Nat} (hi : i < w) (b : Bool) (j : Nat) :
    (setBit x i b).getLsbD j = if j = i then b else x.getLsbD j := by
  by_cases hji : j = i
  · cases b <;> simp [setBit, hji, hi]
  · have hother : (BitVec.twoPow w i).getLsbD j = false := by simp [BitVec.getLsbD_twoPow, Ne.symm hji]
    cases b with
    | true => simp [setBit, hother, hji]
    | false => simpa [setBit, hother, hji] using BitVec.lt_of_getLsbD

/-- A field of k bits set bit by bit, the rest kept. -/
theorem foldl_setBit_getLsbD {w : Nat} (x : BitVec w) (f : Nat → Bool) (lo k : Nat) (hk : lo + k ≤ w) (j : Nat) :
    ((List.range k).foldl (fun y c => setBit y (lo + c) (f c)) x).getLsbD j =
      if lo ≤ j ∧ j < lo + k then f (j - lo) else x.getLsbD j := by
  induction k with
  | zero => exact (if_neg (by omega)).symm
  | succ k ih =>
    rw [List.range_succ, List.foldl_append, List.foldl_cons, List.foldl_nil, setBit_getLsbD _ (by omega), ih (by omega)]
    by_cases hj : j = lo + k
    · subst hj
      simp
    · have hiff : (lo ≤ j ∧ j < lo + (k + 1)) ↔ (lo ≤ j ∧ j < lo + k) := by omega
      simp only [hj, if_false, hiff]

theorem boolBits_getLsbD {w : Nat} (l : List Bool) {i : Nat} (hi : i < w) : (boolBits w l).getLsbD i = l.getD i false := by
  simp [boolBits, hi]

/-- A fold that visits x has the property that the step at x brings about and every step keeps. -/
theorem foldl_reaches {α β : Type} (p : α → Prop) (f : α → β → α) (hkeep : ∀ a b, p a → p (f a b)) {x : β}
    (hx : ∀ a, p (f a x)) {l : List β} (hmem : x ∈ l) (a : α) : p (l.foldl f a) := by
  obtain ⟨before, after, rfl⟩ := List.append_of_mem hmem
  rw [List.foldl_append, List.foldl_cons]
  exact foldl_keeps p f hkeep after _ (hx _)

end Sys2Proof.Machine
end

section
/-! What the operations of the front end share: outcomes, the part without its reports, clears of chains (06, 07 R193, R195). -/

namespace Sys2Proof.Machine

/-- A write of a register of a unit that exists has its effect and answers OK while the registers have power. -/
theorem next_regAt {s t u : State} {e : Bool} (hon : s.regsOn = true) (he : e = true) (h : t = u) :
    (.next (s.regAt e t) : Out) = .next (u.answer .ok 0) := by
  subst he
  exact next_regCmd hon h

theorem within_next {e : Bool} (he : e = true) (t : State) : within e t = .next t := if_pos he

theorem when_of {c : Bool} (hc : c = true) (s t : State) : s.when c t = t := if_pos hc

/-- An event of a unit that exists has its effect where its condition holds. -/
theorem within_when_next {e c : Bool} (he : e = true) (hc : c = true) (s t : State) : within e (s.when c t) = .next t := by
  rw [when_of hc, within_next he]

/-! Reports: entries, their rate marks, event bits. -/

/-- The part without what it has reported: the log, the rate marks, the stored registers with their event bits. -/
def State.unreported (s : State) : State := { s with log := LogSt.reset, said := [], regs := [] }

/-- A change of the reports alone keeps the rest. -/
theorem keeps_of_unreported {s t : State} (h : t.unreported = s.unreported) :
    t.afe = s.afe ∧ t.chain = s.chain ∧ t.core = s.core ∧ t.fab = s.fab :=
  ⟨congrArg (fun x => x.afe) h, congrArg (fun x => x.chain) h, congrArg (fun x => x.core) h, congrArg (fun x => x.fab) h⟩

theorem evt_unreported (s : State) (o i : Nat) : (s.evt o i).unreported = s.unreported := rfl

theorem say_unreported (s : State) (src : Src) (c : Half) (p0 p1 p2 p3 : Word) : (s.say src c p0 p1 p2 p3).unreported = s.unreported := rfl

theorem sayRate_unreported (s : State) (gap idx : Nat) (src : Src) (c : Half) (p0 p1 p2 p3 : Word) :
    (s.sayRate gap idx src c p0 p1 p2 p3).unreported = s.unreported := by
  rcases sayRate_cases s gap idx src c p0 p1 p2 p3 with h | h
  · rw [h]
  · rw [h]
    rfl

/-- An event bit with its entry is a report. -/
theorem evt_sayRate_unreported (s : State) (o i gap idx : Nat) (src : Src) (c : Half) (p0 p1 p2 p3 : Word) :
    ((s.evt o i).sayRate gap idx src c p0 p1 p2 p3).unreported = s.unreported := sayRate_unreported ..

theorem unreported_ite {c : Prop} [Decidable c] {a b s : State} (ha : a.unreported = s.unreported) (hb : b.unreported = s.unreported) :
    (if c then a else b).unreported = s.unreported := by
  split
  · exact ha
  · exact hb

/-- The scan core and the front end. -/
def State.coreAfe (s : State) : CoreSt × AfeSt := (s.core, s.afe)

theorem coreAfe_of_unreported {s t : State} (h : t.unreported = s.unreported) : t.coreAfe = s.coreAfe :=
  congrArg (fun x => (x.core, x.afe)) h

/-! Clears of chains. -/

theorem clearChain_of_chainCfg {s : State} {k : Fin 16} {c : ChainCfg} (h : s.chainCfg k = some c) (aligned : Bool) :
    s.clearChain k aligned = { s with chain := vmod s.chain k (fun st => st.clear c.unsettled s.modEdge aligned) } := by
  simp only [State.clearChain, h]

theorem clearChannel_coreAfe (s : State) (n : Fin 16) (keep : Bool) : (s.clearChannel n keep).coreAfe = s.coreAfe := by
  simp only [State.clearChannel, State.clearChain]
  split <;> rfl

/-- A second cause on the edge of the last clear is the same clear (R195). -/
theorem clear_same_edge {st : ChainSt} {n edge : Nat} (h : st.clearedAt = some edge) :
    (st.clear n edge false).aligned = st.aligned ∧ (st.clear n edge false).clears = st.clears := by
  simp [ChainSt.clear, h]

/-- A clear on a new edge is counted, and ends the alignment unless it is a synchronising reset (R193). -/
theorem clear_new_edge {st : ChainSt} {n edge : Nat} (h : st.clearedAt ≠ some edge) :
    (st.clear n edge false).aligned = false ∧ (st.clear n edge false).clears = satInc st.clears := by
  simp [ChainSt.clear, h]

/-- A clear by a cause that keeps the alignment keeps it, on a new edge as on the same one. -/
theorem clear_aligned_self (st : ChainSt) (n edge : Nat) : (st.clear n edge st.aligned).aligned = st.aligned := by
  cases h : st.aligned <;> simp [ChainSt.clear, h]

/-- Operations on channels that each keep a projection keep it over a mask. -/
theorem forChans_proj {γ : Type} (g : State → γ) (s : State) (mask : BitVec 16) (f : State → Fin 16 → State)
    (h : ∀ t n, g (f t n) = g t) : g (s.forChans mask f) = g s := by
  refine foldl_proj g _ (fun t n => ?_) _ _
  split
  · exact h t n
  · rfl

end Sys2Proof.Machine
end

section
/-! Channels: settings, modulator resets, open-wire detection and the test burst (06 R162 to R167). -/

namespace Sys2Proof.Machine

/-! A write of AFE_CH_CTL (R163). -/

section
variable {s : State} {n : Fin 16} {v : Word} (hpend : s.afe.pend[n] = none)
  (hne : (s.afe.ctl[n] &&& ~~~0x3E#32) ||| (v &&& 0x3E#32) ≠ s.afe.ctl[n])
include hpend hne

/-- A write that changes something, with no change waiting, is denied or taken by whether its mode and its GAIN code permit it, and
applies at once on a channel that is off. -/
theorem chCtlWrite_change :
    s.chCtlWrite n v =
      let new := (s.afe.ctl[n] &&& ~~~0x3E#32) ||| (v &&& 0x3E#32)
      if !s.readyOrService || bit v 4 then s.evt R.afeEvt 7
      else if s.chanEn n then { s with afe := { s.afe with pend := vput s.afe.pend n (some new) } }
      else { s with afe := { s.afe with ctl := vput s.afe.ctl n new } } := by
  simp only [State.chCtlWrite, hpend, Option.getD_none]
  exact if_neg hne

theorem chCtlWrite_enabled (hm : s.readyOrService = true) (hg : bit v 4 = false) (hen : s.chanEn n = true) :
    s.chCtlWrite n v = { s with afe := { s.afe with
      pend := vput s.afe.pend n (some ((s.afe.ctl[n] &&& ~~~0x3E#32) ||| (v &&& 0x3E#32))) } } := by
  simp [chCtlWrite_change hpend hne, hm, hg, hen]

theorem chCtlWrite_disabled (hm : s.readyOrService = true) (hg : bit v 4 = false) (hen : s.chanEn n = false) :
    s.chCtlWrite n v = { s with afe := { s.afe with
      ctl := vput s.afe.ctl n ((s.afe.ctl[n] &&& ~~~0x3E#32) ||| (v &&& 0x3E#32)) } } := by
  simp [chCtlWrite_change hpend hne, hm, hg, hen]

theorem chCtlWrite_denied (hm : s.readyOrService = false) : s.chCtlWrite n v = s.evt R.afeEvt 7 := by
  simp [chCtlWrite_change hpend hne, hm]

end

/-! Clears of the channel's chain. -/

/-- An accepted change is in force with the chain of the new setting cleared, its alignment kept (R163). -/
theorem settingApply_of_pending {s : State} {n : Fin 16} {v : Word} (h : s.afe.pend[n] = some v) :
    ∃ a : AfeSt, (s.settingApply n).unreported = (State.clearChannel { s with afe := a } n true).unreported ∧
      a.ctl = vput s.afe.ctl n v ∧ a.pend = vput s.afe.pend n none := by
  simp only [State.settingApply, h]
  exact ⟨_, unreported_ite (evt_sayRate_unreported ..) rfl, rfl, rfl⟩

/-- A modulator reset is counted and clears the chain, which loses its alignment (R162, 07 R193). -/
theorem modReset_unreported {s : State} {n : Fin 16} {c : ChainCfg} (h : s.chainCfg (s.chanChain n) = some c) :
    (s.modReset n).unreported = State.unreported { s with
      afe := { s.afe with modrst := vmod s.afe.modrst n satInc }
      chain := vmod s.chain (s.chanChain n) (fun st => { st.clear c.unsettled s.modEdge false with modClear := true }) } := by
  unfold State.modReset
  extract_lets _ s0 s1
  have hclear : s0 = { s with
      afe := { s.afe with modrst := vmod s.afe.modrst n satInc }
      chain := vmod s.chain (s.chanChain n) (fun st => st.clear c.unsettled s.modEdge false) } :=
    clearChain_of_chainCfg (s := { s with afe := { s.afe with modrst := vmod s.afe.modrst n satInc } }) h false
  rw [evt_sayRate_unreported]
  simp only [s1, hclear, vmod_vmod_same]
  rfl

/-! Open-wire detection (R164). -/

/-- A positive pin that has been connected becomes open. -/
theorem owChange_open_positive {s : State} {n : Fin 16} (h : s.afe.owPos.getLsbD n.val = false) :
    (s.owChange n 1 true).unreported =
      State.unreported { s with afe := { s.afe with owPos := s.afe.owPos ||| ((1 : BitVec 16) <<< n.val) } } := by
  have hchg : (1 : BitVec 2) &&& ~~~boolBits 2 [s.afe.owPos.getLsbD n.val, s.afe.owNeg.getLsbD n.val] = 1 := by
    rw [h]
    cases s.afe.owNeg.getLsbD n.val <;> rfl
  simp only [State.owChange, if_true, hchg]
  exact evt_sayRate_unreported ..

/-- A negative pin that has been open is connected again. -/
theorem owChange_connect_negative {s : State} {n : Fin 16} (h : s.afe.owNeg.getLsbD n.val = true) :
    (s.owChange n 2 false).unreported =
      State.unreported { s with afe := { s.afe with owNeg := s.afe.owNeg &&& ~~~((1 : BitVec 16) <<< n.val) } } := by
  have hchg : (2 : BitVec 2) &&& boolBits 2 [s.afe.owPos.getLsbD n.val, s.afe.owNeg.getLsbD n.val] = 2 := by
    rw [h]
    cases s.afe.owPos.getLsbD n.val <;> rfl
  simp only [State.owChange, Bool.false_eq_true, if_false, hchg]
  exact evt_sayRate_unreported ..

/-! The test burst (R166, R167). -/

/-- The channels that are enabled, as a mask. -/
def State.chansEnabled (s : State) : BitVec 16 := boolBits _ ((List.finRange 16).map s.chanEn)

theorem chansEnabled_getLsbD (s : State) (n : Fin 16) : s.chansEnabled.getLsbD n.val = s.chanEn n := by
  rw [State.chansEnabled, boolBits_getLsbD _ n.isLt]
  simp

theorem owtGo_starts {s : State} {v : Word} (hgo : bit v 31 = true) (hm : s.readyOrService = true) (hb : s.afe.burst = none) :
    s.owtGo v = { s.setReg R.afeOwtCtl (v &&& 0x3FFFF) with
      afe := { s.afe with burst := some (fld v 0 16 &&& s.chansEnabled) } } := by
  simp [State.owtGo, State.chansEnabled, hgo, hm, hb]

theorem owtGo_denied {s : State} {v : Word} (hgo : bit v 31 = true) (hm : s.readyOrService = false) :
    s.owtGo v = { s.setReg R.afeOwtCtl (v &&& 0x3FFFF) with afe := { s.afe with owDenied := true } } := by
  simp [State.owtGo, hgo, hm]

/-- The end of a burst shows the pins found open among the tested channels, and latches them (R166). -/
theorem owtDone_coreAfe {s : State} {mask : BitVec 16} (h : s.afe.burst = some mask) (pos neg : BitVec 16) :
    (s.owtDone pos neg).coreAfe = (s.core, { s.afe with
      burst := none
      owOpen := (pos ||| neg) &&& mask
      owDone := true
      owAband := false
      owLatch := (s.afe.owLatch &&& ~~~mask) ||| ((pos ||| neg) &&& mask) }) := by
  simp only [State.owtDone, h]
  rw [coreAfe_of_unreported (say_unreported ..), coreAfe_of_unreported (evt_unreported ..),
    forChans_proj State.coreAfe _ _ _ fun t n => coreAfe_of_unreported (evt_sayRate_unreported ..),
    forChans_proj State.coreAfe _ _ _ fun t n => clearChannel_coreAfe t n false]
  rfl

end Sys2Proof.Machine
end

section
/-! The statement of the architecture: channels of the front end (06). -/

namespace Sys2Proof.Machine

/-- Settles O8: a write by whether it is taken, a clear by whether it meets the edge of the last one, detection and burst by what they
change of the front end. -/
theorem channelEventsTakeEffect : Obligations.ChannelEventsTakeEffect := by
  refine ⟨fun s n v hn hon hpend hne => ?write, fun s n v c hn hpend hc => ?apply, fun s n c hn hen hconv hc => ?modReset,
    fun s n hn hen hconv how => ?openWire, fun s v hon hgo => ?go, fun s pos neg mask hb => ?done⟩
  case write =>
    have he : decide (n.val < s.part.channels) = true := decide_eq_true hn
    exact ⟨fun hm hg hch => next_regAt hon he (chCtlWrite_enabled hpend hne hm hg hch),
      fun hm hg hch => next_regAt hon he (chCtlWrite_disabled hpend hne hm hg hch),
      fun hm => next_regAt hon he (chCtlWrite_denied hpend hne hm)⟩
  case apply =>
    obtain ⟨a, happly, hctl, hpending⟩ := settingApply_of_pending hpend
    have hk : State.chanChain { s with afe := a } n = fin 15 (fldN v 8 4) := by
      simp only [State.chanChain, hctl, vput_getElem_same]
    simp only [State.clearChannel, hk, Bool.true_and] at happly
    rw [clearChain_of_chainCfg (s := { s with afe := a }) hc] at happly
    obtain ⟨hafe, hchain, -⟩ := keeps_of_unreported happly
    refine ⟨_, within_next (decide_eq_true hn) _, ?_⟩
    rw [hafe, hchain, vmod_getElem_same, hctl, hpending, vput_getElem_same, vput_getElem_same]
    exact ⟨rfl, rfl, rfl, rfl, clear_aligned_self ..⟩
  case modReset =>
    obtain ⟨hafe, hchain, hcore, hfab⟩ := keeps_of_unreported (modReset_unreported hc)
    have hcond : (s.chanEn n && s.converts) = true := by simp [hen, hconv]
    refine ⟨_, within_when_next (decide_eq_true hn) hcond .., ?_⟩
    rw [hafe, hchain, vmod_getElem_same, vmod_getElem_same]
    exact ⟨rfl, rfl, rfl, rfl, hcore, hfab, clear_new_edge (n := c.unsettled), clear_same_edge (n := c.unsettled)⟩
  case openWire =>
    have hcond : (s.chanEn n && s.converts && bit s.afe.ctl[n] 5) = true := by rw [hen, hconv, how]; rfl
    refine ⟨fun hpos => ?_, fun hneg => ?_⟩
    · obtain ⟨hafe, hchain, -⟩ := keeps_of_unreported (owChange_open_positive hpos)
      exact ⟨_, within_when_next (decide_eq_true hn) hcond .., hafe, hchain⟩
    · obtain ⟨hafe, hchain, -⟩ := keeps_of_unreported (owChange_connect_negative hneg)
      exact ⟨_, within_when_next (decide_eq_true hn) hcond .., hafe, hchain⟩
  case go =>
    refine ⟨fun hm hb => ⟨_, next_regCmd hon (owtGo_starts hgo hm hb), fun n => ?_⟩,
      fun hm => next_regCmd hon (owtGo_denied hgo hm)⟩
    rw [BitVec.getLsbD_and, chansEnabled_getLsbD, fld, BitVec.getLsbD_extractLsb']
    simp
  case done =>
    obtain ⟨hcore, hafe⟩ := Prod.mk.inj (owtDone_coreAfe hb pos neg)
    refine ⟨_, rfl, ?_⟩
    rw [hafe]
    exact ⟨rfl, rfl, rfl, rfl, rfl, hcore⟩

end Sys2Proof.Machine
end

section
/-! What the fabric changes as it settles: itself, free values that it draws, and reports (08 R202, R216, R658). -/

namespace Sys2Proof.Machine

/-- The part without the fabric, the free values drawn so far, and what it has reported. -/
def State.outsideFabric (s : State) : State := { s.unreported with fab := FabSt.reset, freeCtr := 0 }

theorem keeps_of_outsideFabric {s t : State} (h : t.outsideFabric = s.outsideFabric) :
    t.afe = s.afe ∧ t.chain = s.chain ∧ t.core = s.core :=
  ⟨congrArg (fun x => x.afe) h, congrArg (fun x => x.chain) h, congrArg (fun x => x.core) h⟩

theorem outsideFabric_of_unreported {s t : State} (h : t.unreported = s.unreported) : t.outsideFabric = s.outsideFabric :=
  congrArg (fun x => { x with fab := FabSt.reset, freeCtr := 0 }) h

theorem freeBits_outsideFabric (n : Nat) (s : State) : (State.freeBits n s).2.outsideFabric = s.outsideFabric := by
  induction n generalizing s with
  | zero => rfl
  | succ n ih => exact ih s.free.2

theorem tripRise_outsideFabric (s : State) (c : FabCfg) (n : Fin 12) : (s.tripRise c n).outsideFabric = s.outsideFabric :=
  (outsideFabric_of_unreported (sayRate_unreported ..)).trans rfl

theorem tripFall_outsideFabric (s : State) (n : Fin 12) : (s.tripFall n).outsideFabric = s.outsideFabric :=
  (outsideFabric_of_unreported (sayRate_unreported ..)).trans rfl

theorem tripStage_outsideFabric (s : State) (c : FabCfg) (low cells : BitVec 256) :
    (s.tripStage c low cells).outsideFabric = s.outsideFabric := by
  unfold State.tripStage
  extract_lets now ranks s1
  split
  · rfl
  · refine foldl_proj State.outsideFabric _ (fun t n => ?_) _ _
    dsimp only
    split
    · rfl
    · split
      · exact tripRise_outsideFabric ..
      · exact tripFall_outsideFabric ..

theorem settle_outsideFabric (s : State) : s.settle.outsideFabric = s.outsideFabric := by
  unfold State.settle State.settleWith
  split
  · rfl
  · split
    · extract_lets r t u
      have hr : r.2.outsideFabric = s.outsideFabric := by
        unfold r
        split
        · rfl
        · exact freeBits_outsideFabric ..
      exact (tripStage_outsideFabric ..).trans hr
    · rfl

end Sys2Proof.Machine
end

section
/-! The SAR converter and the comparators (06 R169 to R174). -/

namespace Sys2Proof.Machine

/-! The SAR. -/

/-- The code of an input is the one whose step holds it, the first and the last taking what lies outside (R170). -/
theorem sarCode_eq {uv : Int} {code : BitVec 12} (hlow : code = 0 ↔ uv * 4096 < 1500000)
    (hhigh : code = 0xFFF ↔ 4095 * 1500000 ≤ uv * 4096)
    (hstep : 0 ≤ uv → uv < 1500000 → (code.toNat : Int) * 1500000 ≤ uv * 4096 ∧ uv * 4096 < (code.toNat + 1 : Int) * 1500000) :
    sarCode uv = code := by
  have hclamp : max 0 (min 4095 (uv * 4096 / 1500000)) = (code.toNat : Int) := by
    by_cases hbelow : uv * 4096 < 1500000
    · have hcode : code.toNat = 0 := by rw [hlow.2 hbelow]; rfl
      omega
    · by_cases habove : 4095 * 1500000 ≤ uv * 4096
      · have hcode : code.toNat = 4095 := by rw [hhigh.2 habove]; rfl
        omega
      · obtain ⟨h1, h2⟩ := hstep (by omega) (by omega)
        omega
  rw [sarCode, hclamp, BitVec.ofInt_natCast, BitVec.ofNat_toNat, BitVec.setWidth_eq]

/-- A conversion before the last slot of a cycle stores its result. -/
theorem sarConv_of_next {s : State} {slot : Fin 20} (hslot : slot = s.afe.sarNext) (hne : slot ≠ 19) (uv : Int) :
    s.sarConv slot uv = { s with afe := { s.afe with
      sar := vput s.afe.sar slot (sarCode uv)
      sarDt := vput s.afe.sarDt slot s.time.dt
      sum := vmod s.afe.sum slot (· + (sarCode uv).toNat)
      sarNext := slot + 1 } } := by
  have hlast : (slot == 19) = false := beq_false_of_ne hne
  simp [State.sarConv, hslot.symm, hlast]

/-- The last slot of a cycle counts the cycle, and ends no frame before the 50th (R170). -/
theorem sarConv_last {s : State} (hslot : s.afe.sarNext = 19) (hcyc : s.afe.cycles < 49) (uv : Int) :
    s.sarConv 19 uv = { s with afe := { s.afe with
      sar := vput s.afe.sar 19 (sarCode uv)
      sarDt := vput s.afe.sarDt 19 s.time.dt
      sum := vmod s.afe.sum 19 (· + (sarCode uv).toNat)
      sarNext := 0
      cycles := s.afe.cycles + 1 } } := by
  have hframe : ¬ 50 ≤ s.afe.cycles + 1 := by omega
  simp [State.sarConv, hslot, hframe]

/-! Hysteresis of a comparator's cells, in quarters of a microvolt (R171). -/

/-- The high threshold of comparator m. -/
def State.cmpHigh (s : State) (m : Fin 8) : Int := ((s.dacCodes m).1 - 512) * 9375
/-- The low threshold of comparator m. -/
def State.cmpLow (s : State) (m : Fin 8) : Int := ((s.dacCodes m).2 - 512) * 9375
/-- The hysteresis of comparator m. -/
def State.cmpHyst (s : State) (m : Fin 8) : Int := 8000 * (fldN s.afe.cmpCtl[m] 0 4 : Nat)

theorem cmpHyst_nonneg (s : State) (m : Fin 8) : 0 ≤ s.cmpHyst m := Int.mul_nonneg (by decide) (Int.natCast_nonneg _)

section
variable {s : State} {m : Fin 8} {uv : Int} (was : Bool) {c : Nat}

/-- A cell of the high threshold sets above it, clears below it by more than the hysteresis, and keeps its level between. -/
theorem cellLevel_high (hc : c < 2) :
    s.cellLevel m uv c was =
      if s.cmpHigh m < 4 * uv then true else if 4 * uv < s.cmpHigh m - s.cmpHyst m then false else was := if_pos hc

theorem cellLevel_high_above (hc : c < 2) (h : s.cmpHigh m < 4 * uv) : s.cellLevel m uv c was = true :=
  (cellLevel_high was hc).trans (if_pos h)

theorem cellLevel_high_below (hc : c < 2) (h : 4 * uv < s.cmpHigh m - s.cmpHyst m) : s.cellLevel m uv c was = false := by
  have hhyst := cmpHyst_nonneg s m
  rw [cellLevel_high was hc, if_neg (by omega), if_pos h]

theorem cellLevel_high_between (hc : c < 2) (h : s.cmpHigh m - s.cmpHyst m ≤ 4 * uv) (h' : 4 * uv ≤ s.cmpHigh m) :
    s.cellLevel m uv c was = was := by
  rw [cellLevel_high was hc, if_neg (by omega), if_neg (by omega)]

/-- A cell of the low threshold sets below it, clears above it by more than the hysteresis, and keeps its level between. -/
theorem cellLevel_low (hc : 2 ≤ c) :
    s.cellLevel m uv c was =
      if 4 * uv < s.cmpLow m then true else if s.cmpLow m + s.cmpHyst m < 4 * uv then false else was :=
  if_neg (Nat.not_lt.2 hc)

theorem cellLevel_low_below (hc : 2 ≤ c) (h : 4 * uv < s.cmpLow m) : s.cellLevel m uv c was = true :=
  (cellLevel_low was hc).trans (if_pos h)

theorem cellLevel_low_above (hc : 2 ≤ c) (h : s.cmpLow m + s.cmpHyst m < 4 * uv) : s.cellLevel m uv c was = false := by
  have hhyst := cmpHyst_nonneg s m
  rw [cellLevel_low was hc, if_neg (by omega), if_pos h]

theorem cellLevel_low_between (hc : 2 ≤ c) (h : s.cmpLow m ≤ 4 * uv) (h' : 4 * uv ≤ s.cmpLow m + s.cmpHyst m) :
    s.cellLevel m uv c was = was := by
  rw [cellLevel_low was hc, if_neg (by omega), if_neg (by omega)]

end

/-! The cells of a comparator whose input crosses. -/

theorem crossing_keeps (s : State) (m : Fin 8) (uv : Int) (stuck1 stuck0 : BitVec 4) :
    (s.crossing m uv stuck1 stuck0).core = s.core ∧ (s.crossing m uv stuck1 stuck0).chain = s.chain := by
  obtain ⟨-, hchain, hcore⟩ := keeps_of_outsideFabric (settle_outsideFabric _)
  exact ⟨hcore, hchain⟩

/-- With no cell stuck each cell of the comparator goes to its level; the cells of the others stay. -/
theorem crossing_cells_getLsbD (s : State) (m : Fin 8) (uv : Int) (i : Nat) :
    (s.crossing m uv 0 0).afe.cells.getLsbD i =
      if i / 4 = m.val then s.cellLevel m uv (i % 4) (s.afe.cells.getLsbD i) else s.afe.cells.getLsbD i := by
  obtain ⟨hafe, -⟩ := keeps_of_outsideFabric (settle_outsideFabric { s with afe := { s.afe with
    cells := (List.range 4).foldl (fun (x : BitVec 32) c => setBit x (4 * m.val + c)
      ((s.cellLevel m uv c (s.afe.cells.getLsbD (4 * m.val + c)) || (0 : BitVec 4).getLsbD c) && !(0 : BitVec 4).getLsbD c))
      s.afe.cells } })
  refine (congrArg (fun a => a.cells.getLsbD i) hafe).trans ?_
  have hown : (4 * m.val ≤ i ∧ i < 4 * m.val + 4) ↔ i / 4 = m.val := by omega
  rw [foldl_setBit_getLsbD _ _ _ _ (by omega)]
  simp only [hown]
  split
  next h =>
    have hcell : i - 4 * m.val = i % 4 ∧ 4 * m.val + i % 4 = i := by omega
    simp [hcell]
  next => rfl

/-- Cell c of the comparator goes to its level. -/
theorem crossing_cell_own (s : State) (m : Fin 8) (uv : Int) {c : Nat} (hc : c < 4) :
    (s.crossing m uv 0 0).afe.cells.getLsbD (4 * m.val + c) = s.cellLevel m uv c (s.afe.cells.getLsbD (4 * m.val + c)) := by
  have hdiv : (4 * m.val + c) / 4 = m.val := by omega
  have hmod : (4 * m.val + c) % 4 = c := by omega
  rw [crossing_cells_getLsbD, if_pos hdiv, hmod]

/-! The cell test (R174): one cell that fails is out of its OR. -/

theorem cellFail_keeps (s : State) (c : Fin 4) (m : Fin 8) :
    (s.cellFail c m).core = s.core ∧ (s.cellFail c m).chain = s.chain := by
  unfold State.cellFail
  extract_lets i _ s1
  split <;> exact ⟨rfl, rfl⟩

theorem cellFail_out (s : State) (c : Fin 4) (m : Fin 8) : (s.cellFail c m).afe.cellOut.getLsbD (4 * m.val + c.val) = true := by
  have hi : 4 * m.val + c.val < 32 := by omega
  unfold State.cellFail
  extract_lets i _ s1
  split
  · assumption
  · simp [s1, i, hi]

theorem cellFail_out_mono (s : State) (c : Fin 4) (m : Fin 8) {i : Nat} (h : s.afe.cellOut.getLsbD i = true) :
    (s.cellFail c m).afe.cellOut.getLsbD i = true := by
  unfold State.cellFail
  extract_lets k _ s1
  split
  · exact h
  · simp [s1, h]

/-! One comparator at the test of its cell. -/

/-- Comparator m fails the test of cell c where s has it enabled and its pass bit is 0. -/
def State.cellJudge (s : State) (c : Fin 4) (pass : BitVec 8) (t : State) (m : Fin 8) : State :=
  if s.cmpEn m && !pass.getLsbD m.val then t.cellFail c m else t

section
variable (s : State) (c : Fin 4) (pass : BitVec 8) (t : State) (m : Fin 8)

theorem cellJudge_keeps : (s.cellJudge c pass t m).core = t.core ∧ (s.cellJudge c pass t m).chain = t.chain := by
  unfold State.cellJudge
  split
  · exact cellFail_keeps t c m
  · exact ⟨rfl, rfl⟩

theorem cellJudge_out_mono {i : Nat} (h : t.afe.cellOut.getLsbD i = true) :
    (s.cellJudge c pass t m).afe.cellOut.getLsbD i = true := by
  unfold State.cellJudge
  split
  · exact cellFail_out_mono t c m h
  · exact h

theorem cellJudge_fails (hen : s.cmpEn m = true) (hfail : pass.getLsbD m.val = false) : s.cellJudge c pass t m = t.cellFail c m :=
  if_pos (by rw [hen, hfail]; rfl)

theorem cellJudge_passes (hpass : pass.getLsbD m.val = true) : s.cellJudge c pass t m = t :=
  if_neg (by rw [hpass]; simp)

end

/-! Every comparator at the test of its next cell. -/

def State.cellsJudged (s : State) (pass : BitVec 8) : State := (List.finRange 8).foldl (s.cellJudge s.afe.nextCell pass) s

theorem cellTest_eq (s : State) (pass : BitVec 8) :
    s.cellTest pass =
      { s.cellsJudged pass with afe := { (s.cellsJudged pass).afe with nextCell := s.afe.nextCell + 1 } } := rfl

section
variable (s : State) (pass : BitVec 8)

theorem cellsJudged_keeps : (s.cellsJudged pass).core = s.core ∧ (s.cellsJudged pass).chain = s.chain :=
  ⟨foldl_proj State.core _ (fun t m => (cellJudge_keeps s _ pass t m).1) _ s,
    foldl_proj State.chain _ (fun t m => (cellJudge_keeps s _ pass t m).2) _ s⟩

theorem cellsJudged_out_mono {i : Nat} (h : s.afe.cellOut.getLsbD i = true) :
    (s.cellsJudged pass).afe.cellOut.getLsbD i = true :=
  foldl_keeps (fun t : State => t.afe.cellOut.getLsbD i = true) _ (fun t m ht => cellJudge_out_mono s _ pass t m ht) _ s h

/-- A comparator that fails has its tested cell out, whatever the others do. -/
theorem cellsJudged_out {m : Fin 8} (hen : s.cmpEn m = true) (hfail : pass.getLsbD m.val = false) :
    (s.cellsJudged pass).afe.cellOut.getLsbD (4 * m.val + s.afe.nextCell.val) = true := by
  refine foldl_reaches (fun t : State => t.afe.cellOut.getLsbD (4 * m.val + s.afe.nextCell.val) = true) _
    (fun t n ht => cellJudge_out_mono s _ pass t n ht) (x := m) (fun t => ?_) (List.mem_finRange m) s
  rw [cellJudge_fails s _ pass t m hen hfail]
  exact cellFail_out ..

theorem cellsJudged_all_pass : s.cellsJudged 0xFF = s := by
  have hpass : ∀ m : Fin 8, (0xFF : BitVec 8).getLsbD m.val = true := by decide
  exact foldl_keeps (fun t => t = s) _ (fun t m ht => (cellJudge_passes s _ _ t m (hpass m)).trans ht) _ s rfl

end

/-! A write of AFE_CMP_CTL (R173). -/

section
variable {s : State} {m : Fin 8} {v : Word} (hne : (s.afe.cmpCtl[m] &&& ~~~0xF#32) ||| (v &&& 0xF#32) ≠ s.afe.cmpCtl[m])
include hne

theorem cmpCtlWrite_taken (hm : s.readyOrService = true) :
    s.cmpCtlWrite m v = { s with afe := { s.afe with
      cmpCtl := vput s.afe.cmpCtl m ((s.afe.cmpCtl[m] &&& ~~~0xF#32) ||| (v &&& 0xF#32)) } } :=
  (if_neg hne).trans (if_neg (by simp [hm]))

theorem cmpCtlWrite_denied (hm : s.readyOrService = false) : s.cmpCtlWrite m v = s.evt R.afeEvt 7 :=
  (if_neg hne).trans (if_pos (by simp [hm]))

end

end Sys2Proof.Machine
end

section
/-! The statement of the architecture: the SAR and the comparators (06). -/

namespace Sys2Proof.Machine

/-- Settles O9: a conversion by its slot, a crossing cell by cell, a cell test by the comparators that fail it, a write by its mode. -/
theorem sarAndComparatorEventsTakeEffect : Obligations.SarAndComparatorEventsTakeEffect := by
  refine ⟨fun s slot uv code hrun hslot hne hlow hhigh hstep => congrArg Host.Outcome.next ?conversion,
    fun s uv hrun hslot hcyc => ?lastSlot, fun s m uv hm hen h8 => ?crossing, fun s pass hon h8 hpf => ?cellTest,
    fun s m v hm hon hne => ⟨fun hmode => next_regAt hon (decide_eq_true hm) (cmpCtlWrite_taken hne hmode),
      fun hmode => next_regAt hon (decide_eq_true hm) (cmpCtlWrite_denied hne hmode)⟩⟩
  case conversion =>
    rw [when_of hrun, sarConv_of_next hslot hne, sarCode_eq hlow hhigh hstep]
  case lastSlot =>
    exact ⟨_, congrArg Host.Outcome.next ((when_of hrun ..).trans (sarConv_last hslot hcyc uv)), rfl, rfl, rfl⟩
  case crossing =>
    have hcond : (s.cmpEn m && s.mode.past8) = true := by rw [hen, h8]; rfl
    obtain ⟨hcore, hchain⟩ := crossing_keeps s m uv 0 0
    have hown (i : Nat) (hi : i < 4) := crossing_cell_own s m uv hi
    refine ⟨_, within_when_next (decide_eq_true hm) hcond .., hcore, hchain,
      fun i _ hother => (crossing_cells_getLsbD s m uv i).trans (if_neg hother),
      fun hv i h2 => (hown i (by omega)).trans (cellLevel_high_above _ h2 hv),
      fun hv i h2 => (hown i (by omega)).trans (cellLevel_high_below _ h2 hv),
      fun hv hv' i h2 => (hown i (by omega)).trans (cellLevel_high_between _ h2 hv hv'),
      fun hv i h2 h4 => (hown i h4).trans (cellLevel_low_below _ h2 hv),
      fun hv i h2 h4 => (hown i h4).trans (cellLevel_low_above _ h2 hv),
      fun hv hv' i h2 h4 => (hown i h4).trans (cellLevel_low_between _ h2 hv hv')⟩
  case cellTest =>
    have hcond : (s.mode.coreOn && s.mode.past8 && !s.mode.pf) = true := by rw [hon, h8, hpf]; rfl
    obtain ⟨hafe, hchain, hcore⟩ := keeps_of_outsideFabric (settle_outsideFabric (s.cellTest pass))
    obtain ⟨hjcore, hjchain⟩ := cellsJudged_keeps s pass
    refine ⟨_, congrArg Host.Outcome.next (when_of hcond ..), ?_, ?_, ?_, ?_, hcore.trans hjcore, hchain.trans hjchain⟩
    all_goals rw [hafe, cellTest_eq]
    · intro m hen hfail
      exact cellsJudged_out s pass hen hfail
    · intro i hi
      exact cellsJudged_out_mono s pass hi
    · rintro rfl
      rw [cellsJudged_all_pass]

end Sys2Proof.Machine
end

section
/-! One chain among the sixteen: what an operation on another chain leaves of it, and the reports of chain faults (07 R193, R197, R198). -/

namespace Sys2Proof.Machine

theorem vmod_getElem_ne {α : Type} {n : Nat} (v : Vector α n) {i j : Fin n} (h : i ≠ j) (f : α → α) : (vmod v i f)[j] = v[j] :=
  Vector.getElem_set_ne i.isLt j.isLt (Fin.val_ne_of_ne h)

/-! Event bits. -/

/-- A stored value that is not the unlisted one is read back, whatever the map. -/
theorem mget_mset_listed {α : Type} [DecidableEq α] {d v : α} (hv : v ≠ d) (m : List (Nat × α)) (k : Nat) :
    mget d (mset d m k v) k = v := by
  induction m with
  | nil => simp [mset, mget, hv]
  | cons c m ih =>
    simp only [mset, if_neg hv]
    split
    next => simp [mget]
    next =>
      split
      next => simp [mget]
      next hk => simpa [mget, hk] using ih

theorem evt_bit (s : State) (o : Nat) {i : Nat} (hi : i < 32) : bit ((s.evt o i).reg o) i = true := by
  have hset : bit (s.reg o ||| bitAt true i) i = true := by simp [bit, bitAt, hi]
  have hne : s.reg o ||| bitAt true i ≠ 0 := fun h => by simp [h, bit] at hset
  have hread : (s.evt o i).reg o = s.reg o ||| bitAt true i := mget_mset_listed hne s.regs o
  rw [hread, hset]

/-! What an operation on a chain leaves of the others. -/

/-- The part without its chains, the alarms raised to the safety monitor, and what it has reported. -/
def State.outsideChains (s : State) : State :=
  { s.unreported with chain := Vector.replicate 16 ChainSt.reset, saf := SafSt.reset }

/-- Chain k and what it is judged by. -/
def State.chainView (k : Fin 16) (s : State) : State × ChainSt := (s.outsideChains, s.chain[k])

section
variable {s t : State} {k : Fin 16}

theorem keeps_of_outsideChains (h : t.outsideChains = s.outsideChains) :
    t.core = s.core ∧ t.feeder k = s.feeder k ∧ t.chainCfg k = s.chainCfg k ∧ t.modEdge = s.modEdge :=
  ⟨congrArg (fun x => x.core) h, congrArg (fun x => x.feeder k) h, congrArg (fun x => x.chainCfg k) h,
    congrArg (fun x => x.modEdge) h⟩

theorem coefCrcOf_congr (hcfg : t.chainCfg k = s.chainCfg k) (hcoef : (t.chain[k]).coef = (s.chain[k]).coef) :
    t.coefCrcOf k = s.coefCrcOf k := by
  simp only [State.coefCrcOf, hcfg, hcoef]

end

/-- A change of another chain. -/
theorem vmod_chainView (s : State) {j k : Fin 16} (h : j ≠ k) (f : ChainSt → ChainSt) :
    ({ s with chain := vmod s.chain j f } : State).chainView k = s.chainView k :=
  Prod.ext rfl (vmod_getElem_ne s.chain h f)

theorem clearChain_chainView (s : State) {j k : Fin 16} (h : j ≠ k) (aligned : Bool) :
    (s.clearChain j aligned).chainView k = s.chainView k := by
  unfold State.clearChain
  split
  · rfl
  · exact vmod_chainView s h _

/-- Steps that each touch their own chain alone reach chain k as it was, and leave it as its step makes it. -/
theorem foldl_chains (f : State → Fin 16 → State) (hother : ∀ t {j k : Fin 16}, j ≠ k → (f t j).chainView k = t.chainView k)
    (s : State) (k : Fin 16) :
    ∃ (t : State) (l : List (Fin 16)), t.chainView k = s.chainView k ∧ (List.finRange 16).foldl f s = l.foldl f (f t k) ∧
      (l.foldl f (f t k)).chainView k = (f t k).chainView k := by
  have hkeep (l : List (Fin 16)) (hl : k ∉ l) (u : State) : (l.foldl f u).chainView k = u.chainView k :=
    List.foldlRecOn l f (motive := fun t => t.chainView k = u.chainView k) rfl
      fun t ht j hj => (hother t (ne_of_mem_of_not_mem hj hl)).trans ht
  obtain ⟨before, after, hsplit⟩ := List.append_of_mem (List.mem_finRange k)
  have hnodup := List.nodup_finRange 16
  rw [hsplit, List.nodup_middle, List.nodup_cons, List.mem_append, not_or] at hnodup
  obtain ⟨⟨hbefore, hafter⟩, -⟩ := hnodup
  exact ⟨before.foldl f s, after, hkeep before hbefore s, by rw [hsplit, List.foldl_append, List.foldl_cons],
    hkeep after hafter _⟩

end Sys2Proof.Machine
end

section
/-! A chain's output: a settled word that no flag marks (06 Table AFE-2, 07 R183, R192). -/

namespace Sys2Proof.Machine

theorem sayEpisode_unreported (s : State) (src : Src) (b e : Half) (r : Nat) (bo eo : Option Nat) (i : Nat) (sign : Bool)
    (x : Option (Option Nat)) : (s.sayEpisode src b e r bo eo i sign x).unreported = s.unreported := by
  match x with
  | none => rfl
  | some none => cases bo <;> rfl
  | some (some _) => cases eo <;> rfl

/-- A chain between two clears whose bits bring a sum with no run beyond full scale. -/
theorem chainOutput_of_feed {s : State} {k n : Fin 16} {c : ChainCfg} {bits : List Bool} {st : ChainSt} {y : Int}
    (hn : s.feeder k = some n) (hc : s.chainCfg k = some c) (hconv : s.converts = true) (hlen : bits.length = c.period)
    (hfeed : (s.chain[k]).feed c (s.corr n).1 (s.corr n).2 bits none none = (st, some y, none)) :
    s.chainOutput k { pre := [], bits := bits, parity := none, cal := false } = s.chainOut k n c st y none false false := by
  have hin : s.chainFeed k n c { pre := [], bits := bits, parity := none, cal := false } = (st, some y, none) := by
    simp only [State.chainFeed, ChainSt.watch, hfeed, Option.none_or]
    exact congrArg (fun ex => (st, some y, ex)) (ite_self _)
  simp [State.chainOutput, hn, hc, hconv, hlen, hin]

/-- The word of an output with every flag at 0. -/
theorem resultWord_unflagged (k : Fin 16) (v : Int) :
    resultWord false false false false k v = at_ k.val 24 ||| (BitVec.ofInt 24 v).setWidth 32 := by
  simp [resultWord, bitAt]

/-- A settled output within full scale delivers its sum and nothing but reports besides. -/
theorem chainOut_settled {s : State} {k n : Fin 16} {c : ChainCfg} {st : ChainSt} {y v : Int} (hv : v = rshift y c.finalShift)
    (hlow : -8388608 ≤ v) (hhigh : v ≤ 8388607) (hrem : st.remain = 0) (hpar : st.parityNext = false)
    (hburst : s.afe.burst = none) (hrun : s.mode.run = none) (hpos : s.afe.owPos.getLsbD n.val = false)
    (hneg : s.afe.owNeg.getLsbD n.val = false) (hlatch : s.afe.owLatch.getLsbD n.val = false) :
    ∃ st' : ChainSt, (s.chainOut k n c st y none false false).unreported =
        State.unreported { s with chain := vput s.chain k st' } ∧
      st'.out = at_ k.val 24 ||| (BitVec.ofInt 24 v).setWidth 32 ∧ st'.stamp = s.time.dt ∧ st'.winCount = st.winCount + 1 := by
  subst hv
  refine ⟨_, (sayEpisode_unreported ..).trans (sayEpisode_unreported ..), ?_, rfl, rfl⟩
  have hclamp : max (-8388608) (min 8388607 (rshift y c.finalShift)) = rshift y c.finalShift := by omega
  have hstep9 : s.inStep9 = false := by simp only [State.inStep9, hrun]
  have hflags : (s.afe.owPos.getLsbD n.val || s.afe.owNeg.getLsbD n.val || s.afe.owLatch.getLsbD n.val) = false := by
    rw [hpos, hneg, hlatch]; rfl
  simp only [hflags, hclamp, hrem, hpar, hburst, hstep9, decide_eq_false (Int.not_lt.2 hlow), decide_eq_false (Int.not_lt.2 hhigh)]
  exact resultWord_unflagged k _

theorem primeEnd_of_idle {s : State} (h : s.mode.run = none) : s.primeEnd = s := by
  simp only [State.primeEnd, h]

end Sys2Proof.Machine
end

section
/-! A synchronising reset (07 R189, R193 to R195). -/

namespace Sys2Proof.Machine

theorem clear_sync (st : ChainSt) (n edge : Nat) :
    (st.clear n edge true).int0 = 0 ∧ (st.clear n edge true).remain = n ∧ (st.clear n edge true).aligned = true ∧
      (st.clear n edge true).clears = if st.clearedAt = some edge then st.clears else satInc st.clears := by
  simp [ChainSt.clear]

/-- A synchronising reset at one chain: it is cleared where the mask names it and a channel feeds it. -/
def State.syncAt (mask : BitVec 16) (t : State) (k : Fin 16) : State :=
  if mask.getLsbD k.val && (t.feeder k).isSome then t.clearChain k true else t

theorem syncReset_eq (s : State) (mask : BitVec 16) : s.syncReset mask = (List.finRange 16).foldl (State.syncAt mask) s := rfl

theorem syncAt_other (mask : BitVec 16) (t : State) {j k : Fin 16} (h : j ≠ k) :
    (t.syncAt mask j).chainView k = t.chainView k := by
  unfold State.syncAt
  split
  · exact clearChain_chainView t h true
  · rfl

theorem syncReset_chain {s : State} {k : Fin 16} {c : ChainCfg} (hc : s.chainCfg k = some c) (mask : BitVec 16) :
    (s.syncReset mask).chain[k] =
      if mask.getLsbD k.val && (s.feeder k).isSome then (s.chain[k]).clear c.unsettled s.modEdge true else s.chain[k] := by
  obtain ⟨t, l, ht, hfold, hl⟩ := foldl_chains (State.syncAt mask) (syncAt_other mask) s k
  obtain ⟨hout, hchain⟩ := Prod.mk.inj ht
  obtain ⟨-, hfeeder, hcfg, hedge⟩ := keeps_of_outsideChains (k := k) hout
  rw [syncReset_eq, hfold, (Prod.mk.inj hl).2, State.syncAt, hfeeder]
  split
  · rw [clearChain_of_chainCfg (hcfg.trans hc), vmod_getElem_same, hchain, hedge]
  · exact hchain

theorem chainsOn_getLsbD (s : State) (k : Fin 16) : s.chainsOn.getLsbD k.val = (s.feeder k).isSome := by
  rw [State.chainsOn, boolBits_getLsbD _ k.isLt]
  simp

/-- The chains that a write of FLT_SYNC clears: those it names that a channel feeds. -/
theorem syncMask_getLsbD (s : State) (v : Word) (k : Fin 16) :
    (fld v 0 16 &&& s.chainsOn).getLsbD k.val = (v.getLsbD k.val && (s.feeder k).isSome) := by
  rw [BitVec.getLsbD_and, chainsOn_getLsbD, fld, BitVec.getLsbD_extractLsb']
  simp

section
variable {s : State} {v : Word} (hv : fld v 0 16 ≠ 0)
include hv

theorem fltSync_done (hm : s.readyOrService = true) (hmask : fld v 0 16 &&& s.chainsOn ≠ 0) :
    s.fltSync v = s.syncDone (fld v 0 16 &&& s.chainsOn) 1 := by
  simp only [State.fltSync, if_neg hv, hm, Bool.not_true, Bool.false_eq_true, if_false, if_neg hmask]

theorem fltSync_denied (hm : s.readyOrService = false) : s.fltSync v = s.setReg R.fltSyncStat 1 := by
  simp only [State.fltSync, if_neg hv, hm, Bool.not_false, if_true]

end

end Sys2Proof.Machine
end

section
/-! The check of the coefficient memories (07 R197). -/

namespace Sys2Proof.Machine

/-- Chain k's coefficient memory is found changed. -/
def State.coefFault (t : State) (k : Fin 16) : State :=
  (((({ t with chain := vmod t.chain k (fun st => { st with coefSaid := true }) } : State).raiseSaf 4 k.val).evt R.fltEvt 4).say .flt
    0x8202 (BitVec.ofNat 32 k.val) 0 0 0)

/-- The check at one chain. -/
def State.coefCheckAt (t : State) (k : Fin 16) : State :=
  if (t.feeder k).isSome && !t.chain[k].coefSaid && t.coefCrcOf k != t.chain[k].crc then t.coefFault k else t

theorem coefCheck_eq (s : State) : s.coefCheck = (List.finRange 16).foldl State.coefCheckAt s := rfl

theorem coefCheckAt_other (t : State) {j k : Fin 16} (h : j ≠ k) : (t.coefCheckAt j).chainView k = t.chainView k := by
  unfold State.coefCheckAt
  split
  · exact vmod_chainView t h fun st => { st with coefSaid := true }
  · rfl

/-- The check of a coefficient memory has reported chain k: event bit, alarm, entry. -/
def State.CoefReported (k : Fin 16) (t : State) : Prop :=
  bit (t.reg R.fltEvt) 4 = true ∧ (4, k.val) ∈ t.saf.raised ∧
    ∃ e ∈ t.log.offered, e.code = 0x8202 ∧ e.source = 0x11 ∧ e.p0 = BitVec.ofNat 32 k.val

theorem coefFault_reports (t : State) (k : Fin 16) : (t.coefFault k).CoefReported k :=
  ⟨evt_bit _ _ (by decide), List.mem_append_right _ (List.mem_singleton.2 rfl), _,
    List.mem_append_right _ (List.mem_singleton.2 rfl), rfl, rfl, rfl⟩

/-- What is reported stays reported. -/
theorem coefCheckAt_reported {t : State} {k : Fin 16} (j : Fin 16) (h : t.CoefReported k) : (t.coefCheckAt j).CoefReported k := by
  unfold State.coefCheckAt
  split
  · obtain ⟨-, hraised, e, he, hentry⟩ := h
    exact ⟨evt_bit _ _ (by decide), List.mem_append_left _ hraised, e, List.mem_append_left _ he, hentry⟩
  · exact h

/-- With every memory as its baseline the check finds nothing. -/
theorem coefCheck_sound {s : State} (h : ∀ k : Fin 16, (s.feeder k).isSome = true → s.coefCrcOf k = (s.chain[k]).crc) :
    s.coefCheck = s := by
  refine foldl_keeps (fun t => t = s) State.coefCheckAt (fun t k ht => ?_) _ s rfl
  subst ht
  refine if_neg fun hbad => ?_
  simp only [Bool.and_eq_true, bne_iff_ne] at hbad
  exact hbad.2 (h k hbad.1.1)

section
variable {s : State} {k : Fin 16} (hfed : (s.feeder k).isSome = true) (hsaid : (s.chain[k]).coefSaid = false)
include hfed hsaid

/-- A fed chain not yet reported is reported if its memory differs from its baseline. -/
theorem coefCheckAt_own : s.coefCheckAt k = if s.coefCrcOf k ≠ (s.chain[k]).crc then s.coefFault k else s := by
  simp only [State.coefCheckAt, hfed, Bool.true_and, Bool.and_eq_true, bne_iff_ne]
  exact if_congr (and_iff_right (by rw [hsaid]; rfl)) rfl rfl

/-- The check finds chain k as it was, judges it, and keeps the verdict. -/
theorem coefCheck_visits :
    ∃ (t : State) (l : List (Fin 16)), t.chainView k = s.chainView k ∧ s.coefCheck = l.foldl State.coefCheckAt (t.coefCheckAt k) ∧
      s.coefCheck.chainView k = (t.coefCheckAt k).chainView k ∧
      t.coefCheckAt k = if s.coefCrcOf k ≠ (s.chain[k]).crc then t.coefFault k else t := by
  obtain ⟨t, l, ht, hfold, hl⟩ := foldl_chains State.coefCheckAt coefCheckAt_other s k
  obtain ⟨hout, hchain⟩ := Prod.mk.inj ht
  obtain ⟨-, hfeeder, hcfg, -⟩ := keeps_of_outsideChains (k := k) hout
  refine ⟨t, l, ht, hfold, (congrArg _ hfold).trans hl, ?_⟩
  rw [coefCheckAt_own (by rw [hfeeder, hfed]) (by rw [hchain, hsaid]), coefCrcOf_congr hcfg (by rw [hchain]), hchain]

/-- The check marks chain k by whether its memory differs from its baseline. -/
theorem coefCheck_chainView :
    s.coefCheck.chainView k = (s.outsideChains, { s.chain[k] with coefSaid := s.coefCrcOf k != (s.chain[k]).crc }) := by
  obtain ⟨t, l, ht, -, hview, hown⟩ := coefCheck_visits hfed hsaid
  obtain ⟨hout, hchain⟩ := Prod.mk.inj ht
  rw [hview, hown]
  split
  next hne => exact Prod.ext hout ((vmod_getElem_same t.chain k _).trans (by rw [hchain, bne_iff_ne.2 hne]))
  next heq => rw [ht, not_not.1 heq, bne_self_eq_false, ← hsaid]; rfl

theorem coefCheck_reports (h : s.coefCrcOf k ≠ (s.chain[k]).crc) : s.coefCheck.CoefReported k := by
  obtain ⟨t, l, -, hfold, -, hown⟩ := coefCheck_visits hfed hsaid
  rw [hfold, hown, if_pos h]
  exact foldl_keeps _ _ (fun u j hu => coefCheckAt_reported j hu) l _ (coefFault_reports t k)

/-- The check leaves the memory, and reports the chain exactly where the memory that it leaves differs from the baseline. -/
theorem coefCheck_judges :
    (s.coefCheck.chain[k]).coef = (s.chain[k]).coef ∧
      (s.coefCheck.coefCrcOf k ≠ (s.chain[k]).crc → (s.coefCheck.chain[k]).coefSaid = true ∧ s.coefCheck.CoefReported k) ∧
      (s.coefCheck.coefCrcOf k = (s.chain[k]).crc → (s.coefCheck.chain[k]).coefSaid = false) ∧ s.coefCheck.core = s.core := by
  obtain ⟨hout, hchain⟩ := Prod.mk.inj (coefCheck_chainView hfed hsaid)
  obtain ⟨hcore, -, hcfg, -⟩ := keeps_of_outsideChains (k := k) hout
  have hcoef : (s.coefCheck.chain[k]).coef = (s.chain[k]).coef := (congrArg ChainSt.coef hchain).trans rfl
  have hmark : (s.coefCheck.chain[k]).coefSaid = (s.coefCrcOf k != (s.chain[k]).crc) := (congrArg ChainSt.coefSaid hchain).trans rfl
  rw [coefCrcOf_congr hcfg hcoef, hmark, bne_iff_ne, bne_eq_false_iff_eq]
  exact ⟨hcoef, fun hne => ⟨hne, coefCheck_reports hfed hsaid hne⟩, id, hcore⟩

end

end Sys2Proof.Machine
end

section
/-! The rate monitor (07 R198). -/

namespace Sys2Proof.Machine

/-- The end of a window at one chain. -/
def State.rateCheckAt (t : State) (k : Fin 16) : State :=
  match t.feeder k, t.chainCfg k with
  | some _, some c =>
    let st := t.chain[k]
    let want := c.rate / 1000
    let bad := decide (want + 1 < st.winCount) || decide (st.winCount + 1 < want)
    let t1 := { t with chain := vput t.chain k { st with winCount := 0, rateBad := bad,
                                                         rateSaid := st.rateSaid || (bad && st.rateBad) } }
    if bad && st.rateBad && !st.rateSaid then
      ((t1.raiseSaf 5 k.val).evt R.fltEvt 5).say .flt 0x8203 (BitVec.ofNat 32 k.val) (BitVec.ofNat 32 st.winCount) 0 0
    else t1
  | _, _ => t

theorem rateCheck_eq (s : State) : s.rateCheck = (List.finRange 16).foldl State.rateCheckAt s := rfl

/-- Chain st after the end of a window in which c has it deliver its rate. -/
def ChainSt.windowEnd (st : ChainSt) (c : ChainCfg) : ChainSt :=
  let bad := decide (c.rate / 1000 + 1 < st.winCount) || decide (st.winCount + 1 < c.rate / 1000)
  { st with winCount := 0, rateBad := bad, rateSaid := st.rateSaid || (bad && st.rateBad) }

/-- A window's end changes the chain that is judged, and alarms and reports. -/
theorem rateCheckAt_chainView {t : State} {j : Fin 16} {c : ChainCfg} (hfed : (t.feeder j).isSome = true)
    (hc : t.chainCfg j = some c) (k : Fin 16) :
    (t.rateCheckAt j).chainView k = State.chainView k { t with chain := vput t.chain j ((t.chain[j]).windowEnd c) } := by
  obtain ⟨n, hn⟩ := Option.isSome_iff_exists.1 hfed
  simp only [State.rateCheckAt, hn, hc]
  split <;> rfl

theorem rateCheckAt_other (t : State) {j k : Fin 16} (h : j ≠ k) : (t.rateCheckAt j).chainView k = t.chainView k := by
  cases hn : t.feeder j with
  | none => simp only [State.rateCheckAt, hn]
  | some n =>
    cases hc : t.chainCfg j with
    | none => simp only [State.rateCheckAt, hn, hc]
    | some c =>
      exact (rateCheckAt_chainView (by rw [hn]; rfl) hc k).trans (vmod_chainView t h fun _ => (t.chain[j]).windowEnd c)

theorem rateCheck_chain {s : State} {k : Fin 16} {c : ChainCfg} (hfed : (s.feeder k).isSome = true) (hc : s.chainCfg k = some c) :
    (s.rateCheck).chain[k] = (s.chain[k]).windowEnd c := by
  obtain ⟨t, l, ht, hfold, hl⟩ := foldl_chains State.rateCheckAt rateCheckAt_other s k
  obtain ⟨hout, hchain⟩ := Prod.mk.inj ht
  obtain ⟨-, hfeeder, hcfg, -⟩ := keeps_of_outsideChains (k := k) hout
  have hjudged := rateCheckAt_chainView (by rw [hfeeder, hfed]) (hcfg.trans hc) k
  rw [rateCheck_eq, hfold, (Prod.mk.inj (hl.trans hjudged)).2, vput_getElem_same, hchain]

end Sys2Proof.Machine
end

section
/-! The statement of the architecture: filter chains (07). -/

namespace Sys2Proof.Machine

/-- Settles O10: a settled output by its word, the synchronising reset, the coefficient check and the rate monitor by the one step of the
fold over the chains that touches the chain in question. -/
theorem filterChainEventsTakeEffect : Obligations.FilterChainEventsTakeEffect := by
  refine ⟨fun s k n c bits st y hk hn hc hconv hrun hlen hfeed v hv hlow hhigh hrem hburst hpar hpos hneg hlatch => ?output,
    fun s v hon hv => ⟨fun hm hmask => ⟨_, next_regCmd hon (fltSync_done hv hm hmask), fun k c hc => ?sync⟩,
      fun hm => next_regCmd hon (fltSync_denied hv hm)⟩,
    fun s hconv h10 => ⟨fun hcrc => ?coefSound, fun k j x hfed hsaid => ?coefUpset⟩,
    fun s hconv h10 => ⟨_, congrArg Host.Outcome.next (when_of ?rateOn ..), fun k c hfed hc => ?rate⟩⟩
  case output =>
    obtain ⟨st', hst', hout, hstamp, hcount⟩ :=
      chainOut_settled (k := k) hv hlow hhigh hrem hpar hburst hrun hpos hneg hlatch
    obtain ⟨-, hchain, hcore, hfab⟩ := keeps_of_unreported hst'
    have hidle : (s.chainOut k n c st y none false false).mode.run = none :=
      (congrArg (fun x => x.mode.run) hst').trans hrun
    refine ⟨_, (within_next (decide_eq_true hk) _).trans (congrArg Host.Outcome.next
      ((congrArg State.primeEnd (chainOutput_of_feed hn hc hconv hlen hfeed)).trans (primeEnd_of_idle hidle))), ?_⟩
    rw [hchain, vput_getElem_same]
    exact ⟨hout, hstamp, hcount, fun j hj => vmod_getElem_ne s.chain hj.symm fun _ => st', hcore, hfab⟩
  case sync =>
    have hchain := syncReset_chain hc (fld v 0 16 &&& s.chainsOn)
    rw [syncMask_getLsbD] at hchain
    obtain ⟨hint, hremain, haligned, hclears⟩ := clear_sync s.chain[k] c.unsettled s.modEdge
    refine ⟨fun hbit hfed => ?_, fun hbit => hchain.trans (by simp [hbit])⟩
    replace hchain := hchain.trans (if_pos (by simp [hbit, hfed]))
    exact ⟨(congrArg ChainSt.int0 hchain).trans hint, (congrArg ChainSt.remain hchain).trans hremain,
      (congrArg ChainSt.aligned hchain).trans haligned, (congrArg ChainSt.clears hchain).trans hclears⟩
  case rateOn => simp [hconv, h10]
  case rate =>
    rw [rateCheck_chain hfed hc]
    exact ⟨rfl, rfl, rfl⟩
  case coefSound =>
    exact congrArg Host.Outcome.next ((when_of (by simp [hconv, h10]) ..).trans (coefCheck_sound hcrc))
  case coefUpset =>
    have hupset : (s.coefUpset (some (k, j, x))).chain[k] =
        { s.chain[k] with coef := (s.chain[k]).coef.set j.val ((s.chain[k]).coef.getD j.val 0 ^^^ x) } :=
      vmod_getElem_same s.chain k _
    obtain ⟨hcoef, hbad, hgood, hcore⟩ := coefCheck_judges (s := s.coefUpset (some (k, j, x))) (k := k) hfed
      ((congrArg ChainSt.coefSaid hupset).trans hsaid)
    rw [hupset] at hcoef hbad hgood
    exact ⟨_, congrArg Host.Outcome.next (when_of (by simp [hconv, h10]) ..), hcoef, hbad, hgood, hcore⟩

end Sys2Proof.Machine
end

section
/-! What settling leaves of the fabric's own state: all but the cells, the trip and close states, and the shadow (08 R202, R216, R658). -/

namespace Sys2Proof.Machine

/-- The fabric without what settling decides. -/
def FabSt.unsettled (f : FabSt) : FabSt :=
  { f with q := 0, low := 0, shadow := none, arb := 0, trip := 0, close := 0, tripOpened := 0, tripDt := FabSt.reset.tripDt }

theorem keeps_of_unsettled {f g : FabSt} (h : g.unsettled = f.unsettled) :
    g.tu = f.tu ∧ g.timer = f.timer ∧ g.bstRaw = f.bstRaw ∧ g.bst = f.bst ∧ g.rstReq = f.rstReq :=
  ⟨congrArg (fun x => x.tu) h, congrArg (fun x => x.timer) h, congrArg (fun x => x.bstRaw) h, congrArg (fun x => x.bst) h,
    congrArg (fun x => x.rstReq) h⟩

theorem sayRate_fab (s : State) (gap idx : Nat) (src : Src) (c : Half) (p0 p1 p2 p3 : Word) :
    (s.sayRate gap idx src c p0 p1 p2 p3).fab = s.fab :=
  (keeps_of_unreported (sayRate_unreported ..)).2.2.2

theorem freeBits_fab (n : Nat) (s : State) : (State.freeBits n s).2.fab = s.fab := by
  induction n generalizing s with
  | zero => rfl
  | succ n ih => exact ih s.free.2

theorem tripRise_unsettled (s : State) (c : FabCfg) (n : Fin 12) : (s.tripRise c n).fab.unsettled = s.fab.unsettled :=
  (congrArg FabSt.unsettled (sayRate_fab ..)).trans rfl

theorem tripFall_unsettled (s : State) (n : Fin 12) : (s.tripFall n).fab.unsettled = s.fab.unsettled :=
  (congrArg FabSt.unsettled (sayRate_fab ..)).trans rfl

theorem tripStage_unsettled (s : State) (c : FabCfg) (low cells : BitVec 256) :
    (s.tripStage c low cells).fab.unsettled = s.fab.unsettled := by
  unfold State.tripStage
  extract_lets now ranks s1
  split
  · rfl
  · refine foldl_proj (fun t : State => t.fab.unsettled) _ (fun t n => ?_) _ _
    dsimp only
    split
    · rfl
    · split
      · exact tripRise_unsettled ..
      · exact tripFall_unsettled ..

theorem settle_unsettled (s : State) : s.settle.fab.unsettled = s.fab.unsettled := by
  unfold State.settle State.settleWith
  split
  · rfl
  · split
    · extract_lets r t u
      have hr : r.2.fab.unsettled = s.fab.unsettled := by
        unfold r
        split
        · rfl
        · exact congrArg FabSt.unsettled (freeBits_fab ..)
      exact (tripStage_unsettled ..).trans hr
    · rfl

end Sys2Proof.Machine
end

section
/-! Threshold units (08 R205). -/

namespace Sys2Proof.Machine

/-- A fold that sets chosen bits, each from itself, over places that differ. -/
theorem foldl_setBit_each {w n : Nat} (hn : n ≤ w) (p : Fin n → Bool) (f : Fin n → Bool → Bool) {l : List (Fin n)} (hl : l.Nodup)
    (x : BitVec w) (u : Fin n) :
    (l.foldl (fun t i => if p i then setBit t i.val (f i (t.getLsbD i.val)) else t) x).getLsbD u.val =
      if u ∈ l ∧ p u = true then f u (x.getLsbD u.val) else x.getLsbD u.val := by
  induction l generalizing x with
  | nil => simp
  | cons i l ih =>
    obtain ⟨hi, hl⟩ := List.nodup_cons.1 hl
    rw [List.foldl_cons, ih hl]
    by_cases hu : u = i
    · subst hu
      by_cases hp : p u = true
      · simp [hi, hp, setBit_getLsbD _ (u.isLt.trans_le hn)]
      · simp [hp]
    · have hne : u.val ≠ i.val := fun h => hu (Fin.ext h)
      by_cases hp : p i = true
      · simp [hp, hu, hne, setBit_getLsbD _ (i.isLt.trans_le hn)]
      · simp [hp, hu]

section
variable {c : TuCfg} (habs : c.abs = false) (hbelow : c.below = false) {th data : Int} (was : Bool)
include habs hbelow

/-- A unit of DATA itself, above its threshold: the signal sets above the threshold, clears a 32nd of it below, and keeps its level
between. -/
theorem tuEval_plain :
    c.eval th data was = if th < data then true else if data ≤ th - (th.natAbs / 32 : Nat) then false else was := by
  simp [TuCfg.eval, habs, hbelow]

theorem tuEval_over (h : th < data) : c.eval th data was = true := (tuEval_plain habs hbelow was).trans (if_pos h)

theorem tuEval_under (h : data ≤ th) (h' : data ≤ th - (th.natAbs / 32 : Nat)) : c.eval th data was = false := by
  rw [tuEval_plain habs hbelow, if_neg (Int.not_lt.2 h), if_pos h']

theorem tuEval_between (h : data ≤ th) (h' : th - (th.natAbs / 32 : Nat) < data) : c.eval th data was = was := by
  rw [tuEval_plain habs hbelow, if_neg (Int.not_lt.2 h), if_neg (Int.not_le.2 h')]

end

/-- The signals of the threshold units after chain k's last output. -/
def State.tuTaken (s : State) (c : FabCfg) (k : Fin 16) : BitVec 64 :=
  (List.finRange 64).foldl (fun t u =>
    if c.tu[u].en && c.tu[u].chain == k then
      setBit t u.val ((c.tu[u]).eval (thValue (s.setWord s.fab.group u.val)) (thValue s.chain[k].out) (t.getLsbD u.val))
    else t) s.fab.tu

/-- An enabled unit of the chain takes the output; its signal depends on no other unit. -/
theorem tuTaken_getLsbD {s : State} {c : FabCfg} {k : Fin 16} {u : Fin 64} (hchain : (c.tu[u]).chain = k) (hen : (c.tu[u]).en = true) :
    (s.tuTaken c k).getLsbD u.val =
      (c.tu[u]).eval (thValue (s.setWord s.fab.group u.val)) (thValue s.chain[k].out) (s.fab.tu.getLsbD u.val) := by
  have hfold := foldl_setBit_each (Nat.le_refl 64) (fun u : Fin 64 => c.tu[u].en && c.tu[u].chain == k)
    (fun u was => (c.tu[u]).eval (thValue (s.setWord s.fab.group u.val)) (thValue s.chain[k].out) was) (List.nodup_finRange 64)
    s.fab.tu u
  rw [hchain, hen, beq_self_eq_true] at hfold
  exact hfold.trans (if_pos ⟨List.mem_finRange u, rfl⟩)

section
variable {s : State} {k : Fin 16} {c : FabCfg} {ch : ChainCfg} (hc : s.fabCfg = some c) (hch : s.chainCfg k = some ch)
  (h10 : s.mode.past10 = true) (hflag : bit (s.chain[k]).out 31 = false)
include hc hch h10 hflag

/-- An output without the flag of bit 31 is taken by its chain's threshold units and integrators, and is due no more. -/
theorem evalOutput_taken : ∃ integ, s.evalOutput k =
    { s with chain := vmod s.chain k (fun x => { x with due := false })
             fab := { s.fab with tu := s.tuTaken c k, integ := integ } } := by
  simp only [State.evalOutput, hc, hch, h10, hflag, Bool.false_and, Bool.not_true, Bool.or_false, Bool.false_eq_true, if_false]
  exact ⟨_, rfl⟩

theorem evalChain_keeps (hdue : s.evalDue k = true) :
    (s.evalChain k).core = s.core ∧ (s.evalChain k).chain = vmod s.chain k (fun x => { x with due := false }) ∧
      (s.evalChain k).fab.tu = s.tuTaken c k := by
  obtain ⟨integ, htaken⟩ := evalOutput_taken hc hch h10 hflag
  rw [State.evalChain, if_pos hdue, htaken]
  obtain ⟨-, hchain, hcore⟩ := keeps_of_outsideFabric (settle_outsideFabric _)
  obtain ⟨htu, -⟩ := keeps_of_unsettled (settle_unsettled _)
  exact ⟨hcore, hchain, htu⟩

end

end Sys2Proof.Machine
end

section
/-! Timers and BST inputs (08 R212, R213). -/

namespace Sys2Proof.Machine

/-- Timer n stands at x, and the fabric settles on it. -/
def State.timerMoved (s : State) (n : Fin 32) (x : TimerSt) : State :=
  State.settle { s with fab := { s.fab with timer := vput s.fab.timer n x } }

theorem timerMoved_timer (s : State) (n : Fin 32) (x : TimerSt) : (s.timerMoved n x).fab.timer[n] = x := by
  obtain ⟨-, htimer, -⟩ := keeps_of_unsettled (settle_unsettled { s with fab := { s.fab with timer := vput s.fab.timer n x } })
  exact (congrArg (fun v : Vector TimerSt 32 => v[n]) htimer).trans (vput_getElem_same ..)

section
variable {s : State} {n : Fin 32} {c : FabCfg} (hc : s.fabCfg = some c) (hon : s.fabOn = true) (hen : (c.timer[n]).en = true)
  (hreset : s.sig (c.timer[n]).reset = false)
include hc hon hen hreset

/-- An on-delay that is started raises its output at its preset. -/
theorem timerExpiry_onDelay (hmode : (c.timer[n]).mode = 0) (hstart : s.sig (c.timer[n]).start = true)
    (hout : (s.fab.timer[n]).out = false) :
    s.timerExpiry n = s.timerMoved n { cnt := s.setWord s.fab.group (112 + n.val), out := true } := by
  simp only [State.timerExpiry, hc, hon, hen, hreset, hmode, hstart, hout]
  rfl

/-- An off-delay that is no longer started drops its output at its preset. -/
theorem timerExpiry_offDelay (hmode : (c.timer[n]).mode = 1) (hstart : s.sig (c.timer[n]).start = false)
    (hout : (s.fab.timer[n]).out = true) :
    s.timerExpiry n = s.timerMoved n { cnt := s.setWord s.fab.group (112 + n.val), out := false } := by
  simp only [State.timerExpiry, hc, hon, hen, hreset, hmode, hstart, hout]
  rfl

end

/-- A level that BST pin n has held for its debounce time is taken while the fabric computes. -/
theorem bstChange_taken {s : State} (hon : s.fabOn = true) (n : Fin 12) (level : Bool) :
    (s.bstChange n level).fab.bstRaw = setBit s.fab.bstRaw n.val level ∧
      (s.bstChange n level).fab.bst = setBit s.fab.bst n.val (level ^^ bit (s.reg (R.fabBstCfg n.val)) 8) ∧
      (s.bstChange n level).core = s.core := by
  simp only [State.bstChange, hon, if_true]
  obtain ⟨-, -, hcore⟩ := keeps_of_outsideFabric (settle_outsideFabric _)
  obtain ⟨-, -, hraw, hbst, -⟩ := keeps_of_unsettled (settle_unsettled _)
  exact ⟨hraw, hbst, hcore⟩

theorem bstCfgWrite_taken {s : State} (hm : s.readyOrService = true) (n : Fin 12) (v : Word) :
    s.bstCfgWrite n v = s.setReg (R.fabBstCfg n.val) (v &&& 0x1FF) := if_pos hm

theorem bstCfgWrite_denied {s : State} (hm : s.readyOrService = false) (n : Fin 12) (v : Word) :
    s.bstCfgWrite n v = s.evt R.fabEvt 7 := if_neg (ne_true_of_eq_false hm)

end Sys2Proof.Machine
end

section
/-! Settings groups: the check of their CRCs, group requests, writes of a word (08 R225, R227, R228). -/

namespace Sys2Proof.Machine

/-- The search for an element that only one element meets finds it. -/
theorem find?_finRange_unique {n : Nat} {p : Fin n → Bool} {g : Fin n} (hg : p g = true) (honly : ∀ h, h ≠ g → p h = false) :
    (List.finRange n).find? p = some g := by
  cases hfind : (List.finRange n).find? p with
  | none => exact absurd hg (List.find?_eq_none.1 hfind g (List.mem_finRange g))
  | some h =>
    by_contra hne
    have hp := List.find?_some hfind
    rw [honly h fun e => hne (congrArg some e)] at hp
    exact Bool.false_ne_true hp

/-- An upset in the shadow's copy of group g, which the primary's CRC does not show. -/
def shadowUpset (upset : Option (Bool × Fin 4 × Fin 160 × Word)) (g : Fin 4) : Bool :=
  match upset with
  | some (false, h, _, x) => g == h && x != 0
  | _ => false

/-- The check finds group g different from its baseline, in the primary's copy or in the shadow's. -/
def State.groupDiffers (s : State) (upset : Option (Bool × Fin 4 × Fin 160 × Word)) (g : Fin 4) : Bool :=
  groupCrc s.fab.set[g] != s.fab.crc[g] || shadowUpset upset g

/-- A settings CRC found different: the entry with the CRC that the primary's copy gives, and Safe. -/
def State.settingsFault (s : State) (g : Fin 4) (crc : Word) : State :=
  (s.say .fab 0x8301 (BitVec.ofNat 32 (0x3F0 + g.val)) crc 0 0).withSafeCause 13 (BitVec.ofNat 32 (0x3F0 + g.val))

theorem groupDiffers_good {s : State} {g : Fin 4} (h : groupCrc s.fab.set[g] = s.fab.crc[g])
    (upset : Option (Bool × Fin 4 × Fin 160 × Word)) : s.groupDiffers upset g = shadowUpset upset g := by
  rw [State.groupDiffers, h, bne_self_eq_false, Bool.false_or]

section
variable {s : State} (hon : s.fabOn = true)
include hon

theorem setCrcCheck_eq (upset : Option (Bool × Fin 4 × Fin 160 × Word)) :
    s.setCrcCheck upset =
      ((List.finRange 4).find? ((s.settingUpset upset).groupDiffers upset)).elim (s.settingUpset upset) fun g =>
        if (s.settingUpset upset).safeDue 13 then s.settingUpset upset
        else (s.settingUpset upset).settingsFault g (groupCrc (s.settingUpset upset).fab.set[g]) := by
  unfold State.setCrcCheck
  rw [hon, if_neg (by decide)]
  extract_lets t sh
  have hsearch : (fun g => groupCrc t.fab.set[g] != t.fab.crc[g] || sh g) = t.groupDiffers upset := rfl
  rw [hsearch]
  cases (List.finRange 4).find? (t.groupDiffers upset) <;> rfl

/-- The check reports the one group that differs. -/
theorem setCrcCheck_finds {upset : Option (Bool × Fin 4 × Fin 160 × Word)} {g : Fin 4}
    (hdue : (s.settingUpset upset).safeDue 13 = false) (hg : (s.settingUpset upset).groupDiffers upset g = true)
    (honly : ∀ h, h ≠ g → (s.settingUpset upset).groupDiffers upset h = false) :
    s.setCrcCheck upset = (s.settingUpset upset).settingsFault g (groupCrc (s.settingUpset upset).fab.set[g]) := by
  rw [setCrcCheck_eq hon, find?_finRange_unique hg honly]
  exact if_neg (ne_true_of_eq_false hdue)

variable (hgood : ∀ g : Fin 4, groupCrc s.fab.set[g] = s.fab.crc[g])
include hgood

theorem setCrcCheck_sound : s.setCrcCheck none = s := by
  have hfind : (List.finRange 4).find? ((s.settingUpset none).groupDiffers none) = none :=
    List.find?_eq_none.2 fun g _ => ne_true_of_eq_false (groupDiffers_good (hgood g) none)
  rw [setCrcCheck_eq hon, hfind]
  rfl

variable (hdue : s.safeDue 13 = false) (g : Fin 4) (w : Fin 160) {x : Word}
include hdue

/-- A word upset in the shadow's copy of a group. -/
theorem setCrcCheck_shadow (hx : x ≠ 0) : s.setCrcCheck (some (false, g, w, x)) = s.settingsFault g s.fab.crc[g] := by
  rw [setCrcCheck_finds hon (upset := some (false, g, w, x)) (g := g) hdue
    ((groupDiffers_good (hgood g) _).trans ?own) fun h hne => (groupDiffers_good (hgood h) _).trans ?other]
  case own => simpa [shadowUpset] using hx
  case other => simp [shadowUpset, hne]
  exact congrArg (s.settingsFault g) (hgood g)

/-- A word upset in the primary's copy of a group so that its CRC changes. -/
theorem setCrcCheck_primary {ws : List Word} (hws : ws = (s.fab.set[g]).set w.val ((s.fab.set[g]).getD w.val 0 ^^^ x))
    (hbad : groupCrc ws ≠ s.fab.crc[g]) :
    s.setCrcCheck (some (true, g, w, x)) =
      State.settingsFault { s with fab := { s.fab with set := vput s.fab.set g ws } } g (groupCrc ws) := by
  have hown : (s.settingUpset (some (true, g, w, x))).fab.set[g] = ws := (vmod_getElem_same s.fab.set g _).trans hws.symm
  have hother {h : Fin 4} (hne : h ≠ g) : (s.settingUpset (some (true, g, w, x))).fab.set[h] = s.fab.set[h] :=
    vmod_getElem_ne s.fab.set hne.symm _
  rw [setCrcCheck_finds hon (upset := some (true, g, w, x)) (g := g) hdue ?differs
    fun h hne => groupDiffers_good ((congrArg groupCrc (hother hne)).trans (hgood h)) _, hown, hws]
  case differs =>
    rw [State.groupDiffers, hown, Bool.or_eq_true_iff, bne_iff_ne]
    exact .inl hbad
  rfl

end

theorem grpReqWrite_placed {s : State} {v : Word} (hv : bit v 31 = true) :
    s.grpReqWrite v = { s.setReg R.fabGrpReq (v &&& 3) with fab := { s.fab with grpReq := some (fin 3 (fldN v 0 2)) } } := if_pos hv

theorem fin_fldN_two (v : Word) : (fin 3 (fldN v 0 2)).val = v.toNat % 4 := by
  simp [fin, fldN, BitVec.extractLsb'_toNat]

/-- In Service a permitted word of an inactive group is written, with the group's baseline. -/
theorem setDataWrite_taken {s : State} {g : Fin 4} {w : Nat} {v : Word} (hg : g = fin 3 (fldN (s.reg R.fabSetSel) 0 2))
    (hw : w = fldN (s.reg R.fabSetSel) 8 8) (hm : s.mode.mode = .service) (hne : g ≠ s.fab.group) (hlt : w < 160)
    (hok : settingOk s.fab.set[g] w v = true) :
    s.setDataWrite v = { s with fab := { s.fab with
      set := vput s.fab.set g ((s.fab.set[g]).set w v), crc := vput s.fab.crc g (groupCrc ((s.fab.set[g]).set w v)) } } := by
  subst hg hw
  exact (if_pos hm).trans (if_pos ⟨hne, hlt, hok⟩)

theorem setDataWrite_denied {s : State} {g : Fin 4} (hg : g = fin 3 (fldN (s.reg R.fabSetSel) 0 2)) (v : Word)
    (h : s.mode.mode ≠ .service ∨ g = s.fab.group) : s.setDataWrite v = s.evt R.fabEvt 7 := by
  by_cases hm : s.mode.mode = .service
  · subst hg
    exact (if_pos hm).trans (if_neg fun hok => hok.1 (h.resolve_left (not_not.2 hm)))
  · exact if_neg hm

end Sys2Proof.Machine
end

section
/-! The statement of the architecture: events and settings of the protection fabric (08). -/

namespace Sys2Proof.Machine

/-- Settles O11: an output by the units that take it, a timer by its mode, the CRC check by the one group that differs, each write by
what permits it; settling after an event keeps what the event has set. -/
theorem fabricEventsAndSettingsTakeEffect : Obligations.FabricEventsAndSettingsTakeEffect := by
  refine ⟨fun s k c ch hk hc hch hon h10 hdue htick hstamp hflag => ?threshold, fun s n c hc hon hen hreset => ?timer,
    fun s n level hon => ⟨_, rfl, bstChange_taken hon n level⟩,
    fun s n v hon => ⟨fun hm => next_regCmd hon (bstCfgWrite_taken hm n v), fun hm => next_regCmd hon (bstCfgWrite_denied hm n v)⟩,
    fun s hon hgood => ⟨congrArg Host.Outcome.next (setCrcCheck_sound hon hgood),
      fun g w x hx hdue => congrArg Host.Outcome.next (setCrcCheck_shadow hon hgood hdue g w hx),
      fun g w x hdue hbad => congrArg Host.Outcome.next (setCrcCheck_primary hon hgood hdue g w rfl hbad)⟩,
    fun s v hon hv => ⟨_, fin_fldN_two v, next_regCmd hon (grpReqWrite_placed hv)⟩,
    fun s g w v hon hg hw => ⟨fun hm hne hlt hok => next_regCmd hon (setDataWrite_taken hg hw hm hne hlt hok),
      fun h => next_regCmd hon (setDataWrite_denied hg v h)⟩⟩
  case threshold =>
    have hnow : s.evalDue k = true := by
      simp only [State.evalDue, hon, hdue, htick, hstamp, decide_true, Bool.and_self]
    obtain ⟨hcore, hchain, htu⟩ := evalChain_keeps hc hch h10 hflag hnow
    refine ⟨_, within_next (decide_eq_true hk) _, hcore, hchain, fun u hu hen habs hbelow => ?_⟩
    dsimp only
    rw [htu, tuTaken_getLsbD hu hen]
    exact ⟨tuEval_over habs hbelow _, tuEval_under habs hbelow _, tuEval_between habs hbelow _⟩
  case timer =>
    refine ⟨fun hmode hstart hout => ⟨_, rfl, ?_⟩, fun hmode hstart hout => ⟨_, rfl, ?_⟩⟩
    · rw [timerExpiry_onDelay hc hon hen hreset hmode hstart hout, timerMoved_timer]
    · rw [timerExpiry_offDelay hc hon hen hreset hmode hstart hout, timerMoved_timer]

end Sys2Proof.Machine
end

section
/-! The trip-reset pulse (08 R215). -/

namespace Sys2Proof.Machine

section
variable {s : State} {c : FabCfg} (hc : s.fabCfg = some c) {v : Word}
include hc

/-- With the key, the latched records that the write names wait for the next tick. -/
theorem tripRstWrite_key (hon : s.fabOn = true) (hkey : fld v 16 16 = 0x7E51) :
    s.tripRstWrite v = { s with fab := { s.fab with rstReq := s.fab.rstReq ||| c.latchedMask (fld v 0 12) } } := by
  simp only [State.tripRstWrite, hc]
  exact if_pos ⟨hkey, hon⟩

theorem tripRstWrite_noKey (hkey : fld v 16 16 ≠ 0x7E51) : s.tripRstWrite v = s := by
  simp only [State.tripRstWrite, hc]
  exact if_neg fun h => hkey h.1

end

theorem latchedMask_zero (c : FabCfg) : c.latchedMask 0 = 0 := by
  simp only [FabCfg.latchedMask, BitVec.ofNat_eq_ofNat, BitVec.getLsbD_zero, Bool.false_and]
  rfl

/-- The fabric settled under the pulse of the records of m. -/
def State.pulsed (s : State) (m : BitVec 12) : State := State.settle { s with fab := { s.fab with rstReq := 0, pulse := m } }

theorem pulsed_rstReq (s : State) (m : BitVec 12) : (s.pulsed m).fab.rstReq = 0 :=
  (keeps_of_unsettled (settle_unsettled _)).2.2.2.2

/-- At a tick without a rise of a RESET_SIG the records named by the register are pulsed: those still tripped then are refused, the
pulse stays for the others, and one entry reports both. -/
theorem tripResetTick_register (s : State) (c : FabCfg) (h : c.latchedMask s.fab.rstReq ≠ 0) :
    s.tripResetTick c 0 =
      let m := c.latchedMask s.fab.rstReq
      let u := s.pulsed m
      let cleared := m &&& ~~~(m &&& u.fab.trip)
      State.say { u with fab := { u.fab with pulse := cleared } } .fab 0x2303 (cleared.setWidth 32)
        ((m &&& u.fab.trip).setWidth 32) 1 0 := by
  have hm : c.latchedMask 0 ||| c.latchedMask s.fab.rstReq = c.latchedMask s.fab.rstReq := by
    rw [latchedMask_zero]
    exact BitVec.zero_or
  simp only [State.tripResetTick, hm, if_neg h, if_pos (latchedMask_zero c)]
  rfl

theorem say_offered_getLast? (s : State) (src : Src) (code : Half) (p0 p1 p2 p3 : Word) :
    (s.say src code p0 p1 p2 p3).log.offered.getLast? = some (s.entry src code p0 p1 p2 p3) :=
  List.getLast?_concat

end Sys2Proof.Machine
end

section
/-! Contactor drivers, the comparison of the fabrics, and the read-back of the outputs (08 R222 to R224). -/

namespace Sys2Proof.Machine

/-- A mismatch at two edges is the first report of its cause. -/
theorem fabCmpEv_first {s : State} (hdue : s.safeDue 13 = false) (elem : BitVec 10) :
    s.fabCmpEv elem.toNat =
      (s.say .fab 0x8301 (elem.setWidth 32) (bitAt (s.sig elem) 0) 0 0).withSafeCause 13 (elem.setWidth 32) := by
  simp only [State.fabCmpEv, hdue, Bool.false_eq_true, if_false, BitVec.ofNat_toNat, BitVec.setWidth_eq, latchSafe_eq]

/-- The read-back index of an output stands for the output's own number (Table FAB-5). -/
theorem rbNumber_rbIndex {s : State} {out : Fin 36} {i : Nat} (h : s.rbIndex out = some i) : rbNumber i = out.val := by
  have hfeeders : s.part.feeders ≤ 12 := by cases s.part <;> decide
  have hout := out.isLt
  simp only [State.rbIndex] at h
  split at h
  · cases h
    exact if_pos (by omega)
  · split at h
    · cases h
      rw [rbNumber, if_neg (by omega), if_pos (by omega)]
      omega
    · split at h
      · cases h
        rw [rbNumber, if_neg (by omega), if_neg (by omega)]
        omega
      · cases h

/-- A read-back mismatch is the first report of its cause, with the level commanded and the one read. -/
theorem readbackEv_first {s : State} {out : Fin 36} {i : Nat} (hon : s.fabOn = true) (hdue : s.safeDue 14 = false)
    (hi : s.rbIndex out = some i) :
    s.readbackEv i = (State.say { s with fab := { s.fab with rbBad := setBit s.fab.rbBad i true } }
      .fab 0x8302 (BitVec.ofNat 32 out.val) (bitAt (s.commanded.getLsbD i) 0) (bitAt (!s.commanded.getLsbD i) 0) 0).withSafeCause 14
      (BitVec.ofNat 32 out.val) := by
  rw [← rbNumber_rbIndex hi]
  exact (if_pos hon).trans (if_neg (ne_true_of_eq_false hdue))

end Sys2Proof.Machine
end

section
/-! The statement of the architecture: trips and drivers (08). -/

namespace Sys2Proof.Machine

/-- Settles O12: the write by its key, the pulse by the records that settling under it leaves tripped, a driver's event by its being on,
each mismatch by the first report of its Safe cause. -/
theorem tripAndDriverEventsTakeEffect : Obligations.TripAndDriverEventsTakeEffect := by
  refine ⟨fun s v c hreg hc hon => ⟨fun hkey => next_regCmd hreg (tripRstWrite_key hc hon hkey),
      fun hkey => next_regCmd hreg (tripRstWrite_noKey hc hkey)⟩,
    fun s c m hm hne => ?pulse, fun s d ma hd => ⟨congrArg Host.Outcome.next (if_pos hd), congrArg Host.Outcome.next (if_pos hd)⟩,
    fun s elem hon hlow hhigh hdue => congrArg Host.Outcome.next ((when_of ?computes ..).trans (fabCmpEv_first hdue elem)),
    fun s out i hon hdue hi => congrArg Host.Outcome.next ?readback⟩
  case pulse =>
    subst hm
    rw [tripResetTick_register s c hne]
    exact ⟨_, _, rfl, say_offered_getLast? .., rfl, rfl, rfl, rfl, rfl, pulsed_rstReq .., rfl⟩
  case computes => simp [hon, hlow, hhigh]
  case readback =>
    rw [hi]
    exact readbackEv_first hon hdue hi

end Sys2Proof.Machine
end

section
/-! Loads that end their delay: the register file is all of the core that they change (12 R325 to R327). -/

namespace Sys2Proof.Machine

/-- Loads that write their registers change the register file alone. -/
theorem foldl_putAt_eq (l : List LoadSt) (c : CoreSt) :
    ∃ r, l.foldl (fun (d : CoreSt) x => d.putAt x.reg x.value) c = { c with r := r } := by
  refine foldl_keeps (fun d => ∃ r, d = { c with r := r }) _ ?_ l c ⟨c.r, rfl⟩
  rintro d x ⟨r, rfl⟩
  unfold CoreSt.putAt
  split
  · exact ⟨r, rfl⟩
  · exact ⟨_, rfl⟩

theorem passLoads_eq (c : CoreSt) : ∃ r, c.passLoads = { c with r := r, loads := (dueLoads c.loads).2 } := by
  obtain ⟨r, hr⟩ := foldl_putAt_eq (dueLoads c.loads).1 c
  exact ⟨r, congrArg (fun d : CoreSt => { d with loads := (dueLoads c.loads).2 }) hr⟩

end Sys2Proof.Machine
end

section
/-! COMMIT in scan context (09 R240): its bundle, and what it does. -/

namespace Sys2Proof.Machine

/-- A syllable with no operand and its unused fields 0 makes a legal bundle, unless it loads. -/
theorem sylBare_fine {s : State} {o : SylEnc} {n : Nat} {act : SylAct} (h : BundleReady s o []) (hext : o.ext = none)
    (hunused : unused o true true true true = true) (hload : loadDst [s.sylBare n act o] = []) :
    (s.sylBare n act o).Fine s.core.df := by
  obtain ⟨-, -, hguard, -, -, -, hue, -⟩ := h
  have hdst : bundleDst [s.sylBare n act o] ++ loadDst [s.sylBare n act o] = [] := hload
  refine ⟨hguard, ?legal, ?noX, ?words, ?hreg, hue, hdst ▸ List.nodup_nil, List.nodup_nil⟩
  case legal => simp [State.sylBare, State.sylB, Syl.regs, hunused]
  all_goals simp [State.sylBare, State.sylB, Syl.regs, State.sylBase, hext]

/-- COMMIT in scan context with its 300 cycles left: the apply tick is counted from the DT of the core's own cycle. -/
theorem commit_of_scan {s : State} {o : SylEnc} (h : BundleReady s o []) (hext : o.ext = none)
    (hunused : unused o true true true true = true) (hscan : s.core.scan = true) (hleft : s.scanCycle + 300 ≤ s.periodCyc) :
    exec (.commit o) s = .next { s.afterBundle (s.core.pc + 4) 6 (fun c => { c with scan := false }) with
      scan := { s.scan with
        phase := .commit
        commit := some { dt := BitVec.ofNat 64 ((s.coreDt + 89) / 10 * 10), issue := s.core.cyc, applied := false } } } := by
  have hone : (s.sylBare 6 .commit o).words = 1 := by simp [State.sylBare, State.sylB, Syl.regs, State.sylBase, hext]
  have hfault : s.closeBundle.sylFault (s.sylBare 6 .commit o) = none := if_pos hscan
  have hstore (t : State) (c : Bool) : State.sylStore s.core.pc c t (s.sylBare 6 .commit o) = t := ite_self _
  have hguard : (s.sylBare 6 .commit o).guard = true := h.2.2.1
  have hread : Reads.syl s.closeBundle.core (s.core.pc + 4) { s := s.closeBundle, loads := [], regs := [], preds := [] }
      (s.sylBare 6 .commit o) = { s := s.closeBundle, loads := [], regs := [], preds := [] } :=
    if_neg (by simp [hguard])
  refine congrArg Host.Outcome.next ?_
  rw [issue_ctl s o [] _ h (sylBare_fine h hext hunused rfl) hone rfl rfl hstore hfault rfl]
  simp only [hread, writes_nil]
  obtain ⟨r, hr⟩ := passLoads_eq s.closeBundle.core
  have hnow : ¬(s.closeBundle.withCore fun c => c.passLoads).periodCyc < (s.closeBundle.withCore fun c => c.passLoads).scanCycle + 300 := by
    simp only [State.scanCycle, State.withCore_core, hr]
    exact Nat.not_lt.2 hleft
  refine (if_neg hnow).trans ?_
  simp only [State.afterBundle, State.withCore, hr]
  rfl

end Sys2Proof.Machine
end

section
/-! The statement of the architecture: ERET, BREAK, ZISS and COMMIT (09, 12, 13). -/

namespace Sys2Proof.Machine

/-- An image whose sections are all empty: the scan period code is 0. -/
def emptyImage : Image :=
  { slot := false, seq := 0, build := [], hash := [], pwren := 0, periphHalf := false, afe := Vector.replicate 16 0,
    cmp := Vector.replicate 8 0, chain := Vector.replicate 16 (chainRec [] 0), fab := fabOf [], defGroup := 0,
    settings := Vector.replicate 4 [], recd := none, brm := Vector.replicate 4 (seqOf [] 0),
    rings := Vector.replicate 64 (ringOf [] 0), threads := Vector.replicate 64 (threadOf [] 0), mem := memOf [] [],
    scan := { period := 0, wcet := 0, entry := 0, codeLen := 0, codeCrc := 0, kernel := 0 }, harvest := [], umu := none,
    recDrain := 0, recDead := 0 }

/-- A scan in progress, 300 cycles after step 13, that is 100 ticks of DT, of which DT has still to count every one. -/
def scanAheadOfDt : State :=
  { State.reset with
    mode := { ModeSt.reset with mode := .ready, coreOn := true, past13 := true }
    cfg := { CfgSt.reset with img := some emptyImage }
    scan := { ScanSt.reset with run := true, phase := .execute }
    core := { CoreSt.reset with scan := true, cyc := 300 } }

/-- The COMMIT syllable, alone in its bundle. -/
def commitAlone : SylEnc := { pg := 0, stop := true, rd := 0, ra := 0, rb := 0, f := 0, ext := none }

theorem commitAlone_ready : BundleReady scanAheadOfDt commitAlone [] := by
  unfold BundleReady BundleStart
  decide

theorem scanAheadOfDt_left : scanAheadOfDt.scanCycle + 300 ≤ scanAheadOfDt.periodCyc := by decide

/-- Refutes O23: a COMMIT of a core whose cycles have run ahead of DT has its apply tick 80 ticks after the DT of its own cycle, at 180,
where the statement asks for 80 ticks after the DT that the part has reached, at 80. -/
theorem not_eretBreakZissAndCommitTakeEffect : ¬ Obligations.EretBreakZissAndCommitTakeEffect := by
  rintro ⟨-, -, -, hcommit⟩
  have hasked := hcommit scanAheadOfDt commitAlone commitAlone_ready rfl rfl rfl rfl rfl rfl scanAheadOfDt_left
  have hdone := commit_of_scan commitAlone_ready rfl rfl rfl scanAheadOfDt_left
  have hsame := congrArg (fun t : State => t.scan.commit.map CommitSt.dt) (Host.Outcome.next.inj (hdone.symm.trans hasked))
  have h180 : some (180 : DWord) = some 80 := hsame
  exact absurd h180 (by decide)

end Sys2Proof.Machine
end

section
/-! Words of DTCM and of the stored registers after an update (Machine/Bits.lean). -/

namespace Sys2Proof.Machine

section
variable {α : Type} [DecidableEq α] {d : α}

/-- An update leaves every other key, in whatever form the map is. -/
theorem mget_mset_of_ne (m : List (Nat × α)) {k j : Nat} (v : α) (h : j ≠ k) : mget d (mset d m k v) j = mget d m j := by
  induction m with
  | nil => simp only [mset]; split <;> simp [mget, h]
  | cons c t ih =>
    simp only [mset]
    split
    · split <;> simp [mget, h]
    · split
      next hk =>
        have hj : j ≠ c.1 := hk ▸ h
        split <;> simp [mget, h, hj]
      · simp [mget, ih]

/-- A listed value is read back, in whatever form the map is. -/
theorem mget_mset_same (m : List (Nat × α)) (k : Nat) {v : α} (h : v ≠ d) : mget d (mset d m k v) k = v := by
  induction m with
  | nil => simp [mset, h, mget]
  | cons c t ih =>
    simp only [mset, if_neg h]
    split
    · simp [mget]
    · split
      · simp [mget]
      next hk => simpa [mget, hk] using ih

end

theorem reg_setReg_of_ne (s : State) {o j : Nat} (v : Word) (h : j ≠ o) : (s.setReg o v).reg j = s.reg j := mget_mset_of_ne _ v h

theorem reg_setReg_same (s : State) (o : Nat) {v : Word} (h : v ≠ 0) : (s.setReg o v).reg o = v := mget_mset_same _ o h

/-- Bytes stored leave those outside their range. -/
theorem mget_mwrite_of_outside (m : List Host.Cell) (a : Nat) (l : List Byte) {k : Nat} (h : k < a ∨ a + l.length ≤ k) :
    mget 0 (mwrite 0 m a l) k = mget 0 m k := by
  induction l generalizing m a with
  | nil => rfl
  | cons b t ih =>
    rw [List.length_cons] at h
    rw [mwrite, ih _ _ (by omega), mget_mset_of_ne _ _ (by omega)]

/-- The first byte of a store is read back. -/
theorem mget_mwrite_head {m : List Host.Cell} (a : Nat) (b : Byte) (l : List Byte) (h : mwf 0 m = true) :
    mget 0 (mwrite 0 m a (b :: l)) a = b := by
  rw [mwrite, mget_mwrite_of_outside _ _ _ (.inl (Nat.lt_succ_self a)), mget_mset a a b h, if_pos rfl]

theorem mread_mwrite_of_outside (m : List Host.Cell) (a : Nat) (l : List Byte) {k n : Nat} (h : k + n ≤ a ∨ a + l.length ≤ k) :
    mread 0 (mwrite 0 m a l) k n = mread 0 m k n := by
  induction n generalizing k with
  | zero => rfl
  | succ n ih => rw [mread, mread, mget_mwrite_of_outside _ _ _ (by omega), ih (by omega)]

/-- What a store begins with is read back. -/
theorem mread_mwrite_begin {m : List Host.Cell} (a : Nat) (p l : List Byte) (h : mwf 0 m = true) :
    mread 0 (mwrite 0 m a (p ++ l)) a p.length = p := by
  induction p generalizing m a with
  | nil => rfl
  | cons b t ih => rw [List.length_cons, mread, List.cons_append, mget_mwrite_head a b _ h, mwrite, ih (a + 1) (mset_wf a b h)]

theorem wordLE_bytesLE (w : Word) : wordLE (bytesLE w) = w := by
  simp [wordLE, bytesLE, natLE]
  bv_omega

/-- The first word of a store to DTCM is read back. -/
theorem dtcmWord_of_mwrite {s : State} {m : List Host.Cell} {a : Nat} {w : Word} {ws : List Word} (h : mwf 0 m = true)
    (hs : s.mem.dtcm = mwrite 0 m a ((w :: ws).flatMap bytesLE)) : s.dtcmWord a = w := by
  have hread : mread 0 (mwrite 0 m a (bytesLE w ++ ws.flatMap bytesLE)) a 4 = bytesLE w := mread_mwrite_begin a (bytesLE w) _ h
  rw [State.dtcmWord, hs, List.flatMap_cons, hread, wordLE_bytesLE]

theorem length_flatMap_bytesLE (ws : List Word) : (ws.flatMap bytesLE).length = 4 * ws.length := by
  induction ws with
  | nil => rfl
  | cons w t ih =>
    have hw : (bytesLE w).length = 4 := rfl
    rw [List.flatMap_cons, List.length_append, ih, hw, List.length_cons]
    omega

end Sys2Proof.Machine
end

section
/-! The rings, the scheduler's choice and the flush of Zinik (14 R401 to R410, 15 R430, R437) leave the scan cycle, the scan core, the mode
and the time: one lemma for each operation. -/

namespace Sys2Proof.Machine

/-- The scan cycle, the scan core, the mode, the time. -/
def State.scanSide (s : State) : ScanSt × CoreSt × ModeSt × TimeSt := (s.scan, s.core, s.mode, s.time)

theorem keeps_of_scanSide {s t : State} (h : t.scanSide = s.scanSide) :
    t.scan = s.scan ∧ t.core = s.core ∧ t.mode = s.mode ∧ t.time = s.time :=
  ⟨congrArg (fun x => x.1) h, congrArg (fun x => x.2.1) h, congrArg (fun x => x.2.2.1) h, congrArg (fun x => x.2.2.2) h⟩

theorem scanSide_ite {c : Prop} [Decidable c] {a b s : State} (ha : a.scanSide = s.scanSide) (hb : b.scanSide = s.scanSide) :
    (if c then a else b).scanSide = s.scanSide := by
  split
  · exact ha
  · exact hb

@[simp] theorem evt_scanSide (s : State) (o i : Nat) : (s.evt o i).scanSide = s.scanSide := rfl
@[simp] theorem putRing_scanSide (s : State) (r : Fin 64) (x : RingSt) : (s.putRing r x).scanSide = s.scanSide := rfl
@[simp] theorem ringStat_scanSide (s : State) (r : Fin 64) (i : Nat) : (s.ringStat r i).scanSide = s.scanSide := rfl

@[simp] theorem sayKey_scanSide (s : State) (gap k : Nat) (src : Src) (c : Half) (p0 p1 p2 p3 : Word) :
    (s.sayKey gap k src c p0 p1 p2 p3).scanSide = s.scanSide := by
  rcases sayKey_cases s gap k src c p0 p1 p2 p3 with h | h
  · rw [h]
  · rw [h]
    rfl

@[simp] theorem sayRing_scanSide (s : State) (code : Half) (r : Fin 64) (p1 p2 p3 : Word) :
    (s.sayRing code r p1 p2 p3).scanSide = s.scanSide := sayKey_scanSide ..

@[simp] theorem reselect_scanSide (s old : State) : (s.reselect old).scanSide = s.scanSide := by
  have hevent (t : State) : (if t.preemptDue && !old.preemptDue then t.evt R.schEvt 0 else t).scanSide = t.scanSide :=
    scanSide_ite rfl rfl
  refine (hevent _).trans (scanSide_ite rfl ?_)
  split <;> rfl

@[simp] theorem setFlags_scanSide (s : State) (t : Fin 64) (v : Word) : (s.setFlags t v).scanSide = s.scanSide := reselect_scanSide ..

/-! One word, one item. -/

@[simp] theorem ringPut_scanSide (s : State) (r : Fin 64) (w : Word) : (s.ringPut r w).scanSide = s.scanSide := scanSide_ite rfl rfl

@[simp] theorem ringTake_scanSide (s : State) (r : Fin 64) : (s.ringTake r).2.scanSide = s.scanSide := by
  unfold State.ringTake
  dsimp only
  split
  · rfl
  · split <;> rfl

@[simp] theorem ringTakes_scanSide (s : State) (r : Fin 64) (n : Nat) : (s.ringTakes r n).2.scanSide = s.scanSide := by
  induction n generalizing s with
  | zero => rfl
  | succ n ih => exact (ih _).trans (ringTake_scanSide s r)

theorem ringItem_scanSide {s t : State} {r : Fin 64} {ws : List Word} (h : s.ringItem r = some (ws, t)) :
    t.scanSide = s.scanSide := by
  unfold State.ringItem at h
  split at h
  next => cases h
  next =>
    cases h
    exact ringTakes_scanSide ..

@[simp] theorem feedItem_scanSide (s : State) (r : Fin 64) : (s.feedItem r).scanSide = s.scanSide := by
  unfold State.feedItem
  split
  next => rfl
  next h =>
    have ht := ringItem_scanSide h
    exact scanSide_ite (by simpa using ht) (by simpa using ht)
  next h => simpa using ringItem_scanSide h

@[simp] theorem ringExists_scanSide (s : State) (r : Fin 64) (ws : List Word) : (s.ringExists r ws).scanSide = s.scanSide := by
  unfold State.ringExists
  extract_lets c was s1 x s2 s3 _ s4
  have hput : s2.scanSide = s.scanSide := foldl_proj State.scanSide _ (fun t w => ringPut_scanSide t r w) ws s
  have hflag : s3.scanSide = s.scanSide := scanSide_ite (by simpa using hput) hput
  have hien : s4.scanSide = s.scanSide := scanSide_ite hflag hflag
  exact scanSide_ite (by simpa using hien) hien

/-! The producer port. -/

@[simp] theorem tornReport_scanSide (s : State) (r : Fin 64) (port : Fin 5) : (s.tornReport r port).scanSide = s.scanSide := by
  unfold State.tornReport
  dsimp only
  split
  · rfl
  · simp

@[simp] theorem tearOpen_scanSide (s : State) (r : Fin 64) (port : Fin 5) : (s.tearOpen r port).scanSide = s.scanSide := by
  unfold State.tearOpen
  dsimp only
  split
  · rfl
  · simp

@[simp] theorem ringHdr_scanSide (s : State) (r : Fin 64) (port : Fin 5) (v : Word) : (s.ringHdr r port v).scanSide = s.scanSide := by
  unfold State.ringHdr
  extract_lets s1 n x h
  have hs1 : s1.scanSide = s.scanSide := by simp [s1]
  refine scanSide_ite rfl (scanSide_ite hs1 (scanSide_ite ?refused (scanSide_ite ?one ?more)))
  case refused => simpa using hs1
  case one => simpa using hs1
  case more => exact (putRing_scanSide ..).trans hs1

@[simp] theorem ringData_scanSide (s : State) (r : Fin 64) (port : Fin 5) (v : Word) :
    (s.ringData r port v).scanSide = s.scanSide := by
  unfold State.ringData
  refine scanSide_ite rfl ?_
  extract_lets x d
  split
  · exact scanSide_ite (by simp) rfl
  · rfl
  · simp

/-! Chains that Zinik flushes. -/

@[simp] theorem zvNotify_scanSide (s : State) (c : ZChain) (l : ZLink) (status : Word) :
    (s.zvNotify c l status).scanSide = s.scanSide := by
  unfold State.zvNotify
  extract_lets ctl t note _ s1 r
  have hs1 : s1.scanSide = s.scanSide := rfl
  exact scanSide_ite (by simpa using hs1) hs1

@[simp] theorem zvEnd_scanSide (s : State) (c : ZChain) (st index : Nat) (late : Bool) (flags : BitVec 6) (fpx : Bool) :
    (s.zvEnd c st index late flags fpx).scanSide = s.scanSide :=
  foldl_proj State.scanSide _ (fun t l => (zvNotify_scanSide (t.setReg _ _) c l _).trans rfl) _ s

@[simp] theorem zvEvt_scanSide (s : State) (st : Nat) (fpx err : Bool) : (s.zvEvt st fpx err).scanSide = s.scanSide :=
  scanSide_ite rfl rfl

@[simp] theorem zvFlush1_scanSide (s : State) (c : ZChain) : (s.zvFlush1 c).scanSide = s.scanSide := by
  simp [State.zvFlush1]

@[simp] theorem zvFlushQueue_scanSide (s : State) : s.zvFlushQueue.scanSide = s.scanSide :=
  foldl_proj State.scanSide _ zvFlush1_scanSide _ _

@[simp] theorem zvLeave_scanSide (s : State) (r : ZRun) : (s.zvLeave r).scanSide = s.scanSide := rfl

theorem zvFlushAll_scanSide (s : State) : s.zvFlushAll.scanSide = s.scanSide := by
  unfold State.zvFlushAll
  dsimp only
  split <;> simp

/-- The scan cycle with its view, its deferred stores and its commit dropped (R255). -/
def ScanSt.dropped (x : ScanSt) : ScanSt := { x with dirty := 0, deferred := [], commit := none }

/-- A scan that ends without a commit drops its view, its deferred stores and its commit; the core, the mode and the time stay. -/
theorem dropScan_keeps (s : State) :
    s.dropScan.scan = s.scan.dropped ∧ s.dropScan.core = s.core ∧ s.dropScan.mode = s.mode ∧ s.dropScan.time = s.time :=
  keeps_of_scanSide (zvFlushAll_scanSide { s with scan := s.scan.dropped })

end Sys2Proof.Machine
end

section
/-! A register write leaves the scan cycle (09): one lemma for each write that acts. A request for Dormant or Sentry alone stops the scans. -/

namespace Sys2Proof.Machine

theorem scan_ite {c : Prop} [Decidable c] {a b s : State} (ha : a.scan = s.scan) (hb : b.scan = s.scan) :
    (if c then a else b).scan = s.scan := by
  split
  · exact ha
  · exact hb

theorem scan_of_scanSide {s t : State} (h : t.scanSide = s.scanSide) : t.scan = s.scan := (keeps_of_scanSide h).1

@[simp] theorem sayKey_scan (s : State) (gap k : Nat) (src : Src) (c : Half) (p0 p1 p2 p3 : Word) :
    (s.sayKey gap k src c p0 p1 p2 p3).scan = s.scan := scan_of_scanSide (sayKey_scanSide ..)

@[simp] theorem sayRate_scan (s : State) (gap idx : Nat) (src : Src) (c : Half) (p0 p1 p2 p3 : Word) :
    (s.sayRate gap idx src c p0 p1 p2 p3).scan = s.scan := sayKey_scan ..

/-! The front end (06, 07). -/

@[simp] theorem clearChain_scan (s : State) (k : Fin 16) (aligned : Bool) : (s.clearChain k aligned).scan = s.scan := by
  unfold State.clearChain
  split <;> rfl

@[simp] theorem clearChannel_scan (s : State) (n : Fin 16) (keep : Bool) : (s.clearChannel n keep).scan = s.scan := clearChain_scan ..

theorem chCtlWrite_scan (s : State) (n : Fin 16) (v : Word) : (s.chCtlWrite n v).scan = s.scan :=
  scan_ite rfl (scan_ite rfl (scan_ite rfl rfl))

theorem owtGo_scan (s : State) (v : Word) : (s.owtGo v).scan = s.scan := scan_ite rfl (scan_ite rfl rfl)

@[simp] theorem abandonBurst_scan (s : State) : s.abandonBurst.scan = s.scan := by
  unfold State.abandonBurst
  split
  · rfl
  · exact forChans_proj State.scan _ _ _ fun t n => clearChannel_scan t n false

theorem fltSync_scan (s : State) (v : Word) : (s.fltSync v).scan = s.scan := by
  have hreset (mask : BitVec 16) : (s.syncReset mask).scan = s.scan :=
    foldl_proj State.scan _ (fun t k => scan_ite (clearChain_scan t k true) rfl) _ s
  exact scan_ite rfl (scan_ite rfl (scan_ite rfl (hreset _)))

theorem cmpCtlWrite_scan (s : State) (m : Fin 8) (v : Word) : (s.cmpCtlWrite m v).scan = s.scan := scan_ite rfl (scan_ite rfl rfl)

/-! The fabric (08). -/

@[simp] theorem settle_scan (s : State) : s.settle.scan = s.scan := congrArg (fun x => x.scan) (settle_outsideFabric s)

@[simp] theorem gateClose_scan (s : State) : s.gateClose.scan = s.scan := by
  refine foldl_proj State.scan _ (fun t n => ?_) _ s
  dsimp only
  exact scan_ite (sayRate_scan ..) rfl

@[simp] theorem settingWrite_scan (s : State) (g : Fin 4) (w : Nat) (v : Word) : (s.settingWrite g w v).scan = s.scan := scan_ite rfl rfl

theorem setDataWrite_scan (s : State) (v : Word) : (s.setDataWrite v).scan = s.scan := scan_ite (settingWrite_scan ..) rfl

theorem grpReqWrite_scan (s : State) (v : Word) : (s.grpReqWrite v).scan = s.scan := scan_ite rfl rfl

theorem bstCfgWrite_scan (s : State) (n : Fin 12) (v : Word) : (s.bstCfgWrite n v).scan = s.scan := scan_ite rfl rfl

theorem tripRstWrite_scan (s : State) (v : Word) : (s.tripRstWrite v).scan = s.scan := by
  unfold State.tripRstWrite
  split
  · rfl
  · exact scan_ite rfl rfl

@[simp] theorem forceShadow_scan (s : State) : s.forceShadow.scan = s.scan := scan_ite rfl (settle_scan _)

/-! The safety monitor (20). -/

@[simp] theorem latchWarm_scan (s : State) (cause : Fin 6) : (s.latchWarm cause).scan = s.scan := by
  unfold State.latchWarm
  split <;> rfl

theorem wdtViolation_scan (s : State) (kind : Nat) : (s.wdtViolation kind).scan = s.scan := scan_ite (latchWarm_scan ..) rfl

@[simp] theorem wdtKick_scan (s : State) (v : Word) : (s.wdtKick v).scan = s.scan :=
  scan_ite rfl (scan_ite rfl (scan_ite (wdtViolation_scan ..) (scan_ite (wdtViolation_scan ..) (scan_ite (wdtViolation_scan ..) rfl))))

@[simp] theorem wdtPause_scan (s : State) (b : Bool) : (s.wdtPause b).scan = s.scan := by
  unfold State.wdtPause
  split <;> rfl

theorem wdtCfgWrite_scan (s : State) (v : Word) : (s.wdtCfgWrite v).scan = s.scan := scan_ite rfl rfl

theorem degCfgWrite_scan (s : State) (v : Word) : (s.degCfgWrite v).scan = s.scan := scan_ite rfl rfl

theorem inject_scan (s : State) (key : Half) (t : Nat) : (s.inject key t).scan = s.scan :=
  scan_ite (scan_ite (wdtKick_scan ..) (scan_ite (forceShadow_scan _) rfl)) rfl

/-! The scheduler and the rings (14). -/

theorem noReady_scan (s : State) (t : Fin 64) : (s.noReady t).scan = s.scan := sayRate_scan ..

theorem schMaskWrite_scan (s : State) (v : Word) (denied : Bool) : (s.schMaskWrite v denied).scan = s.scan := by
  refine scan_ite rfl ?_
  split <;> rfl

theorem schWait_scan (s : State) (v : Word) (denied : Bool) : (s.schWait v denied).scan = s.scan := by
  refine scan_ite rfl ?_
  split
  · rfl
  · exact scan_ite rfl (scan_ite (noReady_scan ..) (scan_ite rfl rfl))

theorem schYield_scan (s : State) (v : Word) (denied : Bool) : (s.schYield v denied).scan = s.scan := by
  refine scan_ite rfl (scan_ite rfl ?_)
  split
  · rfl
  · split
    · exact noReady_scan ..
    · exact scan_ite rfl rfl

@[simp] theorem reselect_scan (s old : State) : (s.reselect old).scan = s.scan := scan_of_scanSide (reselect_scanSide ..)

theorem schCtlWrite_scan (s : State) (v : Word) : (s.schCtlWrite v).scan = s.scan := scan_ite (reselect_scan ..) rfl

theorem schBaseWrite_scan (s : State) (v : Word) : (s.schBaseWrite v).scan = s.scan := scan_ite rfl rfl

theorem schSlotWrite_scan (s : State) (t : Fin 64) (v : Word) : (s.schSlotWrite t v).scan = s.scan :=
  (reselect_scan ..).trans (scan_ite rfl (scan_ite rfl (scan_ite rfl rfl)))

theorem ringFlush_scan (s : State) (r : Fin 64) : (s.ringFlush r).scan = s.scan := by
  unfold State.ringFlush
  extract_lets s1 x isTorn torn s2
  have hs1 : s1.scan = s.scan :=
    scan_of_scanSide (foldl_proj State.scanSide _ (fun t p => tornReport_scanSide t r p) (List.finRange 5) s)
  clear_value s1
  exact scan_ite hs1 hs1

theorem ringCtlWrite_scan (s : State) (r : Fin 64) (v : Word) : (s.ringCtlWrite r v).scan = s.scan :=
  scan_ite ((ringFlush_scan ..).trans rfl) rfl

/-! Zinik (15). -/

@[simp] theorem zvMarks_scan (s : State) (scan : Bool) (index : Nat) (ms : List (ZLink × Nat × BitVec 6)) :
    (s.zvMarks scan index ms).scan = s.scan := by
  refine foldl_proj State.scan _ (fun t m => ?_) ms s
  have hmark (c : Prop) [Decidable c] (keep : Word) : (if c then t else t.orReg R.zveFpx keep).scan = t.scan := scan_ite rfl rfl
  have hrecord (u : State) (kind pc : Word) (tag elem : Byte) : (u.recordAexc scan kind pc tag elem).scan = u.scan := scan_ite rfl rfl
  exact scan_ite (hmark ..) ((hrecord ..).trans (hmark ..))

theorem zvRunEnd_scan (s : State) (st : Nat) (index : Option Nat) (late : Bool) (limit : Nat) :
    (s.zvRunEnd st index late limit).scan = s.scan := by
  unfold State.zvRunEnd
  split
  next => rfl
  next r _ =>
    extract_lets ms flags fpx at_ _ s1
    clear_value ms flags fpx at_
    have hs1 : s1.scan = s.scan := scan_ite rfl rfl
    have hend := scan_of_scanSide ((zvEvt_scanSide ((s1.zvMarks r.chain.scan at_ ms).zvEnd r.chain st (index.getD at_) late flags fpx) st
      fpx (flags.getLsbD 5 || flags.getLsbD 4)).trans (zvEnd_scanSide ..))
    exact hend.trans ((zvMarks_scan ..).trans hs1)

theorem zvAbortWrite_scan (s : State) (v : Word) : (s.zvAbortWrite v).scan = s.scan := by
  have habort : s.zvAbortRun.scan = s.scan := by
    unfold State.zvAbortRun
    split
    · rfl
    · exact scan_ite (zvRunEnd_scan ..) rfl
  have hrun (c : Prop) [Decidable c] : (if c then s.zvAbortRun else s).scan = s.scan := scan_ite habort rfl
  exact scan_ite (scan_ite ((scan_of_scanSide (zvFlushQueue_scanSide _)).trans (hrun _)) (hrun _)) rfl

end Sys2Proof.Machine
end

section
/-! A register write leaves the scan cycle: the recorder, the log, the flash, the keys, the interfaces, the debug port, the modes. -/

namespace Sys2Proof.Machine

/-! The recorder and the log (10, 11). -/

theorem recArm_scan (s : State) : s.recArm.scan = s.scan := by
  unfold State.recArm
  split
  · rfl
  · exact scan_ite rfl rfl

theorem recDisarm_scan (s : State) : s.recDisarm.scan = s.scan := by
  have hlost (t : State) (n : Fin 8) (recNo reason : Word) : (t.recLost n recNo reason).scan = t.scan :=
    scan_ite (b := t.recCount false) rfl rfl
  unfold State.recDisarm State.recDiscard
  split
  · rfl
  · exact scan_ite (hlost ..) rfl

@[simp] theorem flushTrigger_scan (s : State) : s.flushTrigger.scan = s.scan := by
  rcases flushTrigger_cases s with h | h | h <;> rw [h]

theorem logCtl_scan (s : State) (v : Word) : (s.logCtl v).scan = s.scan := scan_ite ((flushTrigger_scan _).trans rfl) rfl

theorem logClearWr_scan (s : State) (v : Word) : (s.logClearWr v).scan = s.scan := by
  refine scan_ite ?_ rfl
  split <;> rfl

theorem sweCode_scan (s : State) (v : Word) : (s.sweCode v).scan = s.scan := scan_ite rfl rfl

@[simp] theorem stageAll_scan (s : State) : s.stageAll.scan = s.scan := (keeps_of_withoutRecords (stageAll_withoutRecords s)).2.2.2

theorem putLine_scan {s t : State} {a : Area} {key : List Byte} {x : Nat} {pt : List Byte} {r : LineWrite}
    (h : s.putLine a key x pt = (r, t)) : t.scan = s.scan := by
  unfold State.putLine at h
  dsimp only at h
  split at h <;> cases h <;> rfl

theorem flushLines_scan (a : Area) (key : List Byte) (n : Nat) (s : State) : (s.flushLines a key n).1.scan = s.scan := by
  induction n generalizing s with
  | zero => rfl
  | succ n ih =>
    unfold State.flushLines
    split
    next => rfl
    next =>
      split
      next => rfl
      next =>
        split
        next =>
          split
          next h =>
            have ht := putLine_scan h
            exact (ih _).trans ht
          next h => exact putLine_scan h
        next =>
          split
          next =>
            dsimp only
            split
            next h =>
              have ht := putLine_scan h
              exact ht
            next h => exact putLine_scan h
          next => rfl

theorem flushN_scan (s : State) (n : Nat) : (s.flushN n).1.scan = s.scan := by
  unfold State.flushN
  split
  · rfl
  · exact flushLines_scan ..

theorem extendReserve_scan (s : State) (n : Nat) : (s.extendReserve n).scan = s.scan := by
  refine scan_ite ?_ rfl
  split <;> rfl

theorem doClear_scan (s : State) : s.doClear.scan = s.scan := by
  unfold State.doClear
  split
  · rfl
  · exact (putLine_scan rfl).trans rfl

@[simp] theorem flushAll_scan (s : State) : s.flushAll.scan = s.scan := by
  unfold State.flushAll
  extract_lets s0 s1 s2 r stop q
  have hstage : s0.scan = s.scan := stageAll_scan s
  have hclear : s1.scan = s.scan := scan_ite ((doClear_scan s0).trans hstage) hstage
  have hfirst : r.1.scan = s.scan := (flushN_scan ..).trans ((extendReserve_scan ..).trans hclear)
  have hsecond : q.1.scan = s.scan := (flushN_scan ..).trans hfirst
  exact scan_ite hstage (scan_ite hfirst (scan_ite hsecond hsecond))

/-! The Winter blocks and the UMU (16, 17). -/

theorem suOwner_scan (s : State) (u : Fin 2) (core : Bool) : (s.suOwner u core).scan = s.scan := by
  unfold State.suOwner
  rfl

theorem suHandover_scan (s : State) (u : Fin 2) : (s.suHandover u).scan = s.scan :=
  scan_ite (suOwner_scan ..) (scan_ite (suOwner_scan ..) rfl)

@[simp] theorem suChange_scan (s : State) (u : Fin 2) : (s.suChange u).scan = s.scan := scan_ite rfl (suHandover_scan s u)

theorem c2sGo_scan (s : State) : s.c2sGo.scan = s.scan := scan_ite rfl rfl

theorem s2cAck_scan (s : State) : s.s2cAck.scan = s.scan := scan_ite rfl rfl

theorem umuBillWrite_scan (s : State) (v : Word) : (s.umuBillWrite v).scan = s.scan :=
  scan_ite (scan_ite rfl (scan_ite rfl rfl)) rfl

theorem schedDataWrite_scan (s : State) (v : Word) : (s.schedDataWrite v).scan = s.scan := scan_ite (scan_ite rfl rfl) rfl

theorem schedCtlWrite_scan (s : State) (v : Word) : (s.schedCtlWrite v).scan = s.scan := by
  refine scan_ite ?_ rfl
  extract_lets _ s1
  have hs1 : s1.scan = s.scan := scan_ite (scan_ite rfl rfl) rfl
  exact scan_ite hs1 hs1

@[simp] theorem useDenied_scan (s : State) (core : Bool) : (s.useDenied core).scan = s.scan := scan_ite rfl rfl

theorem hmCfg_scan (s : State) (m : Fin 4) (core : Bool) (sel : BitVec 3) (pin : BitVec 2) (inv : Bool) (sig : BitVec 10) :
    (s.hmCfg m core sel pin inv sig).scan = s.scan := scan_ite rfl (useDenied_scan ..)

theorem presetGo_scan (s : State) (v : Word) : (s.presetGo v).scan = s.scan :=
  scan_ite (scan_ite rfl (useDenied_scan ..)) (useDenied_scan ..)

theorem withdraw_scan (s : State) (v : Word) : (s.withdraw v).scan = s.scan := scan_ite rfl rfl

/-! Entropy, keys, the mover (18, 19). -/

@[simp] theorem esuServe_scan (s : State) : s.esuServe.scan = s.scan := by
  have hgive (t : State) : t.esuGive.scan = t.scan := by
    unfold State.esuGive
    split
    · rfl
    · exact scan_ite (scan_ite rfl (scan_ite rfl rfl)) (scan_ite rfl (scan_ite rfl rfl))
  exact (hgive _).trans ((hgive _).trans ((hgive _).trans (hgive s)))

theorem esuCtl_scan (s : State) (v : Word) : (s.esuCtl v).scan = s.scan := by
  refine scan_ite rfl ?_
  extract_lets s1
  have hs1 : s1.scan = s.scan := scan_ite (scan_ite rfl rfl) rfl
  have hreseed (t : State) : t.reseedDue.scan = t.scan := scan_ite ((esuServe_scan _).trans rfl) rfl
  exact scan_ite ((hreseed _).trans hs1) hs1

theorem secCtl_scan (s : State) (v : Word) : (s.secCtl v).scan = s.scan := by
  refine scan_ite rfl ?_
  extract_lets s1
  have hs1 : s1.scan = s.scan := scan_ite (scan_ite rfl ((esuServe_scan _).trans rfl)) rfl
  have hgo (t : State) : t.secGo.scan = t.scan := scan_ite rfl (scan_ite rfl (scan_ite rfl (scan_ite rfl rfl)))
  exact scan_ite ((hgo _).trans hs1) hs1

@[simp] theorem clearVaultKey_scan (s : State) : s.clearVaultKey.scan = s.scan :=
  foldl_proj State.scan (fun t j => t.setReg (R.vaultKey j) 0) (fun _ _ => rfl) _ s

theorem vaultRefuse_scan (s : State) (slot : Fin 16) (op res : Nat) (role : BitVec 4) :
    (s.vaultRefuse slot op res role).scan = s.scan := (clearVaultKey_scan _).trans rfl

theorem vaultCmd_scan (s : State) (m : Master) (v : Word) : (s.vaultCmd m v).scan = s.scan := by
  unfold State.vaultCmd
  dsimp only
  split
  · exact scan_ite rfl (scan_ite (vaultRefuse_scan ..) (scan_ite (vaultRefuse_scan ..) (scan_ite (vaultRefuse_scan ..)
      (scan_ite (vaultRefuse_scan ..) ((clearVaultKey_scan _).trans rfl)))))
  · exact scan_ite rfl (scan_ite (vaultRefuse_scan ..) (scan_ite (vaultRefuse_scan ..) ((clearVaultKey_scan _).trans rfl)))
  · rfl

theorem movCtlWrite_scan (s : State) (c : Fin 8) (v : Word) : (s.movCtlWrite c v).scan = s.scan :=
  scan_ite (scan_ite (scan_ite rfl rfl) (scan_ite rfl (scan_ite rfl rfl))) (scan_ite rfl rfl)

theorem movAbort_scan (s : State) (c : Fin 8) (v : Word) : (s.movAbort c v).scan = s.scan := scan_ite rfl rfl

/-! Interfaces (21). -/

theorem canCtl_scan (s : State) (k : Fin 2) (v : Word) : (s.canCtl k v).scan = s.scan :=
  scan_ite rfl (scan_ite rfl (scan_ite rfl rfl))

theorem canTiming_scan (s : State) (k : Fin 2) (data : Bool) (v : Word) : (s.canTiming k data v).scan = s.scan :=
  scan_ite rfl (scan_ite rfl rfl)

theorem canAbort_scan (s : State) (k : Fin 2) (m : DWord) (onBus : Bool) : (s.canAbort k m onBus).scan = s.scan := by
  refine foldl_proj State.scan _ (fun t b => ?_) _ s
  exact scan_ite rfl (scan_ite rfl rfl)

theorem uartWrite_scan (s : State) (u : Fin 4) (v : Word) : (s.uartWrite u v).scan = s.scan := scan_ite rfl rfl

theorem spiWrite_scan (s : State) (k : Fin 2) (v : Word) : (s.spiWrite k v).scan = s.scan := scan_ite rfl rfl

theorem i2cCmd_scan (s : State) (k : Fin 2) (v : Word) : (s.i2cCmd k v).scan = s.scan := scan_ite rfl rfl

/-! The debug port (22). -/

theorem dbgCtl_scan (s : State) (m : Master) (v : Word) : (s.dbgCtl m v).scan = s.scan := by
  have hhalt (t : State) : (t.dbgHalt m).scan = t.scan := scan_ite rfl (scan_ite rfl (scan_ite rfl (wdtPause_scan ..)))
  have hresume (t : State) : (t.dbgResume m).scan = t.scan := scan_ite rfl (scan_ite rfl (scan_ite rfl (wdtPause_scan ..)))
  have hstep (t : State) : (t.dbgStep m).scan = t.scan := scan_ite rfl (scan_ite rfl (scan_ite rfl rfl))
  have hwarm (t : State) : (t.dbgWarm m).scan = t.scan := scan_ite rfl (scan_ite (latchWarm_scan ..) rfl)
  unfold State.dbgCtl
  extract_lets s1 s2 s3 s4
  have h1 : s1.scan = s.scan := scan_ite (hhalt s) rfl
  have h2 : s2.scan = s.scan := scan_ite ((hresume s1).trans h1) h1
  have h3 : s3.scan = s.scan := scan_ite ((hstep s2).trans h2) h2
  have h4 : s4.scan = s.scan := scan_ite ((hwarm s3).trans h3) h3
  exact scan_ite h4 h4

theorem dbgAuthCtl_scan (s : State) (v : Word) : (s.dbgAuthCtl v).scan = s.scan := by
  refine scan_ite rfl ?_
  extract_lets s1
  have hs1 : s1.scan = s.scan := scan_ite (scan_ite rfl ((esuServe_scan _).trans rfl)) rfl
  have hresult (t : State) (r : BitVec 3) : (t.dbgResult r).scan = t.scan := scan_ite rfl (sayRate_scan ..)
  have hgo (t : State) : t.dbgGo.scan = t.scan := scan_ite rfl (scan_ite rfl (scan_ite (hresult ..) (scan_ite (hresult ..) rfl)))
  exact scan_ite ((hgo _).trans hs1) hs1

@[simp] theorem dbgEnds_scan (s : State) : s.dbgEnds.scan = s.scan := scan_ite rfl rfl

theorem lockCmd_scan (s : State) (v : Word) : (s.lockCmd v).scan = s.scan := by
  have hstep (t : State) (key : Half) (sealed programmed : Bool) : (t.lockStep key sealed programmed).scan = t.scan :=
    scan_ite rfl (scan_ite (scan_ite (dbgEnds_scan _) rfl) rfl)
  unfold State.lockCmd
  split
  · exact hstep ..
  · exact hstep ..
  · rfl

theorem rfrWrite_scan (s : State) (v : Word) (programmed : Bool) : (s.rfrWrite v programmed).scan = s.scan := by
  refine scan_ite rfl (scan_ite ?_ rfl)
  extract_lets s1
  have hs1 : s1.scan = s.scan := flushAll_scan _
  have hrevoke (t : State) : (t.revokeAll.latchOpen 19).scan = t.scan := rfl
  exact scan_ite ((hrevoke _).trans ((dbgEnds_scan _).trans hs1)) hs1

/-! Modes, staging, the backup supply (03, 04, 05). -/

theorem stageCmd_scan (s : State) (m : Master) (cmd : Nat) : (s.stageCmd m cmd).scan = s.scan :=
  scan_ite rfl (scan_ite rfl (scan_ite (scan_ite rfl rfl) (scan_ite (scan_ite rfl rfl) (scan_ite (scan_ite rfl rfl) rfl))))

theorem resetReq_scan (s : State) (v : Word) : (s.resetReq v).scan = s.scan := scan_ite (latchWarm_scan ..) rfl

theorem bakCtl_scan (s : State) (v : Word) : (s.bakCtl v).scan = s.scan := scan_ite rfl rfl

end Sys2Proof.Machine
end

section
/-! The stores that a scan has deferred (09 R250): releasing them leaves none, whatever registers they write. -/

namespace Sys2Proof.Machine

/-! A mode request stops the scans, and leaves the deferred stores. -/

theorem modeGo_scan (s : State) (id : Nat) (m : Mode) : (s.modeGo id m).scan = s.scan := by
  have hleave : s.leaveService.scan = s.scan := scan_ite rfl rfl
  have hburst : (if m = .protect then s.leaveService.abandonBurst else s.leaveService).scan = s.scan :=
    scan_ite ((abandonBurst_scan _).trans hleave) hleave
  exact hburst

theorem deferred_ite {c : Prop} [Decidable c] {a b s : State} (ha : a.scan.deferred = s.scan.deferred)
    (hb : b.scan.deferred = s.scan.deferred) : (if c then a else b).scan.deferred = s.scan.deferred := by
  split
  · exact ha
  · exact hb

theorem modeReq_deferred (s : State) (req : Nat) : (s.modeReq req).scan.deferred = s.scan.deferred := by
  have hgo (t : State) (id : Nat) (m : Mode) : (t.modeGo id m).scan.deferred = t.scan.deferred :=
    congrArg ScanSt.deferred (modeGo_scan t id m)
  unfold State.modeReq
  refine deferred_ite rfl ?_
  extract_lets _ t m _ _ _ s2
  refine deferred_ite rfl (deferred_ite rfl (deferred_ite rfl (deferred_ite rfl (deferred_ite rfl (deferred_ite ?opens
    (deferred_ite (hgo ..) (deferred_ite (deferred_ite (hgo ..) rfl) (deferred_ite ?down rfl))))))))
  case opens => exact (hgo ..).trans (congrArg ScanSt.deferred (gateClose_scan t))
  case down =>
    have hburst := congrArg ScanSt.deferred (abandonBurst_scan (t.modeRes 5 0))
    exact hburst

/-! Writes that act, by block. -/

theorem actSys_deferred {s t : State} {m : Master} {o : Nat} {v : Word} (h : s.actSys m o v = some t) :
    t.scan.deferred = s.scan.deferred := by
  unfold State.actSys at h
  split at h <;> cases h
  · exact modeReq_deferred ..
  · exact congrArg ScanSt.deferred (resetReq_scan ..)
  · exact congrArg ScanSt.deferred (stageCmd_scan ..)
  · exact congrArg ScanSt.deferred (bakCtl_scan ..)

theorem actField_scan {s t : State} {o : Nat} {v : Word} (h : s.actField o v = some t) : t.scan = s.scan := by
  unfold State.actField at h
  dsimp only at h
  split_ifs at h <;> cases h
  · exact chCtlWrite_scan ..
  · exact owtGo_scan ..
  · exact cmpCtlWrite_scan ..
  · exact fltSync_scan ..
  · exact grpReqWrite_scan ..
  · exact setDataWrite_scan ..
  · exact tripRstWrite_scan ..
  · exact bstCfgWrite_scan ..

theorem actRec_scan {s t : State} {o : Nat} {v : Word} (h : s.actRec o v = some t) : t.scan = s.scan := by
  unfold State.actRec at h
  split at h <;> cases h
  · exact scan_ite (recArm_scan s) (recDisarm_scan s)
  · rfl
  · rfl
  · rfl
  · exact logCtl_scan ..
  · exact logClearWr_scan ..
  · exact sweCode_scan ..

theorem actSch_scan {s t : State} {m : Master} {denied : Bool} {o : Nat} {v : Word} (h : s.actSch m denied o v = some t) :
    t.scan = s.scan := by
  unfold State.actSch at h
  dsimp only at h
  split at h
  next =>
    split_ifs at h <;> cases h
    · exact schCtlWrite_scan ..
    · exact schBaseWrite_scan ..
    · exact schMaskWrite_scan ..
    · exact schWait_scan ..
    · exact schYield_scan ..
    · exact schSlotWrite_scan ..
    · exact scan_of_scanSide (setFlags_scanSide ..)
    · rfl
  next =>
    split at h
    next =>
      split at h <;> cases h
      · exact ringCtlWrite_scan ..
      · rfl
      · exact scan_of_scanSide (ringHdr_scanSide ..)
      · exact scan_of_scanSide (ringData_scanSide ..)
    next => cases h

theorem actSnt_scan {s t : State} {o : Nat} {v : Word} (h : s.actSnt o v = some t) : t.scan = s.scan := by
  unfold State.actSnt at h
  split at h
  next =>
    cases h
    exact hmCfg_scan ..
  next =>
    split at h <;> cases h
    · exact zvAbortWrite_scan ..
    · exact scan_ite (c2sGo_scan s) rfl
    · exact scan_ite (s2cAck_scan s) rfl
    · simp
    · exact umuBillWrite_scan ..
    · exact schedDataWrite_scan ..
    · exact schedCtlWrite_scan ..
    · exact presetGo_scan ..
    · exact withdraw_scan ..

theorem actKey_scan {s t : State} {m : Master} {o : Nat} {v : Word} (h : s.actKey m o v = some t) : t.scan = s.scan := by
  unfold State.actKey at h
  dsimp only at h
  split at h
  next =>
    split_ifs at h <;> cases h
    · exact movCtlWrite_scan ..
    · exact movAbort_scan ..
  next =>
    split at h <;> cases h
    · rfl
    · exact secCtl_scan ..
    · exact vaultCmd_scan ..
    · exact esuCtl_scan ..
    · exact degCfgWrite_scan ..
    · exact wdtCfgWrite_scan ..
    · exact wdtKick_scan ..
    · exact inject_scan ..

theorem actIfc_scan {s t : State} {m : Master} {o : Nat} {v : Word} (h : s.actIfc m o v = some t) : t.scan = s.scan := by
  unfold State.actIfc at h
  dsimp only at h
  split at h
  case h_8 => cases h
  all_goals split_ifs at h <;> cases h
  · exact canCtl_scan ..
  · exact canTiming_scan ..
  · exact canTiming_scan ..
  · exact canCtl_scan ..
  · exact canTiming_scan ..
  · exact canTiming_scan ..
  · exact uartWrite_scan ..
  · exact spiWrite_scan ..
  · exact i2cCmd_scan ..
  · rfl
  · rfl
  · exact dbgCtl_scan ..
  · rfl
  · exact dbgAuthCtl_scan ..
  · exact lockCmd_scan ..
  · exact rfrWrite_scan ..

theorem regAct_deferred {s t : State} {m : Master} {denied : Bool} {o : Nat} {v : Word} (h : s.regAct m denied o v = some t) :
    t.scan.deferred = s.scan.deferred := by
  unfold State.regAct at h
  dsimp only at h
  split_ifs at h
  · exact actSys_deferred h
  · exact congrArg ScanSt.deferred (actField_scan h)
  · exact congrArg ScanSt.deferred (actRec_scan h)
  · exact congrArg ScanSt.deferred (actSch_scan h)
  · exact congrArg ScanSt.deferred (actSnt_scan h)
  · exact congrArg ScanSt.deferred (actKey_scan h)
  · exact congrArg ScanSt.deferred (actIfc_scan h)

theorem pairWrite_scan (s : State) (o : Nat) (v : DWord) : (s.pairWrite o v).scan = s.scan := by
  refine scan_ite rfl ?_
  dsimp only
  split
  · rfl
  · rfl
  · exact (canAbort_scan ..).trans rfl
  · rfl

theorem regWrite_deferred (s : State) (r : RegRow) (m : Master) (denied : Bool) (o : Nat) (v : Word) :
    (s.regWrite r m denied o v).scan.deferred = s.scan.deferred := by
  refine deferred_ite rfl (deferred_ite (congrArg ScanSt.deferred (pairWrite_scan ..)) ?_)
  split
  next h => exact regAct_deferred h
  next => exact deferred_ite rfl rfl

/-! Stores. -/

theorem other_deferred (x : ScanSt) (l a : Nat) (bs : List Byte) : (x.other l a bs).deferred = x.deferred := by
  unfold ScanSt.other
  split <;> rfl

theorem sumOther_deferred (x : ScanSt) (l : Nat) : (x.sumOther l).deferred = x.deferred := by
  unfold ScanSt.sumOther
  split <;> rfl

theorem harvStore_deferred (s : State) (a : Nat) (bs : List Byte) : (s.harvStore a bs).scan.deferred = s.scan.deferred := by
  unfold State.harvStore
  extract_lets l x line _ x1
  have hx1 : x1.deferred = x.deferred := by
    unfold x1
    split
    · rfl
    · exact other_deferred ..
  exact (sumOther_deferred ..).trans ((other_deferred ..).trans hx1)

theorem storeNow_deferred (s : State) (m : Master) (denied : Bool) (size : Nat) (a v : Word) :
    (s.storeNow m denied size a v).scan.deferred = s.scan.deferred := by
  unfold State.storeNow
  dsimp only
  split
  case h_2 => exact harvStore_deferred ..
  case h_5 | h_6 =>
    split
    · exact regWrite_deferred ..
    · rfl
  all_goals rfl

/-- Every deferred store is released, and none comes after. -/
theorem releaseStores_deferred (s : State) : s.releaseStores.scan.deferred = [] :=
  foldl_proj (fun t : State => t.scan.deferred) _ (fun _ _ => storeNow_deferred ..) _ _

end Sys2Proof.Machine
end

section
/-! The scan core on its way into and out of a scan: registers written, loads flushed, the return to a frame (12 R322, R327, 13 R361, R364,
R365). -/

namespace Sys2Proof.Machine

theorem at_putAt (c : CoreSt) {i : Nat} (hi : i ≠ 0) (hlt : i < 164) (v : Word) (j : Nat) :
    (c.putAt i v).at j = if j = i then v else c.at j := by
  simp only [CoreSt.putAt, if_neg hi, CoreSt.at, Vector.getElem?_setIfInBounds]
  by_cases hj : j = i
  · subst hj
    simp [hlt]
  · simp [hj, Ne.symm hj]

theorem putAt_eq (c : CoreSt) (i : Nat) (v : Word) : ∃ r, c.putAt i v = { c with r := r } := by
  unfold CoreSt.putAt
  split
  · exact ⟨c.r, rfl⟩
  · exact ⟨_, rfl⟩

@[simp] theorem putAt_scan (c : CoreSt) (i : Nat) (v : Word) : (c.putAt i v).scan = c.scan := by
  obtain ⟨r, hr⟩ := putAt_eq c i v
  rw [hr]

@[simp] theorem putAt_bundle (c : CoreSt) (i : Nat) (v : Word) : (c.putAt i v).bundle = c.bundle := by
  obtain ⟨r, hr⟩ := putAt_eq c i v
  rw [hr]

theorem flushLoads_eq (c : CoreSt) : ∃ r, c.flushLoads = { c with r := r, loads := [] } := by
  obtain ⟨r, hr⟩ := foldl_putAt_eq c.loads c
  exact ⟨r, congrArg (fun d : CoreSt => { d with loads := [] }) hr⟩

theorem flushLoads_of_nil {c : CoreSt} (h : c.loads = []) : c.flushLoads = c := by
  have hnone : c.flushLoads = { c with loads := [] } := by rw [CoreSt.flushLoads, h, List.foldl_nil]
  rw [hnone, ← h]

/-- What a return to a frame leaves: PSR.SCAN as it is told, no bundle begun, the scan cycle (R361, R363). -/
structure Returned (s t : State) (scan : Bool) : Prop where
  scan : t.core.scan = scan
  bundle : t.core.bundle = s.core.bundle
  cycle : t.scan = s.scan

theorem freeWords_keeps (n : Nat) (s : State) : (State.freeWords n s).2.core = s.core ∧ (State.freeWords n s).2.scan = s.scan := by
  induction n generalizing s with
  | zero => exact ⟨rfl, rfl⟩
  | succ n ih => exact ih s.free.2

theorem frameAt_keeps (s : State) (f : Word) : (s.frameAt f).2.core = s.core ∧ (s.frameAt f).2.scan = s.scan := by
  unfold State.frameAt
  split
  · exact ⟨rfl, rfl⟩
  · exact freeWords_keeps 8 s

theorem frameDesc_keeps (s : State) (f : Word) (d : Nat) : (s.frameDesc f d).core = s.core ∧ (s.frameDesc f d).scan = s.scan := by
  unfold State.frameDesc
  split <;> exact ⟨rfl, rfl⟩

theorem putAts_keep (c : CoreSt) (i j k : Nat) (u v w : Word) :
    (((c.putAt i u).putAt j v).putAt k w).scan = c.scan ∧ (((c.putAt i u).putAt j v).putAt k w).bundle = c.bundle := by
  simp only [putAt_scan, putAt_bundle, and_self]

theorem cycles_returned {s t : State} {scan : Bool} (h : Returned s t scan) (n : Nat) : Returned s (t.cycles n) scan :=
  ⟨h.scan, h.bundle, h.cycle⟩

/-- An entry in place of a return leaves PSR.SCAN, the bundle and the scan cycle. -/
theorem toHandler_returned {s t : State} {scan : Bool} (h : Returned s t scan) (d : Nat) (x : Desc) (f k28 : Word) (level : BitVec 4)
    (cwp : BitVec 3) : Returned s (t.toHandler d x f k28 level cwp) scan := by
  obtain ⟨hscan, hbundle, hcycle⟩ := h
  unfold State.toHandler
  extract_lets _ c1
  obtain ⟨hscan1, hbundle1⟩ := putAts_keep c1 28 29 31 k28 (BitVec.ofNat 32 d) (if x.own then x.sp else f)
  have hc1 : c1.scan = scan ∧ c1.bundle = s.core.bundle := ⟨hscan, hbundle⟩
  clear_value c1
  exact ⟨hscan1.trans hc1.1, hbundle1.trans hc1.2, hcycle⟩

theorem returnTo_returned (s : State) (f k28 : Word) (scan : Bool) : Returned s (s.returnTo f k28 scan) scan := by
  obtain ⟨hcore, hscan⟩ := frameAt_keeps s f
  unfold State.returnTo
  generalize s.frameAt f = r at hcore hscan ⊢
  extract_lets _ ws t w c cwp old act _ c1 next chained c2
  have hbundle : r.2.core.bundle = s.core.bundle := congrArg CoreSt.bundle hcore
  have hc1 : c1.scan = scan ∧ c1.bundle = s.core.bundle := ⟨rfl, hbundle⟩
  have hc2 : c2.scan = scan ∧ c2.bundle = s.core.bundle := hc1
  clear_value chained c2 c1
  split
  next n level x =>
    obtain ⟨regs, hflush⟩ := flushLoads_eq (c1.putAt 30 (w 5))
    let u : State := { t with core := (c1.putAt 30 (w 5)).flushLoads }
    have hu : u.core.scan = scan ∧ u.core.bundle = s.core.bundle := by
      simp only [u, hflush]
      exact hc1
    obtain ⟨hcore, hcycle⟩ := frameDesc_keeps u f (32 + n)
    have hentry : Returned s (u.frameDesc f (32 + n)) scan := ⟨by rw [hcore]; exact hu.1, by rw [hcore]; exact hu.2, hcycle.trans hscan⟩
    exact cycles_returned (toHandler_returned hentry ..) 4
  next =>
    obtain ⟨hscan3, hbundle3⟩ := putAts_keep c2 28 29 30 (w 3) (w 4) (w 5)
    refine cycles_returned ?_ 10
    constructor
    case scan => exact (putAt_scan ..).trans (hscan3.trans hc2.1)
    case bundle => exact (putAt_bundle ..).trans (hbundle3.trans hc2.2)
    case cycle => exact hscan

/-- The interrupted context resumes: no scan, no bundle begun. -/
theorem resumeScan_keeps (s : State) : s.resumeScan.core.scan = false ∧ s.resumeScan.core.bundle = [] ∧
    s.resumeScan.scan = { s.scan with phase := .idle, redo := false, reexec := false } := by
  obtain ⟨hscan, hbundle, hcycle⟩ := returnTo_returned { s.withCore (fun c => { c with bundle := [], idle := [], df := false }) with
    scan := { s.scan with phase := .idle, redo := false, reexec := false } } s.scan.frame s.scan.efp false
  exact ⟨hscan, hbundle, hcycle⟩

theorem leaveScan_of_latch_none {s : State} (h : s.scan.latch = none) : s.leaveScan = s.resumeScan := by
  simp only [State.leaveScan, h]

end Sys2Proof.Machine
end

section
/-! How a scan ends: its commit's completion, an overrun, a discard (09 R242, R250, R253 to R257). -/

namespace Sys2Proof.Machine

/-- An applied commit completes: its deferred stores are released, and the interrupted context resumes. -/
theorem commitFinish_resumes {s : State} {c : CommitSt} (hcom : s.scan.commit = some c) (happ : c.applied = true)
    (hrun : s.running = true) :
    ∃ u : State, s.commitFinish = u.resumeScan ∧ u.scan.commit = none ∧ u.scan.missed = false ∧ u.scan.deferred = [] := by
  unfold State.commitFinish
  split
  next h => cases hcom.symm.trans h
  next d h =>
    cases hcom.symm.trans h
    rw [if_neg (by simp [happ, hrun])]
    extract_lets lim s1 s2 s3
    have hdeferred : s3.scan.deferred = [] := by simp [s3, s2, releaseStores_deferred]
    exact ⟨{ s3 with scan := { s3.scan with commit := none, missed := false, ovrPrev := false } }, rfl, rfl, rfl, hdeferred⟩

@[simp] theorem scnCount_scan (s : State) (lo : Nat) : (s.scnCount lo).scan = s.scan := scan_ite rfl rfl

@[simp] theorem scnCount_core (s : State) (lo : Nat) : (s.scnCount lo).core = s.core := by
  unfold State.scnCount
  dsimp only
  split <;> rfl

@[simp] theorem scnCount_time (s : State) (lo : Nat) : (s.scnCount lo).time = s.time := by
  unfold State.scnCount
  dsimp only
  split <;> rfl

/-- The scan whose deadline passes is abandoned, and the interrupted context resumes; where the scan before was abandoned so too, Safe
cause 10 is latched. -/
theorem overrun_resumes {s : State} (hscan : s.core.scan = true) (hlatch : s.scan.latch = none) :
    ∃ u : State, s.overrun = u.resumeScan ∧ u.scan = { s.scan.dropped with missed := true, ovrPrev := true } ∧
      (s.scan.ovrPrev = true → ∃ p, (10, p, s.time.dt) ∈ u.mode.safePend) := by
  obtain ⟨hdscan, -, -, hdtime⟩ := dropScan_keeps s
  unfold State.overrun
  rw [if_pos (by simp [hscan])]
  extract_lets seq s1 s2 lim s3
  have h1scan : s1.scan = s.scan.dropped := by simp [s1, hdscan]
  have h1time : s1.time = s.time := by simp [s1, hdtime]
  clear_value s1
  have h2scan : s2.scan = s.scan.dropped := by
    unfold s2
    split <;> exact h1scan
  have hpend (hprev : s.scan.ovrPrev = true) : ∃ p, (10, p, s.time.dt) ∈ s2.mode.safePend := by
    have h2 : s2 = s1.latchOpen 10 := if_pos hprev
    exact ⟨Config.freeWord s1.freeCtr, by simp [h2, h1time]⟩
  clear_value s2
  let u : State := { s3 with scan := { s3.scan with missed := true, ovrPrev := true } }
  have hu : u.scan = { s.scan.dropped with missed := true, ovrPrev := true } :=
    congrArg (fun x : ScanSt => { x with missed := true, ovrPrev := true }) h2scan
  have hnone : u.scan.latch = none := by
    rw [hu]
    exact hlatch
  exact ⟨u, leaveScan_of_latch_none hnone, hu, hpend⟩

/-- A discard where the scan can still execute again: what it drops, records and reports, before it is known whether the scan has been
entered. -/
theorem discard_again {s : State} (cause : Nat) (hin : s.inScan = true) (hleft : s.scanCycle + 300 + s.wcet ≤ s.periodCyc)
    (hre : s.scan.reexec = false) (hredo : s.scan.redo = false) :
    ∃ (u : State) (hist : List Nat) (r : Vector Word 164), u.scan = { s.scan.dropped with hist := hist } ∧
      u.core = { s.core with r := r, loads := [], bundle := [] } ∧
      (BitVec.ofNat 32 cause ≠ 0 → u.reg R.scnFault = BitVec.ofNat 32 cause) ∧ (s.core.pc ≠ 0 → u.reg R.scnFaultPc = s.core.pc) ∧
      (s.scan.latch = none → s.discard cause = { u with scan := { u.scan with redo := true } }) ∧
      (∀ l : List Word, s.scan.latch = some l → s.discard cause = { u with
        scan := { u.scan with reexec := true, latch := some (l.set 1 (l.getD 1 0 ||| 4)) }
        core := { u.core with cyc := u.core.cyc + 64 } }) := by
  obtain ⟨hdscan, hdcore, -, -⟩ := dropScan_keeps s
  obtain ⟨r, hflush⟩ := flushLoads_eq s.core
  unfold State.discard
  rw [if_neg (by simp [hin])]
  extract_lets _ _ pc seq c hist re s1 _ s2 s3
  have h1scan : s1.scan = s.scan.dropped := by simp [s1, hdscan]
  have h1core : s1.core = { s.core with r := r, loads := [], bundle := [] } := by simp [s1, hdcore, hflush]
  have hfault : c ≠ 0 → s1.reg R.scnFault = c := fun hc =>
    (reg_setReg_of_ne _ pc (by decide)).trans (reg_setReg_same _ R.scnFault hc)
  have hpc : pc ≠ 0 → s1.reg R.scnFaultPc = pc := fun h => reg_setReg_same _ R.scnFaultPc h
  clear_value s1
  have hlate : s3.scan = s2.scan ∧ s3.core = s1.core ∧ s3.regs = s1.regs := by
    unfold s3
    split <;> exact ⟨rfl, rfl, rfl⟩
  have hreg (o : Nat) : s3.reg o = s1.reg o := congrArg (fun m => mget 0 m o) hlate.2.2
  have hscan : s3.scan = { s.scan.dropped with hist := hist } :=
    hlate.1.trans (congrArg (fun x : ScanSt => { x with hist := hist }) h1scan)
  clear_value s3
  refine ⟨s3, hist, r, hscan, hlate.2.1.trans h1core, fun hc => (hreg _).trans (hfault hc), fun h => (hreg _).trans (hpc h),
    fun hnone => ?_, fun l hl => ?_⟩
  · rw [if_pos ⟨hleft, by simp [re, hre, hredo]⟩, hnone]
  · rw [if_pos ⟨hleft, by simp [re, hre, hredo]⟩, hl]
    rfl

end Sys2Proof.Machine
end

section
/-! The entry to a scan (09 R233 to R237; 12 R328; 13 R364, R365). -/

namespace Sys2Proof.Machine

/-- The scan entered with a latched image: the tail of `State.scanEntry` (`scanEntry_eq`). -/
def State.scanEntered (sb : State) (l : List Word) : State :=
  let s := sb.withCore (fun c => { c with idle := [] })
  let f := s.core.scanSp - 32
  let s2 := s.writeInput l
  let efp := s.core.efp
  let c := s.core
  let r := s2.free
  let s3 := r.2.pushFrame f sb.core.pc (r.1.toNat % 32)
  let at600 := s.scan.start + 600
  let c1 : CoreSt := { s3.core with efp := f, priv := true, ie := false, mask := 15, scan := true, uentry := false,
                                    cwp := c.cwp + 1, pc := s.scanEntryPc,
                                    cyc := if c.cyc + 14 < at600 then at600 else c.cyc + 14 }
  { s3 with
      core := ((c1.putAt 28 efp).putAt 29 0xFFFFFFFF).putAt 31 f,
      scan := { s3.scan with phase := .execute, latch := none, efp := efp, frame := f, cwp := c.cwp + 1, precise := c.precise } }

theorem scanEntry_eq {s : State} {l : List Word} {pu : BitVec 2} (hdue : s.scanDue = true) (hlatch : s.scanLatch.scan.latch = some l)
    (hloads : s.scanLatch.core.loads = []) (hwin : s.scanLatch.core.cwp + 1 ≠ s.scanLatch.core.rw)
    (hsp : pushOk s.scanLatch.core.scanSp = true) (hpu : pu.getLsbD 0 = false) : s.scanEntry pu = s.scanLatch.scanEntered l := by
  have hflush : s.scanLatch.withCore (fun c => { c.flushLoads with idle := [] }) = s.scanLatch.withCore (fun c => { c with idle := [] }) :=
    congrArg (fun c : CoreSt => s.scanLatch.withCore (fun _ => { c with idle := [] })) (flushLoads_of_nil hloads)
  unfold State.scanEntry
  rw [if_neg (by simp [hdue])]
  dsimp only
  rw [hlatch]
  dsimp only
  rw [hflush, if_neg (by simpa [CoreSt.wouldOverflow, State.withCore] using hwin), if_neg (by simpa [State.withCore, hsp] using hpu)]
  rfl

/-- The frame named in k28, k29 and k31 of a scan (R364). -/
def CoreSt.putFrame (c : CoreSt) (efp f : Word) : CoreSt := ((c.putAt 28 efp).putAt 29 0xFFFFFFFF).putAt 31 f

theorem putFrame_eq (c : CoreSt) (efp f : Word) : ∃ r, c.putFrame efp f = { c with r := r } := by
  obtain ⟨r28, h28⟩ := putAt_eq c 28 efp
  obtain ⟨r29, h29⟩ := putAt_eq (c.putAt 28 efp) 29 0xFFFFFFFF
  obtain ⟨r31, h31⟩ := putAt_eq ((c.putAt 28 efp).putAt 29 0xFFFFFFFF) 31 f
  exact ⟨r31, by rw [CoreSt.putFrame, h31, h29, h28]⟩

theorem at_putFrame (c : CoreSt) (efp f : Word) : (c.putFrame efp f).at 28 = efp ∧ (c.putFrame efp f).at 29 = 0xFFFFFFFF ∧
    (c.putFrame efp f).at 31 = f := by
  simp [CoreSt.putFrame, at_putAt]

/-- The context of a scan just entered: privileged, masked, its frame at SCAN_SP (R364). -/
theorem scanEntered_core (s : State) (l : List Word) : (s.scanEntered l).core = CoreSt.putFrame
    { s.core with
        idle := [], efp := s.core.scanSp - 32, priv := true, ie := false, mask := 15, scan := true, uentry := false,
        cwp := s.core.cwp + 1, pc := s.scanEntryPc,
        cyc := if s.core.cyc + 14 < s.scan.start + 600 then s.scan.start + 600 else s.core.cyc + 14 }
    s.core.efp (s.core.scanSp - 32) := by
  rfl

theorem scanEntered_regs (s : State) (l : List Word) : (s.scanEntered l).regs = s.regs := rfl

theorem scanEntered_scan (s : State) (l : List Word) : (s.scanEntered l).scan =
    { s.scan with phase := .execute, latch := none, efp := s.core.efp, frame := s.core.scanSp - 32, cwp := s.core.cwp + 1,
                  precise := s.core.precise } := rfl

/-- Where a frame may be stacked: in DTCM, aligned, off the input image (R358, R372). -/
theorem pushOk_iff (sp : Word) : pushOk sp = true ↔
    sp.toNat % 8 = 0 ∧ 0x10000020 ≤ sp.toNat ∧ sp.toNat ≤ 0x10040000 ∧ (sp.toNat ≤ 0x1003E000 ∨ 0x1003F020 ≤ sp.toNat) := by
  simp [pushOk, and_assoc]

theorem toNat_sub_frame {sp : Word} (h : 0x10000020 ≤ sp.toNat) : (sp - 32).toNat = sp.toNat - 32 := by
  bv_omega

/-- DTCM after the entry: the input image, then the frame, which begins with the interrupted pc (R234, R364). -/
theorem scanEntered_dtcm (s : State) (l : List Word) : ∃ ws : List Word, ws.length = 7 ∧ (s.scanEntered l).mem.dtcm =
    mwrite 0 (mwrite 0 s.mem.dtcm 0x3E000 (l.flatMap bytesLE)) ((s.core.scanSp - 32).toNat - 0x10000000)
      ((s.core.pc :: ws).flatMap bytesLE) := by
  refine ⟨[(s.core.psr &&& 0xFF) ||| bitAt s.core.uentry 8 ||| at_ ((Config.freeWord s.freeCtr).toNat % 32) 16, s.core.preds, s.core.at 28,
    s.core.at 29, s.core.at 30, s.core.at 31, s.core.wp], rfl, ?_⟩
  simp only [State.scanEntered, State.pushFrame, State.free, State.writeInput, State.withCore]
  rfl

/-- The frame stacked and the input image written are read back (R234, R364). -/
theorem scanEntered_words {s : State} {w : Word} {l : List Word} (hwf : mwf 0 s.mem.dtcm = true) (hsp : pushOk s.core.scanSp = true) :
    (s.scanEntered (w :: l)).dtcmWord (s.core.scanSp.toNat - 32 - 0x10000000) = s.core.pc ∧
      (s.scanEntered (w :: l)).dtcmWord 0x3E000 = w := by
  obtain ⟨-, hlow, -, hoff⟩ := (pushOk_iff _).1 hsp
  obtain ⟨ws, hlen, hmem⟩ := scanEntered_dtcm s (w :: l)
  rw [toNat_sub_frame hlow] at hmem
  have hframe : 0x3E000 + 4 ≤ s.core.scanSp.toNat - 32 - 0x10000000 ∨
      s.core.scanSp.toNat - 32 - 0x10000000 + ((s.core.pc :: ws).flatMap bytesLE).length ≤ 0x3E000 := by
    rw [length_flatMap_bytesLE, List.length_cons, hlen]
    omega
  have himage : (s.writeInput (w :: l)).dtcmWord 0x3E000 = w := dtcmWord_of_mwrite (ws := l) hwf rfl
  constructor
  · exact dtcmWord_of_mwrite (mwrite_keeps_wf _ _ _ hwf) hmem
  · rwa [State.dtcmWord, hmem, mread_mwrite_of_outside _ _ _ hframe]

/-- A scan whose entry has waited keeps its image. -/
theorem scanLatch_of_latched {s : State} (h : s.scan.latch.isSome = true) : s.scanLatch = s := by
  have hnow : s.boundaryNow = false := by
    cases hl : s.scan.latch <;> simp_all [State.boundaryNow]
  unfold State.scanLatch
  rw [if_pos (by simp [hnow])]

/-- The image of the scan counted, latched: the tail of `State.scanLatch` (`scanLatch_at_boundary`). -/
def State.imageLatched (s : State) : State :=
  { s with zve := { s.zve with scanFault := false },
           scan := { s.scan with phase := .latch, latch := some ((List.range 1024).map (fun i => s.inputWord s.scan.first i)),
                                 start := 3 * (s.time.dt - s.core.cycDt), latchDt := s.time.dt, first := false, reexec := false,
                                 hist := (0 :: s.scan.hist).take 16, deferSaid := false, rangeSaid := false, faultSaid := false } }

theorem zvSuspend_of_idle {s : State} (h : s.zve.run = none) : s.zvSuspend = s := by
  unfold State.zvSuspend
  split
  · rfl
  next hrun => cases h.symm.trans hrun

/-- The latch instant counts the scan and latches its image (R233, R234). -/
theorem scanLatch_at_boundary {s : State} (hnow : s.boundaryNow = true) (hstart : s.mode.starting = false) (hedge : s.fab.edgeDone = true)
    (hrun : s.zve.run = none) : s.scanLatch = (s.setReg R.scnSeq (s.reg R.scnSeq + 1)).imageLatched := by
  have hedgeNow : s.edgeNow = s := if_pos (by simp [hedge])
  have hend : s.edgeNow.endStart = s := (congrArg State.endStart hedgeNow).trans (if_neg (by simp [hstart]))
  have hlatch : s.scanLatch =
      (s.edgeNow.endStart.setReg R.scnSeq (s.edgeNow.endStart.reg R.scnSeq + 1)).zvSuspend.imageLatched := if_neg (by simp [hnow])
  rw [hlatch, hend, zvSuspend_of_idle (s := s.setReg R.scnSeq (s.reg R.scnSeq + 1)) hrun]

/-- The image latched begins with the scan's number. -/
theorem imageLatched_latch (s : State) : ∃ l, s.imageLatched.scan.latch = some (s.reg R.scnSeq :: l) :=
  ⟨(List.range 1023).map (fun i => s.inputWord s.scan.first (i + 1)), by
    rw [State.imageLatched, List.range_succ_eq_map, List.map_cons, List.map_map]
    rfl⟩

/-- A scan whose entry waits for no image reaches its latch instant. -/
theorem boundaryNow_of_scanDue {s : State} (hdue : s.scanDue = true) (hlatch : s.scan.latch = none) : s.boundaryNow = true := by
  simp only [State.scanDue, hlatch, Bool.and_eq_true, Option.isSome_none, Bool.false_or] at hdue
  exact hdue.2

/-- A stacking fault at the entry to a scan locks the core up and stacks nothing (R358, R371). -/
theorem scanEntry_lockup {s : State} {pu : BitVec 2} (hdue : s.scanDue = true) (hlatch : s.scan.latch.isSome = true)
    (hwin : s.core.cwp + 1 ≠ s.core.rw) (hfault : pushOk s.core.scanSp = false ∨ pu.getLsbD 0 = true) :
    ∃ (r : Vector Word 164) (d : Nat), s.scanEntry pu = (State.free { s with
      core := { s.core with r := r, loads := [], idle := [] } }).2.lockup 4 (d % 256) s.core.pc := by
  obtain ⟨l, hl⟩ := Option.isSome_iff_exists.1 hlatch
  obtain ⟨r, hflush⟩ := flushLoads_eq s.core
  unfold State.scanEntry
  rw [if_neg (by simp [hdue])]
  dsimp only
  rw [scanLatch_of_latched hlatch, hl]
  dsimp only
  rw [State.withCore, hflush, if_neg (by simpa [CoreSt.wouldOverflow] using hwin), if_pos (by
    rcases hfault with h | h
    · simp [h]
    · simpa using .inr h)]
  exact ⟨r, _, rfl⟩

/-- LOCK_INFO of a lock-up: bits 0 to 2 its reason (R371). -/
theorem fldN_lockInfo (reason d : Nat) : fldN (at_ reason 0 ||| at_ d 8) 0 3 = reason % 8 := by
  have hlow : BitVec.extractLsb' 0 3 (at_ d 8) = 0 := by
    ext i hi
    have : i < 8 := by omega
    simp [at_, this]
  rw [fldN, BitVec.extractLsb'_or, hlow]
  simp [at_]

/-- A locked-up core, and the reason it names in LOCK_INFO (R371). -/
theorem lockup_names {s : State} (hlock : s.core.locked = false) {reason : Nat} (hr : reason % 8 ≠ 0) (d : Nat) (pc : Word) :
    (s.lockup reason d pc).core = { s.core with locked := true } ∧ (s.lockup reason d pc).mem = s.mem ∧
      fldN ((s.lockup reason d pc).reg R.lockInfo) 0 3 = reason % 8 := by
  have hinfo : at_ reason 0 ||| at_ d 8 ≠ 0 := fun h => hr (by rw [← fldN_lockInfo reason d, h]; rfl)
  rw [State.lockup, if_neg (by simp [hlock])]
  refine ⟨rfl, rfl, ?_⟩
  rw [← fldN_lockInfo reason d]
  exact congrArg (fun w => fldN w 0 3) (reg_setReg_same (s.setReg R.lockPc pc) R.lockInfo hinfo)

end Sys2Proof.Machine
end

section
/-! A commit's apply tick, and the scan executed again (09 R241, R249, R255; 12 R342). -/

namespace Sys2Proof.Machine

theorem groupSwitch_self (s : State) (src : Word) : s.groupSwitch s.fab.group src = s := if_pos rfl

theorem umuCommit_keeps (s : State) (power : List Word) : (s.umuCommit power).core = s.core ∧ (s.umuCommit power).fab = s.fab := by
  unfold State.umuCommit
  split <;> exact ⟨rfl, rfl⟩

theorem requests_of_unsettled {f g : FabSt} (h : g.unsettled = f.unsettled) : g.req = f.req ∧ g.group = f.group :=
  ⟨congrArg (fun x => x.req) h, congrArg (fun x => x.group) h⟩

/-- The apply tick of a commit that switches no group and names no settings: its requests reach the fabric, its owners change, and it is
applied (R241, R249). -/
theorem commitApply_due {s : State} {c : CommitSt} (hcom : s.scan.commit = some c) (happ : c.applied = false) (hrun : s.running = true)
    (hdue : c.dt ≤ s.time.dt) (hset : s.outWord 0x080 = 0) (hname : bit (s.outWord 0x004) 8 = false) (hgrp : s.fab.grpReq = none) :
    s.commitApply.core = s.core ∧ s.commitApply.fab.req = s.outWord 0 ∧ s.commitApply.fab.group = s.fab.group ∧
      s.commitApply.scan.owner = s.scan.owner ^^^ s.scan.dirty ∧ s.commitApply.scan.dirty = 0 ∧
      s.commitApply.scan.commit = some { c with applied := true } ∧
      (lo32 s.time.dt ≠ 0 → s.commitApply.reg R.scnCommitDt = lo32 s.time.dt) := by
  unfold State.commitApply
  split
  next h => cases hcom.symm.trans h
  next d h =>
    cases hcom.symm.trans h
    have hnow : ¬ s.time.dt < c.dt := by simpa using hdue
    rw [if_neg (by simp [happ, hrun, hnow])]
    extract_lets n ctl named target s1 _ s2 s3 power s4 cyc s5 s6
    have hs1 : s1 = s := by
      have hn : n = 0 := hset
      unfold s1
      rw [hn]
      rfl
    have htarget : target = s.fab.group := by
      simp only [target, named, ctl, hname, hgrp, Bool.false_eq_true, if_false, Option.getD_none]
    have hs3 : s3 = s2.settle := by
      have hgroup : s2.fab.group = s.fab.group := congrArg (fun x => x.fab.group) hs1
      unfold s3
      rw [htarget, ← hgroup, groupSwitch_self]
    obtain ⟨hcore4, hfab4⟩ := umuCommit_keeps s3 power
    have hcore : s4.core = s.core := by
      rw [hcore4, hs3, (keeps_of_outsideFabric (settle_outsideFabric s2)).2.2, ← hs1]
    obtain ⟨hreqs, hgroups⟩ := requests_of_unsettled (settle_unsettled s2)
    have hreq : s4.fab.req = s.outWord 0 := by
      rw [hfab4, hs3, hreqs]
    have hgroup : s4.fab.group = s.fab.group := by
      rw [hfab4, hs3, hgroups, ← hs1]
    clear_value s4
    have hdt (h : lo32 s.time.dt ≠ 0) : s5.reg R.scnCommitDt = lo32 s.time.dt := by
      unfold s5
      rw [reg_setReg_of_ne _ _ (by decide), reg_setReg_of_ne _ _ (by decide), reg_setReg_same _ _ h]
    have hs6 : s6.core = s4.core ∧ s6.fab = s4.fab ∧ s6.reg R.scnCommitDt = s5.reg R.scnCommitDt := by
      unfold s6
      split
      · exact ⟨rfl, rfl, reg_setReg_of_ne s5 cyc (by decide)⟩
      · exact ⟨rfl, rfl, rfl⟩
    obtain ⟨hcore6, hfab6, hreg6⟩ := hs6
    clear_value s6
    exact ⟨hcore6.trans hcore, hfab6 ▸ hreq, hfab6 ▸ hgroup, rfl, rfl, rfl, fun h => hreg6.trans (hdt h)⟩

/-- The scan executes again: entered anew on the frame it has, its image marked (R255). -/
theorem reexecute_redo {s : State} (hredo : s.scan.redo = true) :
    s.reexecute.core = CoreSt.putFrame
        { s.core with
            efp := s.scan.frame, priv := true, ie := false, mask := 15, scan := true, precise := s.scan.precise, uentry := false,
            wtrap := false, df := false, cwp := s.scan.cwp, pc := s.scanEntryPc, cyc := s.core.cyc + 64 }
        s.scan.efp s.scan.frame ∧
      s.reexecute.scan = { s.scan with redo := false, reexec := true, phase := .execute } ∧
      s.reexecute.mem.dtcm = mwrite 0 s.mem.dtcm 0x3E004 (bytesLE (s.dtcmWord 0x3E004 ||| 4)) := by
  rw [State.reexecute, if_pos hredo]
  exact ⟨rfl, rfl, rfl⟩

/-- The lockstep comparison while the part runs: a scan is discarded with cause 1, and outside a scan a warm start is requested (R342). -/
theorem lockstep_running {s : State} (hrun : s.running = true) (hpast : s.mode.past13 = true) (hpf : s.mode.pf = false) :
    s.lockstep = if s.inScan then s.discard 1 else s.latchWarm 3 := by
  rw [State.lockstep, if_neg (by simp [hrun, hpast, hpf])]

theorem latchWarm_of_none {s : State} (h : s.mode.warmReq = none) (cause : Fin 6) :
    s.latchWarm cause = { s with mode := { s.mode with warmReq := some cause } } := by
  simp only [State.latchWarm, h]

end Sys2Proof.Machine
end

section
/-! The scan cycle's commands (obligation O24). -/

namespace Sys2Proof.Machine

theorem mwf_dtcm_of_mapsWf {s : State} (h : s.mapsWf = true) : mwf 0 s.mem.dtcm = true := by
  simp only [State.mapsWf, Bool.and_eq_true, and_assoc] at h
  obtain ⟨-, hdtcm, -⟩ := h
  exact hdtcm

theorem mwf_regs_of_mapsWf {s : State} (h : s.mapsWf = true) : mwf 0 s.regs = true := by
  simp only [State.mapsWf, Bool.and_eq_true, and_assoc] at h
  obtain ⟨-, -, -, -, -, -, -, -, -, hregs, -⟩ := h
  exact hregs

theorem at_of_putFrame {c d : CoreSt} {efp f : Word} (h : d = c.putFrame efp f) :
    d.at 28 = efp ∧ d.at 29 = 0xFFFFFFFF ∧ d.at 31 = f := by
  rw [h]
  exact at_putFrame ..

theorem eq_of_putFrame {c d : CoreSt} {efp f : Word} (h : d = c.putFrame efp f) : ∃ r, d = { c with r := r } := by
  rw [h]
  exact putFrame_eq ..

/-- What the entry to a scan does to the core, the scan cycle, the registers and DTCM (R234, R364, R365). -/
structure ScanEntered (s t : State) (w : Word) : Prop where
  scan : t.core.scan = true
  priv : t.core.priv = true
  ie : t.core.ie = false
  mask : t.core.mask = 15
  pc : t.core.pc = s.scanEntryPc
  cwp : t.core.cwp = s.core.cwp + 1
  efp : t.core.efp = s.core.scanSp - 32
  k28 : t.core.at 28 = s.core.efp
  k29 : t.core.at 29 = 0xFFFFFFFF
  k31 : t.core.at 31 = s.core.scanSp - 32
  cyc : t.core.cyc = (if s.core.cyc + 14 < s.scan.start + 600 then s.scan.start + 600 else s.core.cyc + 14)
  cycle : t.scan = { s.scan with phase := .execute, latch := none, efp := s.core.efp, frame := s.core.scanSp - 32, cwp := s.core.cwp + 1,
                                 precise := s.core.precise }
  regs : t.regs = s.regs
  frame : t.dtcmWord (s.core.scanSp.toNat - 32 - 0x10000000) = s.core.pc
  image : t.dtcmWord 0x3E000 = w

theorem scanEntered_spec {s : State} {w : Word} {l : List Word} (hwf : mwf 0 s.mem.dtcm = true) (hsp : pushOk s.core.scanSp = true) :
    ScanEntered s (s.scanEntered (w :: l)) w := by
  obtain ⟨hframe, himage⟩ := scanEntered_words (l := l) (w := w) hwf hsp
  have hcore := scanEntered_core s (w :: l)
  have hscan := scanEntered_scan s (w :: l)
  have hregs := scanEntered_regs s (w :: l)
  generalize s.scanEntered (w :: l) = t at *
  obtain ⟨h28, h29, h31⟩ := at_of_putFrame hcore
  obtain ⟨r, hr⟩ := eq_of_putFrame hcore
  exact {
    scan := congrArg CoreSt.scan hr
    priv := congrArg CoreSt.priv hr
    ie := congrArg CoreSt.ie hr
    mask := congrArg CoreSt.mask hr
    pc := congrArg CoreSt.pc hr
    cwp := congrArg CoreSt.cwp hr
    efp := congrArg CoreSt.efp hr
    k28 := h28
    k29 := h29
    k31 := h31
    cyc := by rw [hr]
    cycle := hscan
    regs := hregs
    frame := hframe
    image := himage }

/-- A scan whose image is latched is entered. -/
theorem scanEntry_of_latched {s : State} {pu : BitVec 2} {w : Word} {l : List Word} (hwf : s.mapsWf = true) (hdue : s.scanDue = true)
    (hloads : s.core.loads = []) (hwin : s.core.cwp + 1 ≠ s.core.rw) (hsp : pushOk s.core.scanSp = true) (hpu : pu.getLsbD 0 = false)
    (hlatch : s.scan.latch = some (w :: l)) : ScanEntered s (s.scanEntry pu) w := by
  have hkeep : s.scanLatch = s := scanLatch_of_latched (by simp [hlatch])
  have hentry : s.scanEntry pu = s.scanLatch.scanEntered (w :: l) := by
    refine scanEntry_eq hdue ?_ ?_ ?_ ?_ hpu <;> rwa [hkeep]
  rw [hentry, hkeep]
  exact scanEntered_spec (mwf_dtcm_of_mapsWf hwf) hsp

/-- At the latch instant the scan is counted, latched and entered. -/
theorem scanEntry_at_boundary {s : State} {pu : BitVec 2} (hwf : s.mapsWf = true) (hdue : s.scanDue = true) (hloads : s.core.loads = [])
    (hwin : s.core.cwp + 1 ≠ s.core.rw) (hsp : pushOk s.core.scanSp = true) (hpu : pu.getLsbD 0 = false) (hlatch : s.scan.latch = none)
    (hstart : s.mode.starting = false) (hedge : s.fab.edgeDone = true) (hrun : s.zve.run = none) :
    ScanEntered (s.setReg R.scnSeq (s.reg R.scnSeq + 1)).imageLatched (s.scanEntry pu) (s.reg R.scnSeq + 1) := by
  have hkeep := scanLatch_at_boundary (boundaryNow_of_scanDue hdue hlatch) hstart hedge hrun
  have hseq : (s.setReg R.scnSeq (s.reg R.scnSeq + 1)).reg R.scnSeq = s.reg R.scnSeq + 1 := by
    rw [State.reg_setReg _ _ _ _ (mwf_regs_of_mapsWf hwf), if_pos rfl]
  obtain ⟨l, hl⟩ := imageLatched_latch (s.setReg R.scnSeq (s.reg R.scnSeq + 1))
  rw [hseq] at hl
  have hcore : (s.setReg R.scnSeq (s.reg R.scnSeq + 1)).imageLatched.core = s.core := rfl
  have hmem : (s.setReg R.scnSeq (s.reg R.scnSeq + 1)).imageLatched.mem = s.mem := rfl
  generalize (s.setReg R.scnSeq (s.reg R.scnSeq + 1)).imageLatched = t at *
  have hentry : s.scanEntry pu = s.scanLatch.scanEntered ((s.reg R.scnSeq + 1) :: l) := by
    refine scanEntry_eq hdue ?_ ?_ ?_ ?_ hpu
    · rw [hkeep, hl]
    all_goals rwa [hkeep, hcore]
  rw [hentry, hkeep]
  refine scanEntered_spec ?_ ?_
  · rw [hmem]
    exact mwf_dtcm_of_mapsWf hwf
  · rwa [hcore]

theorem unlocked_of_scanDue {s : State} (hdue : s.scanDue = true) : s.core.locked = false ∧ s.core.scan = false := by
  simp only [State.scanDue, Bool.and_eq_true, Bool.not_eq_true', and_assoc] at hdue
  obtain ⟨-, -, -, hlock, -, hscan, -⟩ := hdue
  exact ⟨hlock, hscan⟩

theorem scnFault_ne_zero : ∀ cause : Fin 4, BitVec.ofNat 32 (cause.val + 1) ≠ 0 := by decide

/-- Settles O24: each command of the scan cycle by the lemma that says what it does. -/
theorem scanCycleEventsTakeEffect : Obligations.ScanCycleEventsTakeEffect := by
  unfold Obligations.ScanCycleEventsTakeEffect
  refine ⟨?entry, ?lockup, ?apply, ?complete, ?overrun, ?discard, ?again, ?lockstep⟩
  case entry =>
    intro s pu hwf hdue hloads hwin hsp hpu
    constructor
    · intro l w hlatch _
      have h := scanEntry_of_latched hwf hdue hloads hwin hsp hpu hlatch
      refine ⟨s.scanEntry pu, rfl, ?_⟩
      generalize s.scanEntry pu = t at *
      obtain ⟨hscan, hpriv, hie, hmask, hpc, hcwp, hefp, h28, h29, h31, hcyc, hcycle, hregs, hframe, himage⟩ := h
      exact ⟨hscan, hpriv, hie, hmask, hpc, hcwp, hefp, h28, h29, h31, hcyc, by rw [hcycle], by rw [hcycle], by rw [hcycle],
        by rw [hcycle], hregs, hframe, himage⟩
    · intro hlatch hstart hedge hrun
      have h := scanEntry_at_boundary hwf hdue hloads hwin hsp hpu hlatch hstart hedge hrun
      refine ⟨s.scanEntry pu, rfl, ?_⟩
      generalize s.scanEntry pu = t at *
      have hseq : t.reg R.scnSeq = s.reg R.scnSeq + 1 := by
        rw [State.reg, h.regs]
        exact (State.reg_setReg _ _ _ _ (mwf_regs_of_mapsWf hwf)).trans (if_pos rfl)
      exact ⟨h.scan, h.pc, h.cwp, h.efp, hseq, by rw [h.cycle], by rw [h.cycle]; rfl, by rw [h.cycle]; rfl, by rw [h.cycle]; rfl,
        h.frame, h.image⟩
  case lockup =>
    intro s pu hdue hlatch hwin hfault
    obtain ⟨hlock, hscan⟩ := unlocked_of_scanDue hdue
    obtain ⟨r, d, hentry⟩ := scanEntry_lockup hdue hlatch hwin hfault
    obtain ⟨hcore, hmem, hinfo⟩ := lockup_names (s := (State.free { s with core := { s.core with r := r, loads := [], idle := [] } }).2)
      hlock (reason := 4) (by decide) (d % 256) s.core.pc
    rw [← hentry] at hcore hmem hinfo
    refine ⟨s.scanEntry pu, rfl, ?_⟩
    generalize s.scanEntry pu = t at *
    exact ⟨by rw [hcore], hinfo, hmem, by rw [hcore]; exact hscan⟩
  case apply =>
    intro s c hcom happ hrun hdue hset hname hgrp
    obtain ⟨hcore, hreq, hgroup, howner, hdirty, hcommit, hdt⟩ := commitApply_due hcom happ hrun hdue hset hname hgrp
    exact ⟨s.commitApply, rfl, hreq, hgroup, howner, hdirty, hcommit, hcore, hdt⟩
  case complete =>
    intro s c hcom happ hrun
    obtain ⟨u, hfin, hcommit, hmissed, hdeferred⟩ := commitFinish_resumes hcom happ hrun
    obtain ⟨hscan, hbundle, hcycle⟩ := resumeScan_keeps u
    refine ⟨u.resumeScan, congrArg Host.Outcome.next hfin, ?_⟩
    generalize u.resumeScan = t at *
    exact ⟨by rw [hcycle]; exact hcommit, by rw [hcycle], by rw [hcycle]; exact hmissed, by rw [hcycle]; exact hdeferred, hscan, hbundle⟩
  case overrun =>
    intro s hin hlatch
    obtain ⟨u, hover, hdrop, hpend⟩ := overrun_resumes hin hlatch
    obtain ⟨hscan, -, hcycle⟩ := resumeScan_keeps u
    have hmode := resumeScan_mode u
    refine ⟨u.resumeScan, congrArg Host.Outcome.next hover, ?_⟩
    generalize u.resumeScan = t at *
    rw [hdrop] at hcycle
    exact ⟨hscan, by rw [hcycle], by rw [hcycle], by rw [hcycle], by rw [hcycle]; rfl, by rw [hcycle]; rfl, by rw [hcycle]; rfl,
      fun hprev => hmode ▸ hpend hprev⟩
  case discard =>
    intro s cause hin hleft hre hredo
    obtain ⟨u, hist, r, hdrop, hcore, hfault, hpc, hentered, hwaiting⟩ := discard_again (cause.val + 1) hin hleft hre hredo
    have hdropped : u.scan.dirty = 0 ∧ u.scan.deferred = [] ∧ u.scan.commit = none ∧ u.scan.redo = false := by
      rw [hdrop]
      exact ⟨rfl, rfl, rfl, hredo⟩
    have hempty : u.core.loads = [] ∧ u.core.bundle = [] ∧ u.core.cyc = s.core.cyc := by
      rw [hcore]
      exact ⟨rfl, rfl, rfl⟩
    obtain ⟨hdirty, hdeferred, hcommit, hkept⟩ := hdropped
    obtain ⟨hloads, hbundle, hcyc⟩ := hempty
    refine ⟨s.discard (cause.val + 1), rfl, ?_⟩
    cases hlatch : s.scan.latch with
    | none =>
      rw [hentered hlatch]
      exact ⟨hdirty, hdeferred, hcommit, hfault (scnFault_ne_zero cause), hloads, hbundle, hpc, fun _ => rfl, nofun⟩
    | some l =>
      rw [hwaiting l hlatch]
      refine ⟨hdirty, hdeferred, hcommit, hfault (scnFault_ne_zero cause), hloads, hbundle, hpc, nofun, fun m hm => ?_⟩
      cases hm
      exact ⟨hkept, rfl, congrArg (· + 64) hcyc, rfl⟩
  case again =>
    intro s hwf hredo
    obtain ⟨hcore, hcycle, hmem⟩ := reexecute_redo hredo
    have hword : s.reexecute.dtcmWord 0x3E004 = s.dtcmWord 0x3E004 ||| 4 :=
      dtcmWord_of_mwrite (ws := []) (mwf_dtcm_of_mapsWf hwf) (by rw [hmem, List.flatMap_singleton])
    refine ⟨s.reexecute, rfl, ?_⟩
    generalize s.reexecute = t at *
    obtain ⟨-, -, h31⟩ := at_of_putFrame hcore
    obtain ⟨r, hr⟩ := eq_of_putFrame hcore
    exact ⟨by rw [hcycle], by rw [hcycle], by rw [hcycle], by rw [hr], by rw [hr], by rw [hr], by rw [hr], by rw [hr], by rw [hr], h31,
      by rw [hr], hword⟩
  case lockstep =>
    intro s hrun hpast hpf
    have hlock := lockstep_running hrun hpast hpf
    constructor
    · intro hin
      exact congrArg Host.Outcome.next (hlock.trans (if_pos hin))
    · intro hout hwarm
      exact congrArg Host.Outcome.next (hlock.trans ((if_neg (by simp [hout])).trans (latchWarm_of_none hwarm 3)))

end Sys2Proof.Machine
end

section
/-! The recorder's samples (10 R266 to R275, R283 to R290): what one does before its trigger, and what every one leaves of the sequencers
and of the entries offered. -/

namespace Sys2Proof.Machine

/-! Entries that stay offered. -/

/-- On the way from s to t no entry offered is taken back, and the sequencers stand as they did. -/
def State.RecordsOn (s t : State) : Prop := t.recd.seqs = s.recd.seqs ∧ s.log.offered ⊆ t.log.offered

theorem State.RecordsOn.refl (s : State) : s.RecordsOn s := ⟨rfl, List.Subset.refl _⟩

theorem State.RecordsOn.trans {s t u : State} (hst : s.RecordsOn t) (htu : t.RecordsOn u) : s.RecordsOn u :=
  ⟨htu.1.trans hst.1, List.Subset.trans hst.2 htu.2⟩

theorem recordsOn_of_log_eq {s t : State} (hseqs : t.recd.seqs = s.recd.seqs) (hlog : t.log = s.log) : s.RecordsOn t :=
  ⟨hseqs, by rw [hlog]; exact List.Subset.refl _⟩

theorem recordsOn_evt (s : State) (o i : Nat) : s.RecordsOn (s.evt o i) := recordsOn_of_log_eq rfl rfl

theorem recordsOn_say (s : State) (src : Src) (code : Half) (p0 p1 p2 p3 : Word) : s.RecordsOn (s.say src code p0 p1 p2 p3) :=
  ⟨rfl, List.subset_append_left ..⟩

theorem recordsOn_ite {p : Prop} [Decidable p] {s a b : State} (ha : s.RecordsOn a) (hb : s.RecordsOn b) :
    s.RecordsOn (if p then a else b) := by
  split
  · exact ha
  · exact hb

theorem entry_mem_say (s : State) (src : Src) (code : Half) (p0 p1 p2 p3 : Word) :
    s.entry src code p0 p1 p2 p3 ∈ (s.say src code p0 p1 p2 p3).log.offered := List.mem_append_right _ (List.mem_singleton_self _)

/-! Arming a slot. -/

/-- A sample's stamp is taken. -/
def State.stamped (s : State) : State := { s with recd := { s.recd with sampleDt := s.time.dt } }

theorem recArmNow_of_active {s : State} {n : Fin 8} (h : s.recd.active = some n) (c : RecCfg) : s.recArmNow c = s := by
  simp only [State.recArmNow, h]

theorem recArmNow_arms {s : State} {c : RecCfg} {n : Fin 8} (hnone : s.recd.active = none) (hmay : s.recMayArm c = true)
    (hfree : s.freeSlot c = some n) :
    s.recArmNow c = { s.noHeader c n with recd := { (s.noHeader c n).recd with
      active := some n, armedOnce := true, slot := vput s.recd.slot n { RecSlot.reset with st := .capture } } } := by
  simp only [State.recArmNow, hnone, hmay, hfree, if_true]
  rfl

theorem freeSlot_zero {s : State} {c : RecCfg} (hpos : 0 < c.nslot) (hfree : (s.recd.slot[(0 : Fin 8)]).st = .free) :
    s.freeSlot c = some 0 := by
  rw [State.freeSlot, List.finRange_succ]
  exact List.find?_cons_of_pos (by simp only [hfree, hpos, Fin.val_zero, decide_true, Bool.and_self])

theorem recMayArm_of {s : State} {c : RecCfg} (harm : s.recd.arm = true) (hrun : s.running = true) (hstart : s.mode.starting = false)
    (hm9 : s.mode.m9 = none) (hpf : s.mode.pf = false) (hcells : 0 < s.cells c) : s.recMayArm c = true := by
  simp only [State.recMayArm, harm, hrun, hstart, hm9, hpf, hcells, Option.isNone_none, Bool.not_false, Bool.true_or, Bool.and_self,
    decide_true]

theorem recArmNow_recordsOn (s : State) (c : RecCfg) : s.RecordsOn (s.recArmNow c) := by
  unfold State.recArmNow
  split
  · exact .refl s
  · refine recordsOn_ite ?_ (.refl s)
    split
    · exact .refl s
    · exact recordsOn_of_log_eq rfl rfl

/-! The sequencers at a sample. -/

theorem enable_of_stopped {x : SeqSt} (h : x.stopped = true) (en : Bool) (i : Fin 8) : x.enable en i = x := if_pos (.inr h)

theorem enable_of_eq {x : SeqSt} {en : Bool} (h : en = x.en) (i : Fin 8) : x.enable en i = x := if_pos (.inl h)

/-- Sequencers that are off, and that BRM_CTL leaves off, do nothing at a sample. -/
theorem seqSample_idle {s : State} (hctl : s.recd.brmCtl = 0) (hoff : ∀ q : Fin 4, (s.recd.seqs[q]).en = false) :
    s.seqSample = (s, 0, 0) := by
  refine foldl_keeps (· = (s, (0 : BitVec 4), (0 : Word))) _ (fun acc q hacc => ?_) _ _ rfl
  have hstay (i : Fin 8) : (s.recd.seqs[q]).enable (s.recd.brmCtl.getLsbD q.val) i = s.recd.seqs[q] :=
    enable_of_eq (by rw [hctl, hoff q, BitVec.ofNat_eq_ofNat, BitVec.getLsbD_zero]) i
  have hput : vput s.recd.seqs q s.recd.seqs[q] = s.recd.seqs := Vector.set_getElem_self q.isLt
  have hbit : setBit (0 : BitVec 4) q.val false = 0 := BitVec.zero_and
  subst hacc
  dsimp only
  split
  · rfl
  · simp only [hstay, hoff q, Bool.and_false, Bool.false_eq_true, if_false, hput, hbit]
    rfl

/-- A sequencer that a parity error has stopped stays as it is at a sample, and no sequencer offers an entry. -/
theorem seqSample_stopped {s : State} {q : Fin 4} (hstop : (s.recd.seqs[q]).stopped = true) (hoff : (s.recd.seqs[q]).en = false) :
    s.seqSample.1.recd.seqs[q] = s.recd.seqs[q] ∧ s.seqSample.1.log = s.log := by
  refine foldl_keeps (fun acc : State × BitVec 4 × Word => acc.1.recd.seqs[q] = s.recd.seqs[q] ∧ acc.1.log = s.log) _
    (fun acc r hacc => ?_) _ _ ⟨rfl, rfl⟩
  split
  · exact hacc
  next c _ =>
    extract_lets x y _ _ t t'
    obtain ⟨hseq, hlog⟩ := hacc
    have hput : t.recd.seqs[q] = s.recd.seqs[q] := by
      by_cases hrq : r = q
      · subst hrq
        have hx : x = s.recd.seqs[r] := enable_of_stopped hstop ..
        have hy : y.1 = s.recd.seqs[r] := by
          simp only [y, hoff, Bool.and_false, Bool.false_eq_true, if_false]
          exact hx
        exact (vput_getElem_same ..).trans hy
      · exact (Vector.getElem_set_ne r.isLt q.isLt (Fin.val_ne_of_ne hrq)).trans hseq
    have hcount : t'.recd = t.recd ∧ t'.log = t.log := by
      unfold t'
      split <;> exact ⟨rfl, rfl⟩
    exact ⟨hcount.1 ▸ hput, hcount.2.trans hlog⟩

/-! The slot at a sample. -/

theorem recSeal_recordsOn (s : State) (c : RecCfg) (n : Fin 8) : s.RecordsOn (s.recSeal c n) := by
  unfold State.recSeal
  extract_lets x unset h mem _ s1 s2
  have hsealed : s.RecordsOn s1 := recordsOn_of_log_eq rfl rfl
  have hcounted : s1.RecordsOn s2 := recordsOn_of_log_eq rfl rfl
  exact hsealed.trans (hcounted.trans (recordsOn_say ..))

theorem recTrigger_recordsOn (s : State) (c : RecCfg) (n : Fin 8) (fired : BitVec 4) (cause : Word) (safe : Bool) :
    s.RecordsOn (s.recTrigger c n fired cause safe) := by
  unfold State.recTrigger
  extract_lets x before pre no flags y _ s1 s2 s3
  have htriggered : s.RecordsOn s1 := recordsOn_of_log_eq rfl rfl
  have hmissed : s1.RecordsOn s2 := recordsOn_ite (.refl s1) ((recordsOn_evt ..).trans (recordsOn_say ..))
  have hsealed : s2.RecordsOn s3 := recordsOn_ite (recSeal_recordsOn ..) (.refl s2)
  exact htriggered.trans (hmissed.trans (hsealed.trans ((recordsOn_evt ..).trans (recordsOn_say ..))))

theorem recFrame_slot (s : State) (c : RecCfg) (n : Fin 8) :
    (s.recFrame c n).recd.slot[n] = { s.recd.slot[n] with written := (s.recd.slot[n]).written + 1 } := vput_getElem_same ..

theorem recFrame_recordsOn (s : State) (c : RecCfg) (n : Fin 8) : s.RecordsOn (s.recFrame c n) := recordsOn_of_log_eq rfl rfl

/-- The software triggers end with the sample that took them. -/
def State.softTaken (s : State) : State := { s with recd := { s.recd with swtrig := 0 } }

/-- The frame of a sample is written in slot n: its count after the trigger, or the trigger. -/
def State.sampleIn (s : State) (c : RecCfg) (n : Fin 8) (fired : BitVec 4) (cause : Word) : State :=
  let x := s.recd.slot[n]
  if x.st = .post then
    let y := { x with left := x.left - 1, retrig := if fired ≠ 0 then x.retrig + 1 else x.retrig }
    if y.left = 0 then (s.putSlot n y).recSeal c n else s.putSlot n y
  else if fired ≠ 0 then s.recTrigger c n fired cause false
  else s

/-- A sample that finds no slot counts what the next record misses. -/
def State.sampleMissed (s : State) (fired : BitVec 4) : State :=
  { s with recd := { s.recd with dead := if s.recd.armedOnce then satInc s.recd.dead else s.recd.dead,
                                 missed := if s.recd.armedOnce ∧ fired ≠ 0 then satInc s.recd.missed else s.recd.missed } }

/-- A sample once its sequencers have been evaluated. -/
def State.sampleEnd (s : State) (c : RecCfg) (fired : BitVec 4) (cause : Word) : State :=
  match s.recd.active with
  | none => s.sampleMissed fired
  | some n => (s.recFrame c n).sampleIn c n fired cause

/-- A sample of a running recorder: the parity check, its stamp, a slot armed where one may, then the sequencers, and the slot. -/
theorem recSample_eq {s t : State} {c : RecCfg} {bad : Option (Fin 4)} (hcfg : s.recCfg = some c) (hruns : s.recRuns = true)
    (harm : (bad.elim s s.seqParity).stamped.recArmNow c = t) :
    s.recSample bad = t.seqSample.1.softTaken.sampleEnd c t.seqSample.2.1 t.seqSample.2.2 := by
  subst harm
  unfold State.recSample
  rw [hcfg]
  cases bad <;> exact if_neg (by rw [hruns]; decide)

theorem sampleEnd_active {s : State} {n : Fin 8} (h : s.recd.active = some n) (c : RecCfg) (fired : BitVec 4) (cause : Word) :
    s.sampleEnd c fired cause = (s.recFrame c n).sampleIn c n fired cause := by
  simp only [State.sampleEnd, h]

/-- Before its trigger a slot takes the frame and no more. -/
theorem sampleIn_capture {s : State} {n : Fin 8} (h : (s.recd.slot[n]).st = .capture) (c : RecCfg) (cause : Word) :
    s.sampleIn c n 0 cause = s := by
  have hpost : (s.recd.slot[n]).st ≠ .post := by rw [h]; decide
  exact (if_neg hpost).trans (if_neg (not_not.mpr rfl))

theorem sampleIn_recordsOn (s : State) (c : RecCfg) (n : Fin 8) (fired : BitVec 4) (cause : Word) :
    s.RecordsOn (s.sampleIn c n fired cause) := by
  have hput (y : RecSlot) : s.RecordsOn (s.putSlot n y) := recordsOn_of_log_eq rfl rfl
  exact recordsOn_ite (recordsOn_ite ((hput _).trans (recSeal_recordsOn ..)) (hput _))
    (recordsOn_ite (recTrigger_recordsOn ..) (.refl s))

theorem sampleEnd_recordsOn (s : State) (c : RecCfg) (fired : BitVec 4) (cause : Word) : s.RecordsOn (s.sampleEnd c fired cause) := by
  unfold State.sampleEnd
  split
  · exact recordsOn_of_log_eq rfl rfl
  · exact (recFrame_recordsOn ..).trans (sampleIn_recordsOn ..)

/-- A sample with no sequencer on, in a slot before its trigger, is one frame. -/
theorem recSample_capture {s t : State} {c : RecCfg} {n : Fin 8} (hcfg : s.recCfg = some c) (hruns : s.recRuns = true)
    (harm : s.stamped.recArmNow c = t) (hctl : t.recd.brmCtl = 0) (hoff : ∀ q : Fin 4, (t.recd.seqs[q]).en = false)
    (hact : t.recd.active = some n) (hst : (t.recd.slot[n]).st = .capture) :
    s.recSample none = t.softTaken.recFrame c n := by
  have hframe : ((t.softTaken.recFrame c n).recd.slot[n]).st = .capture := (congrArg RecSlot.st (recFrame_slot ..)).trans hst
  rw [recSample_eq (bad := none) hcfg hruns harm, seqSample_idle hctl hoff, sampleEnd_active (s := t.softTaken) hact,
    sampleIn_capture hframe]

/-! The parity check of a sequencer. -/

/-- The sequencer whose parity check fails stops, and says so (R290). -/
theorem seqParity_stops {s : State} {q : Fin 4} (h : (s.recd.seqs[q]).stopped = false) :
    (s.seqParity q).recd.seqs[q] = { s.recd.seqs[q] with en := false, stopped := true } ∧
      ∃ e ∈ (s.seqParity q).log.offered, e.code = 0x8402 ∧ e.source = 0x30 ∧ e.p0 = BitVec.ofNat 32 q.val := by
  have hstop : s.seqParity q = State.say { s with recd := { s.recd with
      seqs := vput s.recd.seqs q { s.recd.seqs[q] with en := false, stopped := true } } } .recd 0x8402
      (BitVec.ofNat 32 q.val) (BitVec.ofNat 32 (s.recd.seqs[q]).q.val) 0 0 := if_neg (ne_true_of_eq_false h)
  rw [hstop]
  exact ⟨vput_getElem_same .., _, entry_mem_say .., rfl, rfl, rfl⟩

/-- A sample at which a sequencer's parity check fails ends with it stopped and the entry offered. -/
theorem recSample_parity {s : State} {c : RecCfg} {q : Fin 4} (hcfg : s.recCfg = some c) (hruns : s.recRuns = true)
    (h : (s.recd.seqs[q]).stopped = false) :
    (s.recSample (some q)).recd.seqs[q] = { s.recd.seqs[q] with en := false, stopped := true } ∧
      ∃ e ∈ (s.recSample (some q)).log.offered, e.code = 0x8402 ∧ e.source = 0x30 ∧ e.p0 = BitVec.ofNat 32 q.val := by
  obtain ⟨hstop, e, hsaid, he⟩ := seqParity_stops h
  obtain ⟨t, harm⟩ : ∃ t, (s.seqParity q).stamped.recArmNow c = t := ⟨_, rfl⟩
  have hstart : (s.seqParity q).RecordsOn t :=
    harm ▸ (recordsOn_of_log_eq rfl rfl : (s.seqParity q).RecordsOn (s.seqParity q).stamped).trans (recArmNow_recordsOn ..)
  have ht : t.recd.seqs[q] = { s.recd.seqs[q] with en := false, stopped := true } := by rw [hstart.1, hstop]
  obtain ⟨hseq, hlog⟩ := seqSample_stopped (s := t) (q := q) (by rw [ht]) (by rw [ht])
  have htaken : t.seqSample.1.RecordsOn t.seqSample.1.softTaken := recordsOn_of_log_eq rfl rfl
  have hend := htaken.trans (sampleEnd_recordsOn t.seqSample.1.softTaken c t.seqSample.2.1 t.seqSample.2.2)
  rw [recSample_eq (bad := some q) hcfg hruns harm]
  exact ⟨by rw [hend.1, hseq, ht], e, hend.2 (hlog ▸ hstart.2 hsaid), he⟩

end Sys2Proof.Machine
end

section
/-! The drain of the oldest sealed slot (10 R277, R278, R288, R289). -/

namespace Sys2Proof.Machine

/-! Slots freed and records lost. -/

theorem freeDrained_frees {s : State} {n : Fin 8} {rest : List (Fin 8)} (c : RecCfg) (h : s.recd.order = n :: rest) :
    (s.freeDrained c n).recd.order = rest ∧ ((s.freeDrained c n).recd.slot[n]).st = .free ∧ (s.freeDrained c n).recd.retried = false ∧
      (s.freeDrained c n).recd.wptr = s.recd.wptr :=
  ⟨congrArg (List.drop 1) h, congrArg RecSlot.st (vput_getElem_same ..), rfl, rfl⟩

theorem recLost_recd (s : State) (n : Fin 8) (recNo reason : Word) : (s.recLost n recNo reason).recd = s.recd := by
  unfold State.recLost
  dsimp only
  split <;> rfl

theorem recLost_recordsOn (s : State) (n : Fin 8) (recNo reason : Word) : s.RecordsOn (s.recLost n recNo reason) := by
  have hcount : s.RecordsOn (if recNo = 0 then s else s.recCount false) := recordsOn_ite (.refl s) (recordsOn_of_log_eq rfl rfl)
  exact hcount.trans ((recordsOn_evt ..).trans (recordsOn_say ..))

/-- A slot given up before its trigger has no record number, and is not counted (Table REC-4). -/
theorem recLost_unnumbered (s : State) (n : Fin 8) (reason : Word) :
    s.recLost n 0 reason = (s.evt R.recEvt 4).say .recd 0x3004 0 (BitVec.ofNat 32 n.val) reason 0 := by
  simp only [State.recLost, if_true]

theorem recDiscard_none {s : State} (h : s.recd.active = none) (reason : Word) : s.recDiscard reason = s := by
  simp only [State.recDiscard, h]

theorem recDiscard_capture {s : State} {n : Fin 8} (hact : s.recd.active = some n) (hst : (s.recd.slot[n]).st = .capture) (reason : Word) :
    s.recDiscard reason = (State.evt { s with recd := { s.recd with active := none, slot := vput s.recd.slot n RecSlot.reset } }
      R.recEvt 4).say .recd 0x3004 0 (BitVec.ofNat 32 n.val) reason 0 := by
  simp only [State.recDiscard, hact, hst, if_true, recLost_unnumbered]

/-! An uncorrectable error (R289). -/

/-- A byte of a slot lies in that slot. -/
theorem base_add_div {c : RecCfg} {o : Nat} (n : Fin 8) (h : o < c.slotBytes) : fin 7 ((c.base n + o) / c.slotBytes) = n := by
  have hdiv : (c.base n + o) / c.slotBytes = n.val := by
    rw [RecCfg.base, Nat.mul_comm, Nat.mul_add_div (by omega), Nat.div_eq_of_lt h, Nat.add_zero]
  exact Fin.ext ((congrArg (· % 8) hdiv).trans (Nat.mod_eq_of_lt n.isLt))

theorem base_add_lt {c : RecCfg} {n : Fin 8} {o : Nat} (hn : n.val < c.nslot) (h : o < c.slotBytes) :
    c.base n + o < c.nslot * c.slotBytes :=
  calc c.base n + o < (n.val + 1) * c.slotBytes := by rw [Nat.succ_mul]; exact Nat.add_lt_add_left h _
    _ ≤ c.nslot * c.slotBytes := Nat.mul_le_mul_right _ hn

/-- The first error met in a slot is reported with the slot and the byte. -/
theorem recEcc_says {s : State} {c : RecCfg} {n : Fin 8} {o : BitVec 19} (hcfg : s.recCfg = some c)
    (hecc : (s.recd.slot[n]).ecc = false) (hn : n.val < c.nslot) (ho : o.toNat < c.slotBytes) :
    ∃ e ∈ (s.recEcc (c.base n + o.toNat)).log.offered, e.code = 0x8401 ∧ e.source = 0x30 ∧ e.p0 = BitVec.ofNat 32 n.val ∧
      e.p1 = o.setWidth 32 := by
  have hin : ¬ c.nslot * c.slotBytes ≤ c.base n + o.toNat := Nat.not_le.mpr (base_add_lt hn ho)
  have hoff : BitVec.ofNat 32 (c.base n + o.toNat - c.base n) = o.setWidth 32 := by
    rw [Nat.add_sub_cancel_left, BitVec.ofNat_toNat]
  simp only [State.recEcc, hcfg, base_add_div n ho, hecc, hin, decide_false, Bool.or_self, Bool.false_eq_true, if_false]
  exact ⟨_, entry_mem_say .., rfl, rfl, rfl, hoff⟩

/-! The record written to flash. -/

/-- A line written changes the flash and its write counter alone. -/
theorem putLine_key {s t : State} {a : Area} {key : List Byte} {x : Nat} {pt : List Byte} {r : LineWrite}
    (h : s.putLine a key x pt = (r, t)) : ∃ k, t = { s with key := k } := by
  unfold State.putLine at h
  dsimp only at h
  split at h
  · cases h
    exact ⟨s.key, rfl⟩
  · cases h
    exact ⟨_, rfl⟩

theorem putLines_key (a : Area) (key : List Byte) (n x : Nat) (l : List Byte) (s : State) :
    ∃ k, (s.putLines a key n x l).1 = { s with key := k } := by
  induction n generalizing s x l with
  | zero => exact ⟨s.key, rfl⟩
  | succ n ih =>
    unfold State.putLines
    split
    next s1 h =>
      obtain ⟨k, rfl⟩ := putLine_key h
      exact ih (x + 32) (l.drop 32) { s with key := k }
    next h => exact putLine_key h

theorem drainWrite_key (s : State) (c : RecCfg) (n : Fin 8) : ∃ k, (s.drainWrite c n).1 = { s with key := k } := by
  unfold State.drainWrite
  split
  · exact ⟨s.key, rfl⟩
  · split
    · exact ⟨s.key, rfl⟩
    · split
      · exact ⟨s.key, rfl⟩
      · exact putLines_key ..

/-! How a drain ends. -/

/-- The attempt of a drain: the record is written, unless the flash has failed. -/
def State.drainTry (s : State) (c : RecCfg) (n : Fin 8) (fail : Option Byte) : State × Bool :=
  fail.elim (s.drainWrite c n) fun _ => (s, false)

theorem drainTry_recordsOn (s : State) (c : RecCfg) (n : Fin 8) (fail : Option Byte) : s.RecordsOn (s.drainTry c n fail).1 := by
  cases fail with
  | none =>
    obtain ⟨k, hk⟩ := drainWrite_key s c n
    exact recordsOn_of_log_eq (congrArg (·.recd.seqs) hk) (congrArg (·.log) hk)
  | some b => exact .refl s

/-- What follows the attempt w of a drain from s. -/
def State.drainEnd (s : State) (c : RecCfg) (n : Fin 8) (us : Word) (fail : Option Byte) (w : State × Bool) : State :=
  let no := (s.recd.slot[n]).recNo
  let cell := BitVec.ofNat 32 s.recd.wptr
  if w.2 then ((w.1.freeDrained c n).evt R.recEvt 2 |>.say .mov 0x3005 no cell us 0).wptrNext c no
  else if s.recd.retried then (w.1.freeDrained c n).recLost n no 4
  else (({ w.1 with recd := { w.1.recd with retried := true } } : State).say .mov 0x3007 no cell
    (fail.elim 0 (·.setWidth 32)) 0).wptrNext c no

/-- The xSPI status with which a drain fails: its own, or while the boundary register has the pins the flash's (22 R601). -/
def State.drainFail (s : State) (fail : Option Byte) : Option Byte := if s.bscan then some (fail.getD s.key.flash.status) else fail

theorem drainFail_some (s : State) (b : Byte) : s.drainFail (some b) = some b := ite_self _

theorem drainFail_none {s : State} (h : s.bscan = false) : s.drainFail none = none := if_neg (ne_true_of_eq_false h)

/-- A drain that is not paused, the write pointer known: the error that it meets, the attempt, and what follows from it. -/
theorem drained_eq {s : State} {c : RecCfg} {n : Fin 8} {rest : List (Fin 8)} (hcfg : s.recCfg = some c) (horder : s.recd.order = n :: rest)
    (hon : s.mode.coreOn = true) (hstart : s.mode.starting = false) (hknown : s.recd.known = true) (us : Word) (fail : Option Byte)
    (ue : Option (BitVec 19)) {t : State} (ht : (ue.elim s fun o => s.recEcc (c.base n + o.toNat % c.slotBytes)) = t) :
    s.drained us fail ue = t.drainEnd c n us (s.drainFail fail) (t.drainTry c n (s.drainFail fail)) := by
  have hpaused : (!s.mode.coreOn || (s.mode.starting && !s.mode.past13)) = false := by rw [hon, hstart]; rfl
  have hknow : (if s.bscan then s else s.recKnow c) = s := by
    rw [State.recKnow, if_pos hknown, ite_self]
  subst ht
  unfold State.drained
  rw [hcfg, horder]
  refine (if_neg (ne_true_of_eq_false hpaused)).trans ?_
  rw [hknow, ← State.drainFail]
  generalize s.drainFail fail = status
  cases ue <;> cases status <;> rfl

theorem wptrNext_of_lt {s : State} {c : RecCfg} (h : s.recd.wptr + 1 < s.cells c) (no : Word) :
    s.wptrNext c no = { s with recd := { s.recd with wptr := s.recd.wptr + 1 } } := if_pos h

theorem wptrNext_recordsOn (s : State) (c : RecCfg) (no : Word) : s.RecordsOn (s.wptrNext c no) := by
  have hzero : s.RecordsOn { s with recd := { s.recd with wptr := 0 } } := recordsOn_of_log_eq rfl rfl
  exact recordsOn_ite (recordsOn_of_log_eq rfl rfl) (hzero.trans (recordsOn_say ..))

theorem drainEnd_recordsOn (s : State) (c : RecCfg) (n : Fin 8) (us : Word) (fail : Option Byte) {w : State × Bool}
    (hw : s.RecordsOn w.1) : s.RecordsOn (s.drainEnd c n us fail w) := by
  have hfree : s.RecordsOn (w.1.freeDrained c n) := hw.trans (recordsOn_of_log_eq rfl rfl)
  have hretry : s.RecordsOn { w.1 with recd := { w.1.recd with retried := true } } := hw.trans (recordsOn_of_log_eq rfl rfl)
  refine recordsOn_ite ?_ (recordsOn_ite (hfree.trans (recLost_recordsOn ..)) (hretry.trans ?_))
  · exact hfree.trans ((recordsOn_evt ..).trans ((recordsOn_say ..).trans (wptrNext_recordsOn ..)))
  · exact (recordsOn_say ..).trans (wptrNext_recordsOn ..)

section
variable {s t : State} {c : RecCfg} {n : Fin 8} {rest : List (Fin 8)} {us : Word} {fail : Option Byte} {w : State × Bool} {k : KeySt}

/-- A record written frees its slot and moves the write pointer on. -/
theorem drainEnd_written (ht : s.drainEnd c n us fail w = t) (hw : w.1 = { s with key := k }) (hok : w.2 = true)
    (horder : s.recd.order = n :: rest) (hcell : s.recd.wptr + 1 < s.cells c) :
    t.recd.order = rest ∧ (t.recd.slot[n]).st = .free ∧ t.recd.retried = false ∧ t.recd.wptr = s.recd.wptr + 1 := by
  obtain ⟨hrest, hslot, hretried, -⟩ := freeDrained_frees (s := { s with key := k }) c horder
  rw [State.drainEnd, if_pos hok, hw, wptrNext_of_lt] at ht
  · subst ht
    exact ⟨hrest, hslot, hretried, rfl⟩
  · exact hcell

/-- A second failure loses the record. -/
theorem drainEnd_lost (ht : s.drainEnd c n us fail w = t) (hw : w.1 = { s with key := k }) (hfail : w.2 = false)
    (hretried : s.recd.retried = true) (horder : s.recd.order = n :: rest) :
    t.recd.order = rest ∧ (t.recd.slot[n]).st = .free ∧ t.recd.retried = false ∧ t.recd.wptr = s.recd.wptr := by
  rw [State.drainEnd, if_neg (ne_true_of_eq_false hfail), if_pos hretried, hw] at ht
  rw [← ht, recLost_recd]
  exact freeDrained_frees (s := { s with key := k }) c horder

/-- A first failure keeps the record for the next cell. -/
theorem drainEnd_retries (ht : s.drainEnd c n us fail w = t) (hw : w.1 = { s with key := k }) (hfail : w.2 = false)
    (hretried : s.recd.retried = false) (hcell : s.recd.wptr + 1 < s.cells c) :
    t.recd.order = s.recd.order ∧ t.recd.retried = true ∧ t.recd.wptr = s.recd.wptr + 1 := by
  rw [State.drainEnd, if_neg (ne_true_of_eq_false hfail), if_neg (ne_true_of_eq_false hretried), hw, wptrNext_of_lt] at ht
  · subst ht
    exact ⟨rfl, rfl, rfl⟩
  · exact hcell

end

end Sys2Proof.Machine
end

section
/-! The statement of the architecture: the disturbance recorder and the sequencers (10). -/

namespace Sys2Proof.Machine

/-- Settles O13: samples, sequencers, arming and register writes through recSample_eq, the drain through drained_eq. -/
theorem recorderEventsTakeEffect : Obligations.RecorderEventsTakeEffect := by
  unfold Obligations.RecorderEventsTakeEffect
  refine ⟨fun s c hcfg hruns => ⟨?capture, ?arming⟩, ?parity, fun s c hon hcfg => ⟨?arm, ?disarm, ?discard⟩, ?writes,
    fun s c n rest us b hcfg horder hcore hstart hknown => ⟨?lost, ?retry, ?drained, ?ecc⟩⟩
  case capture =>
    intro n hact hst hctl hoff
    have hsample := recSample_capture hcfg hruns (recArmNow_of_active (s := s.stamped) hact c) hctl hoff hact hst
    refine ⟨_, congrArg Host.Outcome.next hsample, ?_⟩
    have hslot := recFrame_slot s.stamped.softTaken c n
    exact ⟨congrArg RecSlot.written hslot, (congrArg RecSlot.st hslot).trans hst, rfl, rfl, rfl, rfl⟩
  case arming =>
    intro hact harm hrun hstart hm9 hpf hcells hslots hfree hctl hoff
    have hmay : s.stamped.recMayArm c = true := recMayArm_of harm hrun hstart hm9 hpf hcells
    have harmed := recArmNow_arms (s := s.stamped) hact hmay (freeSlot_zero hslots hfree)
    have hnew : (vput s.recd.slot 0 { RecSlot.reset with st := .capture })[(0 : Fin 8)] = { RecSlot.reset with st := .capture } :=
      vput_getElem_same ..
    have hsample := recSample_capture hcfg hruns harmed hctl hoff rfl (congrArg RecSlot.st hnew)
    have hslot := (congrArg (fun t => t.recd.slot[(0 : Fin 8)]) hsample).trans (recFrame_slot ..)
    refine ⟨_, rfl, congrArg (fun t => t.recd.active) hsample, ?_, ?_⟩
    · exact (congrArg RecSlot.st hslot).trans (congrArg RecSlot.st hnew)
    · exact (congrArg RecSlot.written hslot).trans (congrArg (fun x => x.written + 1) hnew)
  case parity =>
    intro s c q hcfg hruns hstopped
    obtain ⟨hseq, hsaid⟩ := recSample_parity hcfg hruns hstopped
    exact ⟨_, rfl, congrArg SeqSt.stopped hseq, congrArg SeqSt.en hseq, (congrArg SeqSt.q hseq :), hsaid⟩
  case arm =>
    intro harm
    exact next_regCmd hon (by simp only [State.recArm, hcfg, harm, Bool.false_eq_true, if_false])
  case disarm =>
    intro hact
    exact next_regCmd hon (recDiscard_none (s := { s with recd := { s.recd with arm := false } }) hact 1)
  case discard =>
    intro n hact hst
    exact next_regCmd hon (recDiscard_capture (s := { s with recd := { s.recd with arm := false } }) hact hst 1)
  case writes =>
    intro s v hon
    exact ⟨next_regCmd hon rfl, next_regCmd hon rfl⟩
  case lost =>
    intro hretried
    have hdrained := drained_eq hcfg horder hcore hstart hknown us (some b) none rfl
    rw [drainFail_some] at hdrained
    exact ⟨_, congrArg Host.Outcome.next hdrained, drainEnd_lost (s := s) (k := s.key) rfl rfl rfl hretried horder⟩
  case retry =>
    intro hretried hcell
    have hdrained := drained_eq hcfg horder hcore hstart hknown us (some b) none rfl
    rw [drainFail_some] at hdrained
    exact ⟨_, congrArg Host.Outcome.next hdrained, drainEnd_retries (s := s) (k := s.key) rfl rfl rfl hretried hcell⟩
  case drained =>
    intro hretried hscan hcell
    have hdrained := drained_eq hcfg horder hcore hstart hknown us none none rfl
    rw [drainFail_none hscan] at hdrained
    obtain ⟨k, hkey⟩ := drainWrite_key s c n
    refine ⟨_, congrArg Host.Outcome.next hdrained, ?_⟩
    cases hok : (s.drainWrite c n).2 with
    | true =>
      obtain ⟨horder', hfree, hretried', hwptr⟩ := drainEnd_written (s := s) rfl hkey hok horder hcell
      exact ⟨hwptr, (if_pos rfl).mpr ⟨horder', hfree, hretried'⟩⟩
    | false =>
      obtain ⟨horder', hretried', hwptr⟩ := drainEnd_retries (s := s) rfl hkey hok hretried hcell
      exact ⟨hwptr, (if_neg Bool.false_ne_true).mpr ⟨horder', hretried'⟩⟩
  case ecc =>
    intro fail o hecc hn ho
    have hdrained := drained_eq hcfg horder hcore hstart hknown us fail (some o) rfl
    rw [Option.elim_some, Nat.mod_eq_of_lt ho] at hdrained
    obtain ⟨e, hsaid, he⟩ := recEcc_says hcfg hecc hn ho
    have htry := drainTry_recordsOn (s.recEcc (c.base n + o.toNat)) c n (s.drainFail fail)
    obtain ⟨-, hkept⟩ := drainEnd_recordsOn _ c n us (s.drainFail fail) htry
    exact ⟨_, congrArg Host.Outcome.next hdrained, e, hkept hsaid, he⟩

end Sys2Proof.Machine
end

section
/-! The order in which the log stages what is offered to it (11 R296, 02 R52). -/

namespace Sys2Proof.Machine

/-- An offered entry with its WINTER cycle, its port's place in it and its place in its source's arbiter. -/
abbrev Offer := Entry × Nat × Nat × Nat

theorem goesBefore_iff {y x : Offer} : goesBefore y x = true ↔
    y.2.1 = x.2.1 ∧ (y.2.2.1 < x.2.2.1 ∨
      y.2.2.1 = x.2.2.1 ∧ y.1.source = x.1.source ∧ y.1.stamp = x.1.stamp ∧ y.2.2.2 < x.2.2.2) := by
  simp [goesBefore, and_assoc]

theorem goesBefore_irrefl (x : Offer) : goesBefore x x = false := by
  simp [goesBefore]

theorem goesBefore_trans {x y z : Offer} (hxy : goesBefore x y = true) (hyz : goesBefore y z = true) :
    goesBefore x z = true := by
  rw [goesBefore_iff] at hxy hyz ⊢
  obtain ⟨hcyc, hport | ⟨hport, hsrc, hstamp, hrank⟩⟩ := hxy
  all_goals obtain ⟨hcyc', hport' | ⟨hport', hsrc', hstamp', hrank'⟩⟩ := hyz
  · exact ⟨hcyc.trans hcyc', .inl (hport.trans hport')⟩
  · exact ⟨hcyc.trans hcyc', .inl (hport' ▸ hport)⟩
  · exact ⟨hcyc.trans hcyc', .inl (hport ▸ hport')⟩
  · exact ⟨hcyc.trans hcyc', .inr ⟨hport.trans hport', hsrc.trans hsrc', hstamp.trans hstamp', hrank.trans hrank'⟩⟩

/-- Of two offered entries with their places, the one that the choice of the turn keeps. -/
def sooner (b y : Offer × Nat) : Offer × Nat := if goesBefore y.1 b.1 then y else b

theorem not_goesBefore_sooner {x : Offer} {b : Offer × Nat} (h : goesBefore x b.1 = false)
    (y : Offer × Nat) : goesBefore x (sooner b y).1 = false := by
  unfold sooner
  split
  next hy =>
    by_contra hx
    rw [goesBefore_trans (Bool.of_not_eq_false hx) hy] at h
    cases h
  next => exact h

theorem not_goesBefore_sooner_right (b y : Offer × Nat) : goesBefore y.1 (sooner b y).1 = false := by
  unfold sooner
  split
  next => exact goesBefore_irrefl _
  next hy => exact Bool.of_not_eq_true hy

/-- What does not go before an entry does not go before the choice that starts from it. -/
theorem not_goesBefore_foldl {x : Offer} (t : List (Offer × Nat))
    {b : Offer × Nat} (h : goesBefore x b.1 = false) : goesBefore x (t.foldl sooner b).1 = false := by
  induction t generalizing b with
  | nil => exact h
  | cons y t ih => exact ih (not_goesBefore_sooner h y)

theorem foldl_sooner_first {x : Offer × Nat} (t : List (Offer × Nat))
    {b : Offer × Nat} (hx : x ∈ b :: t) : goesBefore x.1 (t.foldl sooner b).1 = false := by
  induction t generalizing b with
  | nil =>
    rw [List.mem_singleton.1 hx]
    exact goesBefore_irrefl _
  | cons y t ih =>
    rcases List.mem_cons.1 hx with rfl | hx
    · exact not_goesBefore_foldl (y :: t) (goesBefore_irrefl _)
    · rcases List.mem_cons.1 hx with rfl | hx
      · exact not_goesBefore_foldl t (not_goesBefore_sooner_right b x)
      · exact ih (List.mem_cons_of_mem _ hx)

theorem foldl_sooner_mem (t : List (Offer × Nat)) (b : Offer × Nat) :
    t.foldl sooner b ∈ b :: t := by
  induction t generalizing b with
  | nil => exact List.mem_singleton_self b
  | cons y t ih =>
    rcases List.mem_cons.1 (ih (sooner b y)) with h | h
    · rw [List.foldl_cons, h, sooner]
      split <;> simp
    · exact List.mem_cons_of_mem _ (List.mem_cons_of_mem _ h)

/-- The turn is the place of what the choice keeps. -/
theorem turn_eq {l : LogSt} {b : Offer × Nat} {t : List (Offer × Nat)}
    (h : (l.offered.zip l.ports).zipIdx = b :: t) : l.turn = (t.foldl sooner b).2 := by
  simp only [LogSt.turn, h]
  rfl

/-- No offered entry goes before the one whose turn it is. -/
theorem turn_first {l : LogSt} {j : Nat} {x y : Offer} (hy : (l.offered.zip l.ports)[l.turn]? = some y)
    (hx : (l.offered.zip l.ports)[j]? = some x) : goesBefore x y = false := by
  have hmem : (x, j) ∈ (l.offered.zip l.ports).zipIdx := List.mem_zipIdx_iff_getElem?.2 hx
  obtain ⟨b, t, hlist⟩ := List.exists_cons_of_ne_nil (List.ne_nil_of_mem hmem)
  have hchosen := foldl_sooner_mem t b
  rw [← hlist, List.mem_zipIdx_iff_getElem?, ← turn_eq hlist, hy] at hchosen
  rw [hlist] at hmem
  rw [Option.some.inj hchosen]
  exact foldl_sooner_first t hmem

end Sys2Proof.Machine
end

section
/-! Staging, triggers and the end of a flush: what each operation of the log does, case by case (11 R296 to R302, R311). -/

namespace Sys2Proof.Machine

/-! An entry that staging refuses (R297). -/

theorem refuse_counted {l : LogSt} {st : List Entry} (h : bumpOvf l.staged = some st) (pf : Bool) (e : Entry) :
    l.refuse pf e = ({ l with staged := st, lost := satInc l.lost }, false) := by
  simp only [LogSt.refuse, h]

theorem refuse_placed {l : LogSt} (h : bumpOvf l.staged = none) (hroom : l.staged.length < 128) (pf : Bool) (e : Entry) :
    l.refuse pf e =
      ({ l with
          staged := l.staged ++ [{ e with
            code := 0x0030, source := 0x07, pf := pf, hw := true, p0 := 1, p1 := e.code.setWidth 32, p2 := e.source.setWidth 32,
            p3 := 0 }]
          lost := satInc l.lost }, true) := by
  simp only [LogSt.refuse, h, hroom, if_true]
  rfl

theorem refuse_dropped {l : LogSt} (h : bumpOvf l.staged = none) (hfull : 128 ≤ l.staged.length) (pf : Bool) (e : Entry) :
    l.refuse pf e = ({ l with lost := satInc l.lost }, false) := by
  simp only [LogSt.refuse, h, hfull.not_gt, if_false]

/-! One entry staged (R296, R297, R301). -/

/-- The log once staging has taken the entry whose turn it is. -/
def LogSt.taken (l : LogSt) : LogSt := { l with offered := l.offered.eraseIdx l.turn, ports := l.ports.eraseIdx l.turn }

section
variable {s : State} {e : Entry} (he : s.log.offered[s.log.turn]? = some e)
include he

theorem stageOne_lost (hfull : s.log.full = true) :
    s.stageOne = { s with log := { s.log.taken with lost := satInc s.log.lost } } := by
  simp only [State.stageOne, he, hfull, if_true, LogSt.taken]

theorem stageOne_staged (hfull : s.log.full = false) (hroom : s.log.staged.length < 95) (hclass : e.code.extractLsb' 12 4 ≠ 8) :
    s.stageOne = { s with log := { s.log.taken with staged := s.log.staged ++ [{ e with pf := e.pf || s.mode.pf }] } } := by
  have hlimit : s.log.staged.length < 127 := by omega
  have hquiet : ¬(s.log.staged.length + 1 = 96 ∨ e.code.extractLsb' 12 4 = 8) := not_or.2 ⟨by omega, hclass⟩
  simp only [State.stageOne, he, hfull, hlimit, List.length_append, List.length_singleton, hquiet, Bool.false_eq_true, if_true,
    if_false, LogSt.taken]

theorem stageOne_refused (hfull : s.log.full = false) (hlimit : 127 ≤ s.log.staged.length) {l : LogSt} {placed : Bool}
    (h : s.log.taken.refuse s.mode.pf e = (l, placed)) :
    s.stageOne = if placed then State.evt { s with log := l } R.logEvt 1 else { s with log := l } := by
  have hopen : ¬s.log.full = true := Bool.not_eq_true _ ▸ hfull
  unfold LogSt.taken at h
  simp only [State.stageOne, he]
  rw [if_neg hopen, if_neg hlimit.not_gt]
  simp only [h]

end

/-! Triggers (R298, R311). -/

theorem coreOn_of_regsOn {s : State} (hon : s.regsOn = true) : s.mode.coreOn = true := (Bool.and_eq_true_iff.1 hon).1

section
variable {s : State} (h11 : s.mode.past11 = true) (hcore : s.mode.coreOn = true) (herr : s.log.flushErr = false)
  (hclr : s.log.clearing = false)
include h11 hcore herr hclr

theorem flushTrigger_starts (hf : s.log.flush = none) :
    s.flushTrigger = { s with log := { s.log with flush := some s.log.staged.length, retried := false } } := by
  simp [State.flushTrigger, h11, hcore, herr, hclr, hf]

theorem flushTrigger_again {n : Nat} (hf : s.log.flush = some n) : s.flushTrigger = { s with log := { s.log with again := true } } := by
  simp [State.flushTrigger, h11, hcore, herr, hclr, hf]

end

theorem logCtl_flush {v : Word} (hv : bit v 0 = true) (s : State) :
    s.logCtl v = ({ s with log := { s.log with flushErr := false } }).flushTrigger := if_pos hv

/-! The lines of a flush (R299, R301). -/

/-- What writing the lines of a flush leaves of the log: all but the staged entries, the write point and the end at LOG_FULL. -/
def LogSt.besidesLines (l : LogSt) : LogSt := { l with staged := [], wptr := 0, full := false, lost := 0 }

theorem putLine_log {s t : State} {a : Area} {key : List Byte} {x : Nat} {pt : List Byte} {r : LineWrite}
    (h : s.putLine a key x pt = (r, t)) : t.log = s.log := by
  obtain ⟨k, rfl⟩ := putLine_key h
  rfl

theorem flushLines_besidesLines (a : Area) (key : List Byte) (n : Nat) (s : State) :
    (s.flushLines a key n).1.log.besidesLines = s.log.besidesLines := by
  have hput {s t : State} {x : Nat} {pt : List Byte} {r : LineWrite} (h : s.putLine a key x pt = (r, t)) :
      t.log.besidesLines = s.log.besidesLines := congrArg LogSt.besidesLines (putLine_log h)
  induction n generalizing s with
  | zero => rfl
  | succ n ih =>
    unfold State.flushLines
    split
    next => rfl
    next =>
      split
      next => rfl
      next =>
        split
        next =>
          split
          next h => exact (ih _).trans (hput h :)
          next h => exact hput h
        next =>
          split
          next =>
            extract_lets
            split
            next h => exact (hput h :)
            next h => exact hput h
          next => rfl

theorem flushN_besidesLines (s : State) (n : Nat) : (s.flushN n).1.log.besidesLines = s.log.besidesLines := by
  unfold State.flushN
  split
  · rfl
  · exact flushLines_besidesLines ..

/-- A flush that has not failed has written its first line, where that is not the last index (R299). -/
theorem flushLines_next {a : Area} {key : List Byte} {n : Nat} {s : State} {e : Entry} {rest : List Entry}
    (hst : s.log.staged = e :: rest) (hnext : s.log.wptr + 1 < s.entries) (h : (s.flushLines a key (n + 1)).2 = true) :
    ∃ k, s.flushLines a key (n + 1) =
      State.flushLines { s with key := k, log := { s.log with staged := rest, wptr := s.log.wptr + 1 } } a key n := by
  simp only [State.flushLines, hst, hnext, if_true] at h ⊢
  split at h
  next => cases h
  next hpins =>
    split at h
    next s1 hline =>
      obtain ⟨k, hs1⟩ := putLine_key hline
      refine ⟨k, ?_⟩
      rw [if_neg hpins, hs1]
    next => cases h

/-- Lines that all fit before the last index: n entries written, each freed (R299). -/
theorem flushLines_written (a : Area) (key : List Byte) {n : Nat} {s : State} (hfit : s.log.wptr + n < s.entries)
    (hn : n ≤ s.log.staged.length) (h : (s.flushLines a key n).2 = true) :
    (s.flushLines a key n).1.log.wptr = s.log.wptr + n ∧ (s.flushLines a key n).1.log.staged = s.log.staged.drop n := by
  induction n generalizing s with
  | zero => exact ⟨rfl, rfl⟩
  | succ n ih =>
    obtain ⟨e, rest, hst⟩ := List.exists_cons_of_length_pos (Nat.lt_of_lt_of_le n.succ_pos hn)
    have hfit' : s.log.wptr + 1 + n < s.entries := by omega
    have hrest : n ≤ rest.length := by simpa [hst] using hn
    obtain ⟨k, hline⟩ := flushLines_next hst (by omega) h
    rw [hline] at h ⊢
    obtain ⟨hwptr, hstaged⟩ := ih hfit' hrest h
    exact ⟨hwptr.trans (Nat.add_right_comm ..), hstaged.trans (by rw [hst]; rfl)⟩

theorem flushN_written {s : State} {n : Nat} (hfit : s.log.wptr + n < s.entries) (hn : n ≤ s.log.staged.length)
    (harea : s.logArea ≠ none) (h : (s.flushN n).2 = true) :
    (s.flushN n).1.log.wptr = s.log.wptr + n ∧ (s.flushN n).1.log.staged = s.log.staged.drop n := by
  obtain ⟨⟨a, k⟩, ha⟩ := Option.ne_none_iff_exists'.1 harea
  simp only [State.flushN, ha] at h ⊢
  exact flushLines_written a k hfit hn h

/-! How a flush ends (R299, R311). -/

theorem afterFlush_idle {s : State} (hclr : s.log.clearWait = false) (hagain : s.log.again = false) :
    s.afterFlush = { s with log := { s.log with flush := none, retried := false, again := false } } := by
  simp [State.afterFlush, hclr, hagain]

theorem flushFail_retries {s : State} (h : s.log.retried = false) (n k : Nat) :
    s.flushFail n k =
      { s.sayFlushFail 1 with log := { (s.sayFlushFail 1).log with flush := some (n - k), retried := true } } := by
  simp [State.flushFail, h]

theorem flushFail_stops {s : State} (h : s.log.retried = true) (n : Nat) : s.flushFail n 0 = (s.sayFlushFail 2).flushStop := by
  simp [State.flushFail, h]

theorem sayFlushFail_offers (s : State) (attempt : Word) :
    ∃ e ∈ (s.sayFlushFail attempt).log.offered, e.code = 0x0034 ∧ e.source = 0x07 ∧ e.p2 = attempt :=
  ⟨_, entry_mem_say .., rfl, rfl, rfl⟩

section
variable {s : State} {n : Nat} (hf : s.log.flush = some n) (hpf : s.mode.pf = false) (hroom : n ≤ s.log.reserve - s.log.wptr)
include hf hpf hroom

/-- Outside a power-fail a flush with room in the reserve ends by what became of its lines. -/
theorem flushComplete_done : s.flushComplete .done =
    if (s.flushWrite n n true).2 then ((s.flushWrite n n true).1.evt R.logEvt 0).afterFlush else (s.flushWrite n n true).1 := by
  have hfits : ¬(s.room < n ∧ s.log.wptr + n < s.entries) := fun h => h.1.not_ge hroom
  simp only [State.flushComplete, hf, hpf, hfits, Bool.false_eq_true, if_false]

theorem flushComplete_written (h : (s.flushN n).2 = true) :
    s.flushComplete .done = ((s.flushN n).1.evt R.logEvt 0).afterFlush := by
  have hwrite : s.flushWrite n n true = ((s.flushN n).1, true) := by simp [State.flushWrite, h]
  rw [flushComplete_done hf hpf hroom, hwrite, if_pos rfl]

theorem flushComplete_failed (h : (s.flushN n).2 = false) :
    s.flushComplete .done = (s.flushN n).1.flushFail n (s.log.staged.length - (s.flushN n).1.log.staged.length) := by
  have hwrite : s.flushWrite n n true =
      ((s.flushN n).1.flushFail n (s.log.staged.length - (s.flushN n).1.log.staged.length), false) := by
    simp [State.flushWrite, h]
  rw [flushComplete_done hf hpf hroom, hwrite, if_neg Bool.false_ne_true]

end

/-! The erased reserve and the clear (R300, R309). -/

theorem extendReserve_log {s : State} {a : Area} {k : List Byte} {n : Nat} (hb : s.bscan = false) (harea : s.logArea = some (a, k))
    (hlt : s.log.reserve < min ((n + 1023) / 1024 * 1024) s.entries) :
    (s.extendReserve n).log = { s.log with reserve := min ((n + 1023) / 1024 * 1024) s.entries } := by
  simp only [State.extendReserve, hlt, hb, harea, and_self, if_true]

theorem doClear_log {s : State} {a : Area} {k : List Byte} (harea : s.logArea = some (a, k)) :
    s.doClear.log =
      { s.log with wptr := 1, lost := 0, full := false, clearing := false, clearWait := false, reserve := s.entries } := by
  simp only [State.doClear, harea]
  exact (putLine_log rfl).trans rfl

end Sys2Proof.Machine
end

section
/-! Commands and the fetch window of the log: what each does, case by case (11 R303, R305, R306, R308). -/

namespace Sys2Proof.Machine

/-! Software entries and the clear command (R303, R308, R309). -/

/-- The class of the code that a software entry names is the word's bits 15 to 12. -/
theorem sweClass (v : Word) : (fld v 0 16).extractLsb' 12 4 = v.extractLsb' 12 4 := BitVec.extractLsb'_extractLsb'_of_le (by decide)

theorem sweCode_offers {v : Word} (h : v.extractLsb' 12 4 = 0xE) (s : State) :
    s.sweCode v = s.offer {
      code := v.extractLsb' 0 16, source := 0xE0, td := false, coarse := false, pf := false, hw := false, stamp := s.time.dt
      p0 := s.reg (R.logSwe 0), p1 := s.reg (R.logSwe 1), p2 := s.reg (R.logSwe 2), p3 := s.reg (R.logSwe 3) } :=
  if_pos ((sweClass v).trans h)

theorem sweCode_refused {v : Word} (h : v.extractLsb' 12 4 ≠ 0xE) (s : State) : s.sweCode v = s.evt R.logEvt 4 :=
  if_neg (sweClass v ▸ h)

theorem logClearWr_starts {s : State} {v : Word} (hm : s.mode.mode = .service) (hkey : v.extractLsb' 16 16 = (0x6C0E : BitVec 16))
    (hptr : (v.extractLsb' 0 16).toNat = s.log.wptr % 65536) (hf : s.log.flush = none) :
    s.logClearWr v = { s with log := { s.log with clearing := true } } := by
  simp [State.logClearWr, fld, fldN, hm, hkey, hptr, hf]

theorem logClearWr_refused {s : State} (hm : s.mode.mode ≠ .service) (v : Word) : s.logClearWr v = s.evt R.logEvt 4 :=
  if_neg fun h => hm h.1

/-! The fetch window (R305, R306). -/

theorem startFetch_within {s : State} {c : BitVec 20} (hclr : s.log.clearing = false)
    (hc : c.toNat < s.log.wptr + s.log.staged.length) :
    s.startFetch c = { s with log := { s.log with
      cursor := c, win := .fetching, words := List.replicate 8 0, crcBad := false, inStage := false } } := by
  simp [State.startFetch, hclr, hc.not_ge]

theorem endFetch_staged {s : State} {e : Entry} (hwin : s.log.win = .fetching) (hclr : s.log.clearing = false)
    (hc : s.log.wptr ≤ s.log.cursor.toNat) (he : s.log.staged[s.log.cursor.toNat - s.log.wptr]? = some e) :
    s.endFetch = { s with log := { s.log with win := .valid, words := wordsLE 8 e.bytes, inStage := true } } := by
  simp [State.endFetch, hwin, hclr, hc.not_gt, he]

theorem readWin7_valid {s : State} (hwin : s.log.win = .valid) :
    s.readWin7 = (s.log.words.getD 7 0, s.startFetch (s.log.cursor + 1)) := by
  simp [State.readWin7, hwin]

/-- The privileged read of LOG_WIN7 acts, and is no part of a latched pair. -/
theorem regRead_logWin7 (s : State) (key : Nat) (h : s.latched key 0x9005C = none) : s.regRead key true 0x9005C = s.readWin7 := by
  have hlow : isPairLow 0x9005C = false := by decide
  simp [State.regRead, h, hlow]

theorem regAddr_privileged {s : State} (h : s.core.priv = true) (o : Nat) :
    s.regAddr .core o = BitVec.ofNat 32 (0x40000000 + o) := by
  simp [State.regAddr, h]

theorem logWin7Read_valid {s : State} (hrun : s.running = true) (hpf : s.mode.pf = false) (hpriv : s.core.priv = true)
    (hwin : s.log.win = .valid) (hlatch : s.latched (s.latchKey .core) 0x9005C = none) :
    s.readReg .core 0x9005C = (s.startFetch (s.log.cursor + 1)).answer .ok (s.log.words.getD 7 0) := by
  rw [State.readReg, regAddr_privileged hpriv, busRead_register s hrun hpf hpriv (by decide) (by decide)
    (regRow_ne_none s (by decide) (by decide)), regRead_logWin7 s _ hlatch, readWin7_valid hwin]

end Sys2Proof.Machine
end

section
/-! The statement of the architecture: the event log (11). -/

namespace Sys2Proof.Machine

/-- Settles O22: staging by the case of the entry, its order by turn_first, a flush by what became of its lines, and the commands each
by its own rule. -/
theorem eventLogCommandsTakeEffect : Obligations.EventLogCommandsTakeEffect := by
  unfold Obligations.EventLogCommandsTakeEffect
  refine ⟨fun s e he => ⟨?lost, ?staged, ?counted, ?overflow, ?dropped⟩, fun l j x y hy hx => turn_first hy hx,
    fun s v hon hv h11 hclr => ⟨?starts, ?again⟩, ?flush, ?reserve, fun s v hon => ⟨?offers, ?refused, next_regCmd hon rfl⟩,
    ?fetched, ?win7, fun s v hon => ⟨?clear, ?denied⟩, ?cleared⟩
  case lost => exact fun hfull => congrArg Host.Outcome.next (stageOne_lost he hfull)
  case staged => exact fun hfull hroom hclass => congrArg Host.Outcome.next (stageOne_staged he hfull hroom hclass)
  case counted =>
    intro st hfull hlimit hovf
    exact congrArg Host.Outcome.next (stageOne_refused he hfull hlimit (refuse_counted (l := s.log.taken) hovf ..))
  case overflow =>
    intro hfull hlen hovf
    have hroom : s.log.staged.length < 128 := by omega
    exact congrArg Host.Outcome.next (stageOne_refused he hfull hlen.ge (refuse_placed (l := s.log.taken) hovf hroom ..))
  case dropped =>
    intro hfull hlen hovf
    exact congrArg Host.Outcome.next (stageOne_refused he hfull (by omega) (refuse_dropped (l := s.log.taken) hovf hlen ..))
  case starts => exact fun hf => next_regCmd hon ((logCtl_flush hv s).trans (flushTrigger_starts h11 (coreOn_of_regsOn hon) rfl hclr hf))
  case again => exact fun n hf => next_regCmd hon ((logCtl_flush hv s).trans (flushTrigger_again h11 (coreOn_of_regsOn hon) rfl hclr hf))
  case flush =>
    rintro s n _ hf hpf rfl hroom hwait hagain
    have hkept := flushN_besidesLines s n
    refine ⟨fun hok => ?_, fun hfail hretried => ?_, fun hfail hretried hst => ?_⟩
    · have hidle := afterFlush_idle (s := (s.flushN n).1.evt R.logEvt 0) ((congrArg LogSt.clearWait hkept).trans hwait)
        ((congrArg LogSt.again hkept).trans hagain)
      have hdone := (flushComplete_written hf hpf hroom hok).trans hidle
      exact ⟨_, congrArg Host.Outcome.next hdone, rfl, fun hfit harea hn => flushN_written hfit hn harea hok⟩
    · have hdone := (flushComplete_failed hf hpf hroom hfail).trans
        (flushFail_retries ((congrArg LogSt.retried hkept).trans hretried) ..)
      exact ⟨_, congrArg Host.Outcome.next hdone, rfl, (congrArg LogSt.flushErr hkept :), rfl, sayFlushFail_offers ..⟩
    · have hdone := flushComplete_failed hf hpf hroom hfail
      rw [hst, Nat.sub_self, flushFail_stops ((congrArg LogSt.retried hkept).trans hretried)] at hdone
      exact ⟨_, congrArg Host.Outcome.next hdone, rfl, rfl, hst, sayFlushFail_offers ..⟩
  case reserve =>
    intro s a k hcore h11 hpf hclr hpins harea hlt
    have hextends : s.reserveErase = s.extendReserve s.reserveNeed := by simp [State.reserveErase, hcore, h11, hpf, hclr]
    have hlog := extendReserve_log hpins harea hlt
    exact ⟨_, congrArg Host.Outcome.next hextends, congrArg LogSt.reserve hlog, (congrArg LogSt.staged hlog :),
      (congrArg LogSt.wptr hlog :)⟩
  case offers => exact fun hclass => next_regCmd hon (sweCode_offers hclass s)
  case refused => exact fun hclass => next_regCmd hon (sweCode_refused hclass s)
  case fetched =>
    intro s e hon hwin hclr hc he
    exact congrArg Host.Outcome.next ((if_pos hon).trans (endFetch_staged hwin hclr hc he))
  case win7 =>
    intro s hrun hpf hpriv hwin hclr hc hmax hlatch
    have hcursor : (s.log.cursor + 1).toNat = s.log.cursor.toNat + 1 := by
      rw [BitVec.toNat_add]
      exact Nat.mod_eq_of_lt hmax
    refine congrArg Host.Outcome.next ((logWin7Read_valid hrun hpf hpriv hwin hlatch).trans ?_)
    rw [startFetch_within hclr (hcursor ▸ hc)]
  case clear => exact fun hm hkey hptr hf => next_regCmd hon (logClearWr_starts hm hkey hptr hf)
  case denied => exact fun hm => next_regCmd hon (logClearWr_refused hm v)
  case cleared =>
    intro s a k hcore hclr hpf hf hpins harea
    have hclears : s.logCleared = s.doClear := by simp [State.logCleared, hcore, hclr, hpf, hf, hpins]
    have hlog := doClear_log harea
    exact ⟨_, congrArg Host.Outcome.next hclears, congrArg LogSt.wptr hlog, congrArg LogSt.lost hlog, congrArg LogSt.full hlog,
      congrArg LogSt.clearing hlog, (congrArg LogSt.staged hlog :)⟩

end Sys2Proof.Machine
end
